-- ==== Sys2Proof/Word.lean ====
section
/-! DEFINITION. The plain word types, byte sequences in the manual's little-endian order (R8) and keyed tables. -/

namespace Sys2Proof

abbrev Byte := BitVec 8
abbrev Bytes := List Byte
/-- An engine instruction (R109). -/
abbrev IWord := BitVec 128
/-- A keyed table: key and value pairs, keys rising. -/
abbrev Tbl (α : Type) := List (Nat × α)

/-- The value of a little-endian byte run (R8). -/
def leNat : Bytes → Nat
  | [] => 0
  | b :: bs => b.toNat + 256 * leNat bs

/-- The low n bytes of a number, little-endian (R8). -/
def natLe : Nat → Nat → Bytes
  | 0, _ => []
  | n + 1, x => BitVec.ofNat 8 x :: natLe n (x / 256)

/-- The bytes of a big-endian number of n bytes. -/
def natBe (n x : Nat) : Bytes := (natLe n x).reverse

/-- Bits [hi:lo] of a number (R8). -/
def bits (x hi lo : Nat) : Nat := x / 2 ^ lo % 2 ^ (hi + 1 - lo)

/-- Bit i of a number. -/
def bit (x i : Nat) : Bool := x.testBit i

/-- A two's-complement number of w bits. -/
def toSigned (w x : Nat) : Int := if x % 2 ^ w < 2 ^ (w - 1) then (x % 2 ^ w : Nat) else (x % 2 ^ w : Nat) - (2 ^ w : Nat)

/-- The w-bit two's-complement code of an integer. -/
def ofSigned (w : Nat) (x : Int) : Nat := (x % (2 ^ w : Nat)).toNat

/-- One bit as a number. -/
def b2n (b : Bool) : Nat := if b then 1 else 0

/-- Bytes a to a + n - 1 of a byte run, absent bytes 0. -/
def sub (bs : Bytes) (a n : Nat) : Bytes := (List.range n).map fun i => bs.getD (a + i) 0

/-- The little-endian number in bytes a to a + n - 1. -/
def fld (bs : Bytes) (a n : Nat) : Nat := leNat (sub bs a n)

/-- n bytes of 0. -/
def zeros (n : Nat) : Bytes := List.replicate n 0

/-- A byte run cut or padded with zeros to n bytes. -/
def fit (n : Nat) (bs : Bytes) : Bytes := sub bs 0 n

/-- A counter that rises by n and saturates at 2^32 - 1. -/
def satAdd (x n : Nat) : Nat := min (x + n) 4294967295

/-- A counter of w bits that rises by 1 and saturates. -/
def satInc (w x : Nat) : Nat := min (x + 1) (2 ^ w - 1)

/-- Ceiling of a quotient. -/
def ceilDiv (a b : Nat) : Nat := (a + b - 1) / b

namespace Tbl
variable {α : Type}

/-- The entry of a key, or the default. -/
def getD : Tbl α → Nat → α → α
  | [], _, d => d
  | (k, v) :: t, i, d => if k = i then v else getD t i d

/-- The entry of a key, if there is one. -/
def get? : Tbl α → Nat → Option α
  | [], _ => none
  | (k, v) :: t, i => if k = i then some v else get? t i

/-- The table with one entry written. -/
def put : Tbl α → Nat → α → Tbl α
  | [], i, x => [(i, x)]
  | (k, v) :: t, i, x => if i < k then (i, x) :: (k, v) :: t else if k = i then (i, x) :: t else (k, v) :: put t i x

/-- The table with one entry removed. -/
def del : Tbl α → Nat → Tbl α
  | [], _ => []
  | (k, v) :: t, i => if k = i then t else (k, v) :: del t i

end Tbl

end Sys2Proof
end

