-- ==== Sys2Proof/Config.lean ====
section
/-! DEFINITION. What the part fixes (R6, R13, R489) and the free values: constants without a body, so that nothing in Lean
can see their value (log entries 5 and 11). -/

namespace Sys2Proof.Config

/-- Physical cores (R6). -/
def nCores : Nat := 576
/-- Compute dies (R13). -/
def nDies : Nat := 288
/-- Partition slots (R43). -/
def nParts : Nat := 8
/-- Scratchpad bytes per core (R236). -/
def spBytes : Nat := 0x01800000
/-- Scratchpad units of 64 bytes (R236). -/
def spUnits : Nat := 393216
/-- Scratchpad lines of 512 bytes (R236). -/
def spLines : Nat := 49152
/-- Entries of an engine queue (R107). -/
def qDepth : Nat := 256
/-- The hold horizon, in cycles (R309). -/
def horizon : Nat := 96
/-- Stripes of one slice (R339). -/
def stripesPerSlice : Nat := 6291456
/-- Units of module time in one nanosecond (R75). -/
def tNs : Nat := 65536
/-- Units of module time in one second. -/
def tSec : Nat := 65536 * 1000000000
/-- DESIGN CHOICE (log entry 7): the unsteered increment of the module time counter per cc, in units of 2^-32 of 1/65,536 ns:
0.4 ns rounded to a whole unit (R76). -/
def incNominal : Nat := 112589990684262
/-- Ticks of 0.4 ns in one millisecond. -/
def ccPerMs : Nat := 2500000
/-- Entries of the Stook main log, side buffer and ingress queue (R6, R447, R442). -/
def logSize : Nat := 262144
def sideSize : Nat := 4096
def ingressSize : Nat := 1024

/-- FREE VALUE. The n-th draw of Glume's entropy source, byte i (R454). -/
opaque entropy : Nat → Nat → Byte

/-- FREE VALUE. The n-th value of w bits that the spec leaves open. [DESIGN CHOICE log entry 5] -/
opaque freeNat : Nat → Nat → Nat

/-- UNINTERPRETED. SHAKE256 of FIPS 202 (R454): byte i of the output over a byte run. [DESIGN CHOICE log entry 11] -/
opaque shakeByte : Bytes → Nat → Byte

/-- UNINTERPRETED. AES-256-XTS of IEEE 1619 (R349): byte i of the ciphertext of a data unit under two keys, with a tweak. [DESIGN CHOICE log entry 11] -/
opaque xtsByte : Bytes → Nat → Bytes → Nat → Byte

/-- UNINTERPRETED. ML-DSA-65 signature (R454) by the module's identity key under a context, byte i; the number counts the
hedged signatures made. [DESIGN CHOICE log entry 11] -/
opaque signByte : Nat → Bytes → Bytes → Nat → Byte

/-- UNINTERPRETED. AES-256-GCM (R454) under a key, a nonce and additional data: byte i of ciphertext and tag. [DESIGN CHOICE log entry 11] -/
opaque gcmByte : Bytes → Bytes → Bytes → Bytes → Nat → Byte

/-- UNINTERPRETED. ML-KEM-1024 shared secret (R454) of a ciphertext under the module's n-th key pair, byte i. [DESIGN CHOICE log entry 11] -/
opaque kemByte : Nat → Bytes → Nat → Byte

/-- UNINTERPRETED. The public keys that Glume derives or draws (R455, R466): kind, number, byte i. [DESIGN CHOICE log entry 11] -/
opaque pubKeyByte : Nat → Nat → Nat → Byte

/-- FREE VALUE. Row and bank of an address in a pseudo-channel (R352), which the spec does not lay out: the row plus 2^18 times the
bank (log entry 18). -/
opaque pcRow : Nat → Nat

/-- FREE VALUES. The numbers that PART_FLT.CAUSE and the fault record take for NO_RESOURCE (R52, R348, R510) and INTEGRITY_FAIL (R513),
which no table of the spec gives (log entry 41). -/
opaque causeNoResource : Nat
opaque causeIntegrity : Nat

/-- FREE VALUES. What is fixed per module or per release (R540): byte i of the serial number and of the partner's, the manufacturer's JEP106
bits (R42). -/
opaque serialByte : Nat → Byte
opaque partnerByte : Nat → Byte
opaque jep106 : Nat
/-- FREE VALUE. The digest of the Glume ROM that M0 takes (R464), byte i. -/
opaque romByte : Nat → Byte

/-- FREE VALUES. The Chokehus images that the module ships with in flash (R6, R462, R540), by flash slot: version, SVN, byte i of the datapath signature
and of the digest (log entry 103). -/
opaque shippedVersion : Nat → Nat
opaque shippedSvn : Nat → Nat
opaque shippedSigByte : Nat → Nat → Byte
opaque shippedDigestByte : Nat → Nat → Byte

/-- FREE VALUE. How far the refill of the sequencer's queue runs ahead of issue (R123, R140), by position and issues in the step. [DESIGN CHOICE log entry 142] -/
opaque refill : Nat → Nat → Nat

/-- FREE VALUE. The estimate of the coolant flow in 0.01 L/min (R30) from inlet and outlet temperature, in 0.125 degrees C, and input power in W, for
which the spec gives no formula (log entry 120). -/
opaque coolantFlow : Int → Int → Nat → Nat

/-- FREE VALUE. The uncertainty of a time source in ns (R87), for which the spec gives no number. -/
opaque sourceUncertainty : Nat → Nat

/-- SHAKE256(x)[n] of R454. -/
def shake (x : Bytes) (n : Nat) : Bytes := (List.range n).map (shakeByte x)

/-- AES-256-GCM of a plaintext: the ciphertext, then the tag of 16 bytes (R454). -/
def gcm (key nonce aad pt : Bytes) : Bytes := (List.range (pt.length + 16)).map fun i => gcmByte key nonce aad pt i

/-- AES-256-XTS of a data unit (R349). -/
def xts (keys : Bytes) (tweak : Nat) (plain : Bytes) : Bytes := (List.range plain.length).map (xtsByte keys tweak plain)

/-- A signature of 3,309 bytes by the identity key under a context (R454); n counts the signatures made. -/
def sign (n : Nat) (context obj : Bytes) : Bytes := (List.range 3309).map fun i => signByte n context obj i

/-- The n-th random value of Glume, k bytes. -/
def draw (n k : Nat) : Bytes := (List.range k).map fun i => entropy n i

/-- SERIAL and PARTNER of the identity block (R455). -/
def serial : Bytes := (List.range 16).map serialByte
def partnerSerial : Bytes := (List.range 16).map partnerByte

/-- Public keys that Glume derives or draws (R455, R466). Kind 0: identity; 1: envelope; 2: the n-th session key pair. -/
def pubKey (kind n len : Nat) : Bytes := (List.range len).map (pubKeyByte kind n)
/-- The digest of the Glume ROM. -/
def romDigest : Bytes := (List.range 64).map romByte

/-- FREE VALUE. The vendor signature of the device certificate and the slot that made it (R456), byte i; fixed at manufacture. -/
opaque vendorSigByte : Nat → Byte
opaque certSlot : Nat
/-- The vendor signature of the certificate. -/
def vendorSig : Bytes := (List.range 3309).map vendorSigByte

end Sys2Proof.Config
end

