-- ==== Sys2Proof/Syntax.lean ====
section
/-! DEFINITION. The commands of the block: one constructor of Instr for each row of spec/opcode_table.json, with the operands that the
row needs (log entries 2 and 3), and the plain records that appear in operands. -/

namespace Sys2Proof

/-- A program block (R55, R132): source (0 the core-streams section in HBM, 1 scratchpad), address in units of 64 bytes, count. -/
structure Block where
  src : Nat
  addr : Nat
  count : Nat
  deriving DecidableEq, Repr

/-- An entry of a ring table (R284). -/
structure RingCfg where
  base : Nat
  log2 : Nat
  isOpen : Bool
  aflagEn : Bool
  aflag : Nat
  deriving DecidableEq, Repr

/-- What an entry-point record gives one logical core (R55, R135, R284): the first block of queues 0 to 5, the first sequencer
position, the ring table. -/
structure CoreEntry where
  blocks : List Block
  start : Nat
  rings : List RingCfg
  deriving DecidableEq, Repr

/-- An entry point (R55). cycles: the cycle count of each step. -/
structure EntryPoint where
  updates : Nat
  cycles : List Nat
  cores : List CoreEntry
  deriving DecidableEq, Repr

/-- What the image places in one logical core's scratchpad (R54, R123, R241): sequencer code region, resident ranges in units,
resident regions by byte address. -/
structure CoreImg where
  codeBase : Nat
  code : Bytes
  resident : List (Nat × Nat)
  regions : List (Nat × Bytes)
  deriving DecidableEq, Repr

/-- A tensor slot of section 0x09 (R54, R337, R371, R375): input or output, byte offset in its part, element count, format code of R152,
unit code of R370, model defaults as element codes, and for an input the byte offset of its mask slot in the input part. -/
structure TSlot where
  output : Bool
  offset : Nat
  elems : Nat
  fmt : Nat
  unit : Nat
  dflt : List Nat
  mask : Nat
  deriving DecidableEq, Repr

/-- A balanceable region (R328): its dispatch core, the items of each logical core in the static assignment, and the positions of the sequencer code at
which an item begins and that lie within one, for which the spec gives no layout (log entry 141). -/
structure BalRegion where
  dispatch : Nat
  assign : List (List Nat)
  first : Nat
  last : Nat
  deriving DecidableEq, Repr

/-- The energy profile (R54, R106, R488): for each entry point the energy of each step in microjoules, and the draws in watts. -/
structure Energy where
  steps : List (List Nat)
  full : Nat
  peak : Nat
  idle : Nat
  deriving DecidableEq, Repr

/-- A program image as its sections decode (R53, R54). The header is kept as its 256 bytes. -/
structure Image where
  header : Bytes
  /-- LENGTH of the envelope's content, in bytes -/
  length : Nat
  /-- bytes 256 to 4,095 are 0 -/
  gapZero : Bool
  streams : Bytes
  /-- for each die of the block, 256 entries of 128 bits (R276) -/
  slotTables : List (List Nat)
  cores : List CoreImg
  constant : Bytes
  mutable_ : Bytes
  culmCode : Bytes
  entries : List EntryPoint
  energy : Energy
  balance : List BalRegion
  slots : List TSlot
  /-- bytes of the input part and of the output part of the tensor-slot region -/
  slotsIn : Nat
  slotsOut : Nat
  deriving DecidableEq, Repr

/-- What opening a sealed envelope gives (R474): it opens, the bytes of its sections in order (R53), its seed, its content. -/
structure ImageView where
  opens : Bool
  /-- TYPE of R471 -/
  typ : Nat
  body : Bytes
  seed : Option Bytes
  image : Image
  deriving DecidableEq, Repr

/-- What compiled code on a Culm core asks of its channel port (R301): dest is an endpoint, body the message; a ring table entry; a TAKE
with its match; ring control. -/
inductive CulmOp where
  | send (dest ring chan lead : Nat) (body : Bytes)
  | take (ring match_ : Nat)
  | setRing (ring : Nat) (cfg : RingCfg)
  | openRing (ring : Nat)
  | closeRing (ring : Nat)
  | resetRing (ring : Nat)
  deriving DecidableEq, Repr

/-- What the MACsec layer of a port finds in a received frame (R361): no SecTAG, or an association of the table with its AN and PN and
whether the ICV holds. -/
inductive SecTag where
  | none
  | tagged (assoc an pn : Nat) (ok : Bool)
  deriving DecidableEq, Repr

/-- How a PTP message came (R78, R79): over UDP and IPv6 or over Ethernet, its IEEE 802.1Q tag control information, what MACsec finds. -/
structure PtpVia where
  udp : Bool
  tag : Option Nat
  sec : SecTag
  deriving DecidableEq, Repr

/-- What an Announce says of its grandmaster (R78): the fields that the default best master algorithm compares. -/
structure Dataset where
  prio1 : Nat
  cls : Nat
  acc : Nat
  var : Nat
  prio2 : Nat
  gm : Nat
  steps : Nat
  deriving DecidableEq, Repr

/-- What the phase tracker's measurement gives for one sample (R387, R388): fundamental RMS in uV, frequency in uHz, raw phase, the
quantities by code as binary32; a cycle ended with this sample, and its phase's distance from the prediction in units of 10^-4 degree. -/
structure Track where
  rms : Nat
  freq : Nat
  phase : Nat
  q : List (Nat × Nat)
  cycleEnd : Bool
  dev : Nat
  deriving DecidableEq, Repr

/-- A Chokehus image as its header and signature give it (R462, R463): it verifies apart from its SVN and the state of its vendor slot; that slot; version, SVN, datapath signature,
digest of the whole image, and its vendor key record: the new key's digest with its slot, and the slots revoked. -/
structure FwImg where
  ok : Bool := false
  slot : Nat := 0
  version : Nat := 0
  svn : Nat := 0
  sig : Bytes := []
  digest : Bytes := []
  newKey : Option (Nat × Bytes) := none
  revokes : List Nat := []
  deriving DecidableEq, Repr

/-- A 1 µs sample of a power domain (R392, R498): domain, current in mA, voltage in 0.1 mV, power over the last Granary cycle in mW, energy
added since the last sample in uJ. -/
structure DomSample where
  dom : Nat
  ma : Nat
  mv : Nat
  mw : Nat
  uj : Nat
  deriving DecidableEq, Repr

/-- A launched entry of a sealed journal segment (R475): entry, entry point, LEARN, CUT, LAUNCH, STEP, the input tensor. -/
structure SealEntry where
  entry : Nat
  ept : Nat
  learn : Bool
  cut : Nat
  launch : Nat
  step : Nat
  tensor : Bytes
  deriving DecidableEq, Repr

/-- What opening a sealed checkpoint with its journal segment gives (R332, R474, R508): both open, the digest chain runs from one to the
other, the checkpoint's STEP, seed, BIR, journal index and mutable plaintext, the segment's launched entries; output: an envelope of type 5 is given. -/
structure SealView where
  opens : Bool
  chainOk : Bool
  step : Nat
  seed : Bytes
  bir : Bytes
  journalN : Nat
  mut_ : Bytes
  entries : List SealEntry
  output : Bool
  deriving DecidableEq, Repr

/-- The commands (R12, R107 to R142, R414, and the rules cited at each). -/
inductive Instr where
  /-- R25: The 54 V input holds the start threshold for 50 ms, and the module charges its input, brings up its rails in order, asserts PWRGD and releases the root die. -/
  | powerUp (pb1 : Bool) (pb2 : Bool) (modrst : Bool) (perst : Bool) (away : Bool) (straps : Nat) (rails : Nat)
  /-- R463: In stage 5, Glume self-tests, reads OTP, derives and checks keys, verifies Chokehus image A or B, extends the measurements and releases the Chokehus cores. -/
  | measuredBoot (readA : Bool) (readB : Bool) (intact : Bool)
  /-- R426: In stage 6, Chokehus loads the disabled-unit map, the OTP blocks and the factory calibration, and self-tests every core, scratchpad and router. -/
  | chokehusStage (bad : List (Nat × Nat)) (copies : Bool)
  /-- R426: In stage 7, HBM is trained, soft repairs are made hard and the stacks are self-tested. -/
  | hbmTraining (bad : List Nat)
  /-- R426: In stage 8, the Awn converters start, module time counts from 0, the module enters LOCKED and the mailbox becomes ready. -/
  | bootEnd
  /-- R22: A power blade loses presence or carries under 10 % for 100 µs, and Granary raises emergency holds, limits the budget to 9,000 W, records a fault and alerts. -/
  | bladeLoss (pb1 : Bool) (pb2 : Bool)
  /-- R22: After both blades have shared within limits for 1 s, the full power budget returns. -/
  | bladeBudgetRestore
  /-- R23: On an under- or overvoltage, hardware holds every partition and gates the compute, scratchpad and HBM domains within 5 µs. -/
  | powerFail (cause : Nat)
  /-- R23: On hold-up power, Chokehus writes the power-fail record to flash, and the module then turns off. -/
  | powerFailRecord
  /-- R40: An internal rail leaves regulation, and PWRGD is driven low within 1 µs. -/
  | railOutOfRegulation (good : Nat)
  /-- R27: The 54 V input is removed, and the module goes OFF, losing every volatile secret, session, overlay and pending owner key. -/
  | inputRemoved
  /-- R41: MODRST# goes low, and the module is held in reset with every partition lost. -/
  | modrstAssert
  /-- R41: MODRST# is released, and the module starts again from stage 4. -/
  | modrstRelease
  /-- R497: A reading held above its critical trip for 1 ms runs the power-fail sequence with cause THERMAL_TRIP, and the module stays off until the input has been absent for 1 s. -/
  | thermalTrip
  /-- R31: The moisture sensor detects liquid, and the module asserts SMB_ALERT# and records a critical event. -/
  | leakDetected
  /-- R30: The coupling temperatures are sampled, the flow is estimated, and a warning is recorded if the flow is low or the inlet is hot. -/
  | coolantSample (inlet : Int) (outlet : Int)
  /-- R33: Each operating hour updates the long-term average junction temperature and may record a notice. -/
  | junctionHourlyUpdate
  /-- R37: A timing or reference input leaves its limits, and it is dropped as a source and a warning is recorded. -/
  | timingInputOutOfLimits (input : Nat)
  /-- R37: An input that has stayed within limits for 10 s returns as a source. -/
  | timingInputRestored (input : Nat)
  /-- R42: An instruction loaded into the TAP executes, and acts as BYPASS when MODRST# is high and it is neither BYPASS nor IDCODE. -/
  | jtagInstruction (code : Nat) (levels : Nat) (shifted : Nat)
  /-- R80: A rising edge on 1PPS in is stamped and assigned the nearest second, serving as the phase source, an EVENT trigger or a comparison against PTP. -/
  | ppsInEdge
  /-- R84: The 1PPS output marks each whole second of module time. -/
  | ppsOutMark
  /-- R80: A received Sync updates the offset estimate and the servo, and counts towards lock or unlock. -/
  | ptpSync (port : Nat) (via : PtpVia) (ident : Nat) (domain : Nat) (seq : Nat) (twoStep : Bool) (origin : Nat) (corr : Int) (interval : Nat)
  /-- R78: A Follow_Up completes a two-step Sync measurement. -/
  | ptpFollowUp (port : Nat) (via : PtpVia) (ident : Nat) (domain : Nat) (seq : Nat) (origin : Nat) (corr : Int)
  /-- R78: An Announce feeds best master selection over up to 16 foreign masters per port. -/
  | ptpAnnounce (port : Nat) (via : PtpVia) (ident : Nat) (domain : Nat) (ds : Dataset) (interval : Nat) (utc : Option Int)
  /-- R78: A Delay_Resp completes an end-to-end delay measurement. -/
  | ptpDelayResp (port : Nat) (via : PtpVia) (ident : Nat) (domain : Nat) (seq : Nat) (receipt : Nat) (corr : Int)
  /-- R78: A received Pdelay_Req is answered with Pdelay_Resp and Pdelay_Resp_Follow_Up. -/
  | ptpPdelayReq (port : Nat) (via : PtpVia) (domain : Nat) (seq : Nat)
  /-- R78: A Pdelay_Resp or its follow-up completes a peer delay measurement. -/
  | ptpPdelayResp (port : Nat) (via : PtpVia) (domain : Nat) (seq : Nat) (followUp : Bool) (oneStep : Bool) (stamp : Nat) (corr : Int)
  /-- R78: The module sends Delay_Req or Pdelay_Req to measure path delay. -/
  | ptpDelayReqSend (port : Nat)
  /-- R80: PTP unlocks when no valid Sync has arrived for 4 intervals or 2 s. -/
  | ptpSyncTimeout (port : Nat)
  /-- R441: Every 10 minutes Stook records the module time and time state. -/
  | timeMark
  /-- R373: At the input cut, ingest assembles the input tensor and validity mask from the point table into a free input buffer, applying pending point changes. -/
  | inputCut (entry : Nat)
  /-- R99: At a trigger's launch instant, hardware resolves collisions, skips, throttles or launches the frame, and journals the decision. -/
  | launchDecision (p : Nat)
  /-- R94: After 2 s without lock, a flywheeling phase source goes UNLOCKED and its PHASE launches are suppressed. -/
  | flywheelTimeout (src : Nat)
  /-- R101: At G, the guard takes the output tensor if the inference step has ended, or fallback values otherwise. -/
  | guardInstant (p : Nat)
  /-- R381: From 2 µs before E, the partition's ports start no other transmission. -/
  | emissionWindow (p : Nat)
  /-- R102: At E, the guarded setpoint frames of the partition leave each port within ±8 ns. -/
  | emission (p : Nat)
  /-- R524: A DIGEST frame is sent to the field ports after the emission window. -/
  | digestFrameSend (p : Nat)
  /-- R368: A Haulm-mode port sends a TIME frame at each whole second, deferred past an emission window. -/
  | timeFrameSend (port : Nat)
  /-- R62: A frame not ended by its deadline is counted as an overrun and an error is recorded. -/
  | deadline (p : Nat)
  /-- R135: STEP_END completes on a core once its queues, fetches and in-flight instructions are done, and the core reports to the step barrier. -/
  | stepEndComplete (c : Nat)
  /-- R136: After the last core completes, the next step begins on every core and STEP_COUNT rises. -/
  | stepBarrier (p : Nat)
  /-- R136: The STEP_END of a frame's last step ends the frame at its frame boundary. -/
  | frameEnd (p : Nat)
  /-- R137: A core that has not completed STEP_END within twice the step's cycle count raises STEP_TIMEOUT. -/
  | stepTimeout (c : Nat)
  /-- R121: A core whose engines have all been waiting or idle for 4,096 logical cycles, with nothing able to signal, raises FLAG_DEADLOCK. -/
  | flagDeadlock (c : Nat)
  /-- R132: A fetch starts delivering its block at its due cycle or when a delivery slot frees. -/
  | fetchDeliveryStart (c : Nat)
  /-- R133: A fetched instruction enters its queue, raising QUEUE_OVERFLOW or QUEUE_LATE where it must. -/
  | fetchInstructionArrival (c : Nat)
  /-- R134: At 96 cc before its due cycle, a fetch from HBM whose data is incomplete announces a hold. -/
  | fetchCheck (c : Nat) (corrected : Bool) (retried : Bool)
  /-- R123: The sequencer runs past the end of its code region and raises ILLEGAL_INSTRUCTION. -/
  | sequencerRegionOverrun (c : Nat)
  /-- R118: An instruction with SEN set reaches its signal point and adds 1 to its flag's producer count. -/
  | instructionSignalPoint (c : Nat)
  /-- R126: A sequencer instruction's result reaches its scalar register after its result latency. -/
  | scalarResult (c : Nat)
  /-- R249: A range scoreboard entry is released at the end of its release cycle. -/
  | scoreboardRelease (c : Nat)
  /-- R111: A NOP issues on any engine, waiting on or signalling a flag and doing nothing else. -/
  | nop (c : Nat) (e : Nat)
  /-- R132: The sequencer issues a FETCH that delivers a block from HBM or scratchpad into an engine queue. -/
  | fetch (c : Nat)
  /-- R126: The sequencer waits until the named queue has room for a block. -/
  | qwait (c : Nat)
  /-- R126: The sequencer loads 1 to 8 bytes from scratchpad into a scalar register. -/
  | lds (c : Nat)
  /-- R126: The sequencer stores the low bytes of a scalar register to scratchpad. -/
  | sts (c : Nat)
  /-- R128: The sequencer performs the 64-bit operation that MOD selects. -/
  | alu (c : Nat)
  /-- R129: The sequencer reads a step value such as STEP_COUNT or the logical core index. -/
  | sysr (c : Nat)
  /-- R130: The sequencer compares two operands and branches within its code region. -/
  | br (c : Nat)
  /-- R119: The sequencer sets a flag's producer count. -/
  | flagSet (c : Nat)
  /-- R119: The sequencer adds to a flag's producer count. -/
  | flagAdd (c : Nat)
  /-- R126: The sequencer occupies itself for a computed number of cycles. -/
  | waitc (c : Nat)
  /-- R135: The sequencer issues STEP_END, naming the next step's first sequencer position. -/
  | stepEnd (c : Nat)
  /-- R126: The sequencer raises a fault with cause ASSERT and a code. -/
  | fault (c : Nat)
  /-- R156: The matrix array adds the products of an A tile and a B tile into its accumulators. -/
  | mm (c : Nat)
  /-- R145: The contributions of an MM land in the rows of the array. -/
  | mmContribution (c : Nat)
  /-- R157: The array begins converting and writing its block and clearing its accumulators. -/
  | drain (c : Nat)
  /-- R166: A DRAIN reads the parameter record of a row and checks it. -/
  | drainParamRead (c : Nat)
  /-- R157: A DRAIN reads and clears one accumulator row, checking its residue or parity. -/
  | drainRowRead (c : Nat)
  /-- R168: A DRAIN writes one converted and clipped row to scratchpad. -/
  | drainRowWrite (c : Nat)
  /-- R158: The array begins replacing its accumulators with a block, or adding a block to them. -/
  | loadAcc (c : Nat)
  /-- R158: A LOAD_ACC writes one row into the accumulators. -/
  | loadAccRowWrite (c : Nat)
  /-- R208: The vector engine writes A + B rounded into FD. -/
  | add (c : Nat)
  /-- R208: The vector engine writes A − B rounded into FD. -/
  | sub (c : Nat)
  /-- R208: The vector engine writes A × B rounded into FD. -/
  | mul (c : Nat)
  /-- R208: The vector engine writes the fused A × B + D into D. -/
  | mad (c : Nat)
  /-- R210: The vector engine writes the IEEE minimum of A and B. -/
  | min (c : Nat)
  /-- R210: The vector engine writes the IEEE maximum of A and B. -/
  | max (c : Nat)
  /-- R208: The vector engine writes the magnitude of A. -/
  | abs (c : Nat)
  /-- R208: The vector engine writes the negation of A. -/
  | neg (c : Nat)
  /-- R208: The vector engine converts A into FD. -/
  | cvt (c : Nat)
  /-- R210: The vector engine clamps A between the scalars S1 and S2. -/
  | clamp (c : Nat)
  /-- R210: The vector engine writes 1 where A equals B, else 0. -/
  | cmpeq (c : Nat)
  /-- R210: The vector engine writes 1 where A differs from B, else 0. -/
  | cmpne (c : Nat)
  /-- R210: The vector engine writes 1 where A is less than B, else 0. -/
  | cmplt (c : Nat)
  /-- R210: The vector engine writes 1 where A is at most B, else 0. -/
  | cmple (c : Nat)
  /-- R211: The vector engine takes A where unmasked and B where masked. -/
  | sel (c : Nat)
  /-- R221: The vector engine computes 2 to the power of A. -/
  | exp2 (c : Nat)
  /-- R222: The vector engine computes the base-2 logarithm of A. -/
  | log2 (c : Nat)
  /-- R223: The vector engine computes the reciprocal of A. -/
  | rcp (c : Nat)
  /-- R224: The vector engine computes the reciprocal square root of A. -/
  | rsqrt (c : Nat)
  /-- R225: The vector engine computes the hyperbolic tangent of A. -/
  | tanh (c : Nat)
  /-- R214: The vector engine sums A along the columns or along the rows. -/
  | rsum (c : Nat)
  /-- R214: The vector engine reduces A to its maxima. -/
  | rmax (c : Nat)
  /-- R214: The vector engine reduces A to its minima. -/
  | rmin (c : Nat)
  /-- R214: The vector engine writes the index of each maximum as INT32. -/
  | rargmax (c : Nat)
  /-- R226: The vector engine computes a base-2 soft maximum of each row in three passes. -/
  | softmax (c : Nat)
  /-- R216: The vector engine adds EXP96 containers modulo 2^96 and ORs their special bits. -/
  | xadd (c : Nat)
  /-- R217: The vector engine converts EXP96 containers to a format with drain parameters. -/
  | xcvt (c : Nat)
  /-- R217: An XCVT reads the parameter record of a row and checks it. -/
  | xcvtRecordRead (c : Nat)
  /-- R232: The vector engine writes counter-based random words, uniforms or Bernoulli draws. -/
  | thresh (c : Nat)
  /-- R206: A vector instruction writes the results of a group, or a reduction's results, to D. -/
  | vxGroupWrite (c : Nat)
  /-- R262: A stream-in engine issues a LOAD that reads HBM, converts, and writes scratchpad at planned due cycles. -/
  | load (c : Nat) (e : Nat)
  /-- R262: The stream-out engine issues a STORE that reads scratchpad, converts, and writes HBM. -/
  | store (c : Nat)
  /-- R262: A stream-in engine issues a ZERO that writes zeros to scratchpad in the descriptor's layout. -/
  | zero (c : Nat) (e : Nat)
  /-- R262: At a unit's due cycle, the unit is written to scratchpad or read into the write buffer. -/
  | streamUnitDue (c : Nat) (e : Nat)
  /-- R264: At 96 cc before a unit's due cycle, a LOAD whose data is incomplete announces a hold. -/
  | loadCheck (c : Nat) (e : Nat) (corrected : Bool) (retried : Bool)
  /-- R265: A STORE announces a hold when it lacks a write-buffer slot or an acknowledgement at its check cycle. -/
  | storeCheck (c : Nat) (corrected : Bool) (retried : Bool)
  /-- R263: HBM read data arrives in a stream or fetch buffer and may end a hold. -/
  | streamDataArrival (c : Nat) (e : Nat) (issueNo : Nat) (unit : Nat)
  /-- R263: HBM acknowledges a unit of a STORE, which frees its buffer slot. -/
  | storeWriteAck (c : Nat) (e : Nat) (issueNo : Nat) (unit : Nat)
  /-- R289: The channel engine injects a reservation for a message to a receive ring. -/
  | send (c : Nat)
  /-- R296: The channel engine copies the earliest matching committed message out of a local ring. -/
  | take (c : Nat)
  /-- R298: The channel engine requests a span of a remote core's scratchpad. -/
  | rread (c : Nat)
  /-- R298: The channel engine injects a span of local scratchpad into a remote core's scratchpad. -/
  | rwrite (c : Nat)
  /-- R293: A receive ring becomes OPEN. -/
  | ringOpen (c : Nat)
  /-- R293: A receive ring becomes CLOSED, and its waiting reservations get CLOSED replies. -/
  | ringClose (c : Nat)
  /-- R293: A receive ring advances its epoch, empties and discards its records. -/
  | ringReset (c : Nat)
  /-- R289: The receiver's ring controller grants, refuses or queues a reservation. -/
  | reservationHandled (p : Nat) (ep : Nat)
  /-- R290: The sender receives a grant, CLOSED, STALE or TOO_BIG reply, and starts injecting data or ends the SEND. -/
  | reservationReply (p : Nat) (ep : Nat)
  /-- R274: A flit reaches its destination interface, where a stale data flit is discarded. -/
  | flitDelivery (p : Nat) (ep : Nat)
  /-- R274: A delivered flit is written into scratchpad or a receive ring. -/
  | flitWrite (p : Nat) (ep : Nat)
  /-- R298: The target core reads the requested units and injects them. -/
  | remoteReadRequest (p : Nat) (ep : Nat)
  /-- R298: The sender receives the acknowledgement of a SEND or RWRITE, its last effect. -/
  | acknowledgementReceived (p : Nat) (ep : Nat)
  /-- R281: At a transfer's check cycle in slotted mode, the receiver announces a hold if data is missing. -/
  | receiveCheck (p : Nat) (ep : Nat)
  /-- R278: A flit present at a slotted router is forwarded by its slot-table field or raises SLOT_COLLISION. -/
  | flitAtRouter (die : Nat) (src : Nat) (lane : Nat)
  /-- R280: A receiver finds a bad flit CRC and requests the flit again. -/
  | flitCrcError (die : Nat) (port : Nat) (mem : Bool) (p : Nat) (n : Nat) (again : Bool)
  /-- R311: A die sees the three copies of a hold announcement disagree, and counts it. -/
  | holdWordDisagreement (die : Nat) (port : Nat)
  /-- R309: A hold start takes effect 96 logical cycles after its announcement, and the partition stops or the hold joins an interval. -/
  | holdStartEffect (p : Nat)
  /-- R309: A hold end takes effect 96 cycles after its announcement, and the partition resumes when no hold remains. -/
  | holdEndEffect (p : Nat)
  /-- R316: A data hold whose end has not taken effect after 4,194,304 cc raises HOLD_TIMEOUT. -/
  | holdTimeout (p : Nat)
  /-- R512: When the STOP hold takes effect, the restart begins with the snapshot, retirement decisions, placement and rebuilds. -/
  | restartBegin (p : Nat)
  /-- R513: The mutable section is restored from a checkpoint and checked, and the partition continues to catch-up, SHADOW or ARMED. -/
  | restoreComplete (p : Nat) (okA : Bool) (okB : Bool)
  /-- R69: A journalled frame is re-executed without emission during catch-up. -/
  | catchUpFrame (p : Nat)
  /-- R69: Catch-up meets the live launches, and the partition returns to RUNNING at the next launch. -/
  | catchUpComplete (p : Nat)
  /-- R69: A catch-up that has not met the live launches records an error every 60 s. -/
  | catchUpOverdue (p : Nat)
  /-- R340: After the last granule of a checkpoint is copied, the controllers write the slot's parity. -/
  | checkpointParityPass (p : Nat)
  /-- R508: The checkpoint's COMMIT word is written, the older journal is released, and a pending CHECKPOINT completes. -/
  | checkpointCommit (p : Nat)
  /-- R514: Background verification reads a constant-section leaf and raises WEIGHT_MISMATCH on a digest mismatch. -/
  | weightLeafCheck (p : Nat) (bad : Bool)
  /-- R343: A controller reads a burst, corrects or poisons it, decrypts it and returns it. -/
  | hbmRead (p : Nat) (off : Nat) (errs : Nat)
  /-- R343: A controller encrypts and writes a burst, copying checkpoint stripes first where needed. -/
  | hbmWrite (c : Nat) (issueNo : Nat) (unit : Nat)
  /-- R341: A stack's refresh window begins, and is used or left open by temperature. -/
  | refreshWindow (stack : Nat)
  /-- R342: An idle slice enters self-refresh after 1 ms without a request. -/
  | selfRefreshEntry (slice : Nat)
  /-- R344: The patrol scrub reads a burst and writes back any correction. -/
  | patrolScrub (pc : Nat) (errs : Nat) (newer : Bool)
  /-- R346: A marked row is soft-repaired in an unused refresh window and rewritten from its buffer. -/
  | rowRepair (pc : Nat) (row : Nat)
  /-- R345: A pseudo-channel stops answering or fails an unretriable check, and HBM_FAIL stops its partitions. -/
  | hbmFail (pc : Nat)
  /-- R354: A field port's lanes align and its link comes up. -/
  | portLinkUp (port : Nat) (lanes : Nat)
  /-- R356: A port or sub-port loses link, setting PORT_STAT.DOWN and dropping its transmissions. -/
  | portLinkDown (port : Nat) (lanes : Nat)
  /-- R357: An Ethernet port classifies a received frame after MACsec and drops what it does not carry. -/
  | ethernetFrame (port : Nat) (sub : Nat) (sec : SecTag) (frame : Bytes)
  /-- R366: A received Haulm DATA_IN frame is checked and its values go to their bound input points. -/
  | haulmDataIn (port : Nat) (sub : Nat) (msa : Nat) (frame : Bytes)
  /-- R360: A sampled-values ASDU matching a subscription is scaled, stamped and fed to points and its virtual source. -/
  | svAsdu (v : Nat) (smpCnt : Nat) (confRev : Nat) (smpSynch : Nat) (values : List (Nat × Nat)) (track : Option Track)
  /-- R357: A Neighbor Solicitation for a port address is answered with a Neighbor Advertisement. -/
  | neighborSolicitation (port : Nat) (sub : Nat) (target : Bytes) (source : Bytes)
  /-- R385: All 12 converters sample at a module-time instant, and the tracker updates its estimates. -/
  | awnSample (samples : List (Nat × Int × Track))
  /-- R393: A lane measures its eye margins and sets LANE_STAT.LOW after ten low readings. -/
  | laneEyeMeasurement (lane : Nat) (vmin : Nat) (hmin : Nat)
  /-- R504: A lane that loses alignment, or stays low for an hour, is charged. -/
  | laneCharge (lane : Nat) (lost : Bool)
  /-- R492: Every 1 µs Granary samples input power and starts or ends emergency hold pulses. -/
  | granarySample (watts : Nat) (mean : Nat) (volts : Nat) (i1 : Nat) (i2 : Nat) (draws : List (Nat × Nat)) (doms : List DomSample)
  /-- R493: Every 10 µs Granary compares partition draws with grants and applies the sustained guard. -/
  | granaryCycle (avgs : List (Nat × Nat))
  /-- R392: The die and stack temperatures are sampled every 100 µs. -/
  | temperatureSample (dies : List (Nat × Nat × Int)) (stks : List (Nat × Int)) (root : List (Nat × Int)) (edge : List (Nat × Int))
  /-- R496: A die above its hot-spot limit draws POWER hold pulses every 20 µs. -/
  | hotSpotPulse
  /-- R495: Every 10 ms Granary lowers or raises the thermal cap. -/
  | thermalCapAdjust
  /-- R486: Each microsecond of a ramp, the next group of core domains ungates. -/
  | coreRampGroup (p : Nat)
  /-- R442: A record leaves the ingress queue and enters the log or the side buffer, replacing or dropping under R444. -/
  | stookRecordEntry
  /-- R445: A severity 6 or 7 record is written to the OTP critical summary. -/
  | summaryEntryWrite
  /-- R447: A freeze not thawed within 60 s ends as if by LOG_THAW. -/
  | logFreezeExpiry
  /-- R470: An owner session ends after SESSION_IDLE_S without a valid command. -/
  | sessionIdleTimeout
  /-- R480: The unlock duration expires, and every partition is destroyed before the module relocks. -/
  | debugUnlockExpiry
  /-- R517: At least 8 Rachis lanes align and the twin link comes up, and the modules exchange STATE. -/
  | rachisLinkUp (lanes : Nat) (crossed : Bool)
  /-- R527: The twin link goes down, and each paired partition runs isolated. -/
  | rachisLinkDown (lanes : Nat)
  /-- R523: The follower receives the lead's CUT frames and writes them into its input buffer. -/
  | cutFrame (counter : Nat) (ok : Bool) (body : Bytes)
  /-- R525: A partner's DIGEST frame is compared with the local digest, and matches, divergence or rejoin are resolved. -/
  | digestFrame (counter : Nat) (ok : Bool) (body : Bytes) (fault : Bool)
  /-- R525: A frame whose partner digest has not arrived by deadline plus 1 ms is counted as missing. -/
  | digestWaitTimeout (p : Nat)
  /-- R520: A partner's HELLO is checked during pairing. -/
  | helloBlock (body : Bytes) (certOk : Bool) (owners : Bool) (classes : Bool) (ss : Bytes)
  /-- R527: A partner's STATE block updates roles, journal and emission count comparisons. -/
  | stateBlock (counter : Nat) (ok : Bool) (body : Bytes) (equal : Bool)
  /-- R519: A module sends its STATE block at each state change and every 1 ms. -/
  | stateBlockSend (p : Nat)
  /-- R521: The follower replaces its seed with the lead's and rewrites its Thresh tables. -/
  | seedBlock (counter : Nat) (ok : Bool) (body : Bytes)
  /-- R531: A partner's map is received, and the missing units are disabled by union. -/
  | mapBlock (counter : Nat) (ok : Bool) (body : Bytes)
  /-- R528: A block of the lead's checkpoint is received for a restore. -/
  | ckptBlock (counter : Nat) (ok : Bool) (body : Bytes)
  /-- R528: Journal entries from the partner are received for catch-up. -/
  | journalBlock (counter : Nat) (ok : Bool) (body : Bytes)
  /-- R534: A partner's emitted values are compared within tolerance during a handover. -/
  | valuesBlock (counter : Nat) (ok : Bool) (body : Bytes)
  /-- R514: A leaf's plaintext from the partner rebuilds a mismatched weight leaf. -/
  | constBlock (counter : Nat) (ok : Bool) (body : Bytes)
  /-- R525: A partner's recomputed digest resolves a divergence. -/
  | redigestBlock (counter : Nat) (ok : Bool) (body : Bytes)
  /-- R520: A pairing not completed within 60 s fails with NO_RESOURCE. -/
  | pairTimeout
  /-- R401: A function-level reset returns the host-link state and mailbox control registers to reset. -/
  | functionLevelReset
  /-- R401: A hot reset returns the host-link state and mailbox control registers to reset. -/
  | hotReset
  /-- R401: The host link goes down, and only host-link state is reset. -/
  | hostLinkDown
  /-- R401: PERST# is asserted, and only host-link state is reset. -/
  | perstAssert
  /-- R400: The module enters D3hot, which disables BAR decoding only. -/
  | d3hotEntry
  /-- R402: A CXL.mem access reaches the device-memory window, and unbacked bytes are poisoned or discarded. -/
  | windowAccess (off : Nat) (n : Nat) (wr : Option Bytes)
  /-- R406: A BAR0 access of a bad width or alignment reads all ones or is discarded, and is reported through AER. -/
  | bar0MisalignedAccess (write : Bool) (off : Nat) (width : Nat)
  /-- R414: A host write to a mailbox slot is taken, or discarded and counted while OWN is set. -/
  | mailboxSlotWrite (slot : Nat) (off : Nat) (data : Bytes)
  /-- R408: A write to MBX_CTL sets the mailbox enables and reports held OWN bits when EN returns to 1. -/
  | mbxCtlWrite (value : Nat)
  /-- R409: A read of the event summary over BAR0 or the sideband releases SMB_ALERT#. -/
  | evtSumRead (sideband : Option Nat)
  /-- R397: A write of AWN_CTL.LATCH copies one coherent estimate into the Awn registers. -/
  | awnCtlLatch (unit : Nat)
  /-- R12: A write to any other register takes effect at once, at the next frame, or is refused and recorded. -/
  | registerWrite (off : Nat) (width : Nat) (value : Nat)
  /-- R417: Chokehus restarts, and the mailbox stops accepting while the watcher keeps recording. -/
  | managementRestart
  /-- R417: After the restart, accepted commands finish from their records and EVT_SUM.MGMT is set. -/
  | managementRestartEnd
  /-- R422: Returns the identity record, running image and datapath signature. -/
  | identify (slot : Nat)
  /-- R422: Returns the module state record. -/
  | getState (slot : Nat)
  /-- R422: Enters SERVICE when no partition runs. -/
  | serviceEnter (slot : Nat)
  /-- R422: Leaves SERVICE for READY or DEGRADED. -/
  | serviceLeave (slot : Nat)
  /-- R468: A signed kind-1 object authenticates an established session as the owner session. -/
  | authOwnerSession (slot : Nat) (sigOk : Bool)
  /-- R461: A signed owner record enrols or transfers the owner key as pending. -/
  | authOwnerRecord (slot : Nat) (sigOk : Bool)
  /-- R483: A signed kind-3 object replaces the security policy working copy. -/
  | authOwnerPolicy (slot : Nat) (sigOk : Bool)
  /-- R533: Checks a Chokehus image and writes it into the flash slot not running. -/
  | fwStage (slot : Nat) (img : FwImg)
  /-- R533: Exchanges the Chokehus image slots and restarts Chokehus into the staged image. -/
  | fwActivate (slot : Nat)
  /-- R70: Assigns a partition slot its floor, slices, ports, Culm cores, launch entries and keys. -/
  | create (slot : Nat)
  /-- R541: Takes an image segment by segment, verifies and places it, and loads HBM, STEP_COUNT and seed. -/
  | loadProgram (slot : Nat) (view : ImageView)
  /-- R371: Writes point table entries binding points to tensor slots. -/
  | bindPoints (slot : Nat)
  /-- R96: Writes launch table entries after checking their offsets. -/
  | setLaunch (slot : Nat)
  /-- R423: Reads launch table entries into the output area. -/
  | setLaunchRead (slot : Nat)
  /-- R489: Admits the power grant and loads slot tables and resident regions. -/
  | arm (slot : Nat)
  /-- R67: Ramps the cores and enables launches from the first trigger 100 µs later. -/
  | start (slot : Nat)
  /-- R72: Stops the partition to ARMED or LOADED at the point its state allows. -/
  | stop (slot : Nat)
  /-- R333: Regenerates the intermediates of a past step from a checkpoint and journal. -/
  | replay (slot : Nat) (view : SealView)
  /-- R334: REPLAY restores the partition and completes with its digests or an error status. -/
  | replayComplete (p : Nat)
  /-- R70: Requests a checkpoint at the next frame boundary, or at once in ARMED. -/
  | checkpoint (slot : Nat)
  /-- R74: Stores a 480-core fallback image for a full-floor partition. -/
  | setFallbackImage (slot : Nat) (view : ImageView)
  /-- R70: Releases the partition's resources, zeroises its keys and clears its HBM share. -/
  | destroy (slot : Nat)
  /-- R382: Sets a field port's mode and a sub-port's addressing and flags. -/
  | portConfig (slot : Nat)
  /-- R425: Returns the registers of one field port. -/
  | portStatus (slot : Nat)
  /-- R362: Installs a sealed MACsec SAK for one AN of an association. -/
  | saInstall (slot : Nat) (sak : Bytes)
  /-- R362: Switches a transmit SC to an AN. -/
  | saActivate (slot : Nat)
  /-- R382: Erases a SAK or a whole association. -/
  | saClear (slot : Nat)
  /-- R382: Writes one destination record. -/
  | destSet (slot : Nat)
  /-- R360: Writes one sampled-values subscription. -/
  | svSubscribe (slot : Nat)
  /-- R382: Copies point table entries into the device-memory window. -/
  | pointRead (slot : Nat)
  /-- R367: Sets PART_EMIT to a given value. -/
  | emitBase (slot : Nat)
  /-- R86: Sets the time sources, ports, profile, domain and priority, and restarts the servo. -/
  | timeConfig (slot : Nat)
  /-- R87: Returns the time status record. -/
  | timeStatus (slot : Nat)
  /-- R85: Sets module time by a step. -/
  | timeSet (slot : Nat)
  /-- R477: Builds and returns a signed attestation quote in chunks. -/
  | quote (slot : Nat)
  /-- R477: Returns the device certificate in chunks. -/
  | quoteCertificate (slot : Nat)
  /-- R478: Serves a quote over MCTP on the sideband. -/
  | sidebandQuote (addr : Nat) (req : Bytes)
  /-- R466: Returns the signed session offer. -/
  | kemSessionOffer (slot : Nat)
  /-- R467: Decapsulates the establishment object and derives the session keys. -/
  | kemSessionEstablish (slot : Nat)
  /-- R466: Closes the open owner session. -/
  | kemSessionClose (slot : Nat)
  /-- R479: Returns a fresh debug unlock nonce. -/
  | debugUnlockNonce (slot : Nat)
  /-- R479: Unlocks debug under a signed object, destroying every partition first. -/
  | debugUnlock (slot : Nat) (sigOk : Bool)
  /-- R480: Ends debug unlock, destroying every partition. -/
  | debugRelock (slot : Nat)
  /-- R481: Returns a zeroise nonce. -/
  | zeroiseNonce (slot : Nat)
  /-- R481: Stops and destroys all partitions, clears HBM and secrets, and in mode 1 destroys the identity seed. -/
  | zeroise (slot : Nat) (sigOk : Bool)
  /-- R450: Programs the working copy of a user-writable block as a new OTP generation. -/
  | otpCommit (slot : Nat)
  /-- R394: Writes a user calibration record into the working copy. -/
  | calSet (slot : Nat)
  /-- R451: Returns the state of the OTP blocks, records, summary and overlays. -/
  | otpStatus (slot : Nat)
  /-- R450: Applies a signed volatile overlay to a spent block. -/
  | overlaySet (slot : Nat) (sigOk : Bool)
  /-- R447: Stops entry into the main Stook log. -/
  | logFreeze (slot : Nat)
  /-- R450: Reads records of the frozen log. -/
  | logRead (slot : Nat)
  /-- R448: Merges the side buffer into the main log and unfreezes it. -/
  | logThaw (slot : Nat)
  /-- R491: Sets the owner power cap and recomputes grant targets. -/
  | setCap (slot : Nat)
  /-- R500: Returns the power and thermal status. -/
  | powerStatus (slot : Nat)
  /-- R520: Pairs the two modules over Rachis and adopts the union of their maps. -/
  | pairModules (slot : Nat)
  /-- R521: Pairs a partition across the modules with complementary roles. -/
  | pairPartition (slot : Nat)
  /-- R521: Ends comparison for one partition. -/
  | unpairPartition (slot : Nat)
  /-- R521: Ends pairing of the two modules. -/
  | unpairModules (slot : Nat)
  /-- R532: Writes the local and partner canonical maps to an output area. -/
  | unionMapRead (slot : Nat)
  /-- R532: Adopts the union of the two maps now. -/
  | unionMapAdopt (slot : Nat)
  /-- R534: Places an ARMED partition in tolerance mode to take over from its partner. -/
  | handover (slot : Nat) (layouts : Bool) (differ : Bool)
  /-- R534: Cancels a handover, which completes with ABORTED. -/
  | handoverCancel (slot : Nat)
  /-- R536: Returns the pair and per-partition twin status. -/
  | twinStatus (slot : Nat)
  /-- R141: Ends a break hold, and every core of the partition resumes at one logical cycle. -/
  | dbgResume (slot : Nat)
  /-- R426: Once PERST# is high and the reference is good, the CXL link trains and the host link comes up, with configuration requests answered by Request Retry Status until stage 5 ends. -/
  | hostLinkUp
  /-- R400: The host returns the module from D3hot to D0, and BAR decoding is enabled again. -/
  | d3hotExit
  /-- R390: When more than 4 samples of a virtual Awn source's stream are missing, a LOCKED source enters FLYWHEEL. -/
  | virtualSourceGap (v : Nat)
  /-- R408: When MBX_IRQ.HOLDOFF has passed since the last message on a completion vector, a deferred completion message is raised. -/
  | mbxIrqHoldoffExpiry (vector : Nat)
  /-- R301: Compiled code on a partition's Culm core sends a message or takes one through its root-die channel port and receive rings. -/
  | culmCoreSend (p : Nat) (culm : Nat) (op : CulmOp)
  deriving DecidableEq, Repr

end Sys2Proof
end

