-- ==== Sys2Proof/Decode.lean ====
section
/-! DEFINITION. The decoder over the rows that give bits. No row of spec/opcode_table.json gives any (its fields are empty), so no
word spells a command. -/

namespace Sys2Proof

/-- The command that a word spells by the table's bits: none, as no row gives bits. -/
def decodeTableWord (_nbits _w : Nat) : Option Instr := none

end Sys2Proof
end

