-- ==== Sys2Proof/Machine/State.lean ====
section
/-! DEFINITION. The state of the module as plain data: every piece of state the spec names (INVENTORY.md, State), the outcomes' reasons,
and the state at reset. A field's default value is its value at reset. -/

namespace Sys2Proof.Machine

/-- Why the model stops with a fault. -/
inductive Fault where
  /-- Raised by no meaning: the module turns every fault of the spec into state. Safe. -/
  | noSuchAddress (a : Nat)
  deriving DecidableEq, Repr

/-- Why the model refuses a command. -/
inductive Refusal where
  /-- Raised by Dispatch for a command without a meaning. Safe: nothing is claimed of it. -/
  | notModelled (mnemonic : String)
  deriving DecidableEq, Repr


/-! ### The compute core (04 to 09) -/

/-- An entry of an engine queue (R107): the instruction, its poison, and the step cycle at which it entered (R133). -/
structure QEntry where
  word : IWord
  poison : Bool
  arrived : Nat
  deriving DecidableEq, Repr

/-- One engine of a core (R107, R112, R115). -/
structure Eng where
  /-- instructions waiting, head first -/
  queue : List QEntry := []
  /-- CORE_Qn.ISSUED (R140) -/
  issued : Nat := 0
  /-- issue cycle of the previous instruction of the step (R112) -/
  last : Option Nat := none
  /-- its occupancy (R113) -/
  occ : Nat := 0
  /-- its opcode (R160) -/
  prevOp : Nat := 0
  /-- last due cycle of the previous stream instruction (R260) -/
  lastDue : Option Nat := none
  /-- consumer counts CCNT (R115) -/
  ccnt : Tbl Nat := []
  /-- the engine stopped at a fault it raised (R315) -/
  stopped : Bool := false
  deriving DecidableEq, Repr

/-- A scratchpad or accumulator write that an instruction in flight will make: its logical cycle, its first byte, the bytes, the
poison of the written data (one bit for each unit touched, in order) and what it adds to the counters. -/
structure PWrite where
  cycle : Nat
  addr : Nat
  data : Bytes
  poison : List Bool
  /-- counter increments, by counter number (Ops: cntNames) -/
  cnt : List (Nat × Nat)
  /-- the unit, as class and index, whose detection poisoned the data (R246) -/
  src : Option (Nat × Nat)
  deriving DecidableEq, Repr

/-- A range scoreboard entry (R247). kind: 0 READ, 1 WRITE. A release cycle not yet known is none. -/
structure SbEntry where
  first : Nat
  last : Nat
  kind : Nat
  eng : Nat
  tag : Nat
  issueNo : Nat
  created : Nat
  release : Option Nat
  deriving DecidableEq, Repr

/-- The content of a scratchpad before the writes of a cc (R239). -/
structure SpOld where
  cc : Nat
  mem : List Host.Cell
  poison : List Nat
  bad : List Nat
  deriving DecidableEq, Repr

/-- The scratchpad of a core (R236, R241, R242, R247, R270). -/
structure CoreSp where
  mem : List Host.Cell := []
  /-- poisoned units, rising -/
  poison : List Nat := []
  /-- words (byte address ÷ 8) whose detection code disagrees (R242), log entry 9 -/
  bad : List Nat := []
  /-- the unit, as class and index, whose detection poisoned each poisoned unit (R246) -/
  src : Tbl (Nat × Nat) := []
  /-- what stood here before the writes of the last cc with one (R239) -/
  was : Option SpOld := none
  /-- resident table: first and last unit -/
  resident : List (Nat × Nat) := []
  sb : List SbEntry := []
  hwm : Nat := 0
  fEng : Nat := 0
  fOwner : Nat := 0
  fKind : Nat := 0
  fTag : Nat := 0
  errCnt : Nat := 0
  errBank : Nat := 0
  errUnit : Nat := 0
  lateCnt : Nat := 0
  lateCc : Nat := 0
  poisonIn : Nat := 0
  deriving DecidableEq, Repr

/-- An instruction in flight (R118, R135): issued, its effects not all done. -/
structure Flight where
  eng : Nat
  op : Nat
  /-- the issue count it took (R318) -/
  issueNo : Nat
  /-- issue cycle -/
  issue : Nat
  word : IWord
  /-- signal point, once it is known (R118) -/
  sig : Option Nat
  /-- cycle of its last effect, once it is known (R135) -/
  last : Option Nat
  signalled : Bool
  /-- rows, groups or units done -/
  done : Nat
  /-- rows, groups or units in all -/
  total : Nat
  /-- writes still to make, in order -/
  writes : List PWrite
  /-- record, descriptor or parameter bytes read at issue or later -/
  recd : Bytes
  /-- operand bytes taken at issue -/
  a : Bytes
  b : Bytes
  /-- poisoned units among them, counted from the first -/
  pa : List Nat
  pb : List Nat
  /-- numbers particular to the opcode -/
  nums : List Nat
  /-- the unit whose detection poisoned its operands (R246) -/
  src : Option (Nat × Nat) := none
  /-- reads of it that will fail their detection code: step cycle and word (R243) -/
  errs : List (Nat × Nat) := []
  /-- a vector instruction: the scratchpad at its issue, and the network's writes there since -/
  sp0 : Option CoreSp := none
  ext : List PWrite := []
  deriving DecidableEq, Repr

/-- A stream instruction in flight (R261 to R265): its descriptor, the units moved at their due cycles, and what stands in its
stream or write buffer. -/
structure Strm where
  eng : Nat
  issueNo : Nat
  word : IWord
  recd : Bytes
  issue : Nat
  /-- units moved at their due cycles, counted in order -/
  moved : Nat
  /-- LOAD: units whose data stands in the buffer, with its poison -/
  got : List (Nat × Bytes × Bool)
  /-- STORE: converted units read, not yet written to HBM; units written; units acknowledged -/
  wbuf : List (Nat × Bytes)
  written : List Nat
  acked : List Nat
  /-- units checked, counted in order, and the check before the signal point made -/
  checked : Nat
  sigChecked : Bool
  /-- holds announced and open: the first unit and the units that each waits for -/
  late : List (Nat × List Nat)
  /-- units of a LOAD whose requests have been sent, counted in order (R263) -/
  sent : Nat
  deriving DecidableEq, Repr

/-- A sequencer result on its way to its register (R126). -/
structure SPend where
  reg : Nat
  value : Nat
  poison : Bool
  due : Nat
  deriving DecidableEq, Repr

/-- A fetch outstanding (R132). src: 0 HBM, 1 scratchpad. -/
structure Fetch where
  queue : Nat
  src : Nat
  /-- first byte in its source -/
  addr : Nat
  count : Nat
  /-- cycle at which it is due to start -/
  due : Nat
  /-- cycle at which it started -/
  start : Option Nat
  delivered : Nat
  /-- all the HBM data has arrived -/
  data : Bool
  /-- its check (R134) was made; the hold it announced is open -/
  checked : Bool
  late : Bool
  /-- issue count of the FETCH, 0 for an implicit fetch -/
  issueNo : Nat
  /-- words and poison of the block -/
  words : List (IWord × Bool)
  deriving DecidableEq, Repr

/-- The sequencer and the step on one core (R123, R124, R132, R135). -/
structure CoreSeq where
  /-- position in the code region -/
  pos : Nat := 0
  /-- scratchpad byte and length in instructions of the code region, from the image -/
  base : Nat := 0
  len : Nat := 0
  /-- S1 to S31: value and poison -/
  regs : Tbl (Nat × Bool) := []
  /-- the unit, as class and index, whose detection poisoned each poisoned register, and the first poisoned instruction of each queue (R246) -/
  rsrc : Tbl (Nat × Nat) := []
  qsrc : Tbl (Nat × Nat) := []
  pend : List SPend := []
  fetches : List Fetch := []
  /-- issue cycle of STEP_END and the position it names; its TAG (R137) -/
  ended : Option (Nat × Nat) := none
  endTag : Nat := 0
  /-- STEP_END completed, at this cycle -/
  complete : Option Nat := none
  /-- fetches that delivered their last instruction in the cycle named: they keep their delivery slots to its end (R132) -/
  freedAt : Nat := 0
  freed : Nat := 0
  deriving DecidableEq, Repr

/-- Fault and break registers of a core (R140). -/
structure CoreFlt where
  cause : Nat := 0
  eng : Nat := 0
  tag : Nat := 0
  step : Nat := 0
  cyc : Nat := 0
  brkEn : Bool := false
  brkEng : Nat := 0
  brkMode : Bool := false
  brkHit : Bool := false
  /-- operating time in 0.4 ns at which HIT was last set (R11) -/
  hitAt : Option Nat := none
  brkTag : Nat := 0
  brkMask : Nat := 0
  brkCount : Nat := 0
  /-- CORE_WSTALL.CNT -/
  wstall : Nat := 0
  /-- code of the last ASSERT (R126) -/
  code : Nat := 0
  deriving DecidableEq, Repr

/-- One accumulator cell (R147 to R151, R172): the 96-bit V or the binary32 code, the special bits SN, SP, SM, poison and the unit whose detection
poisoned it (R246), the residue modulo 3 or the parity bit of R173. -/
structure Acc where
  v : Nat := 0
  sn : Bool := false
  spos : Bool := false
  sm : Bool := false
  poison : Bool := false
  src : Option (Nat × Nat) := none
  res : Nat := 0
  deriving DecidableEq, Repr

/-- The matrix array (R147, R173, R175). kind: 0 EMPTY, 1 EXACT, 2 BINARY32. -/
structure CoreMx where
  kind : Nat := 0
  /-- cell 128 i + j; an absent cell is the value 0 -/
  acc : Tbl Acc := []
  deriving DecidableEq, Repr

/-- A record of a receive ring (R286): the count at its grant, its bytes, the sender, the flits written, the commit cycle, the signal
point of its TAKE. kind: 1 message, 2 pad. -/
structure RingRec where
  at_ : Nat
  size : Nat
  kind : Nat
  src : Nat
  len : Nat
  committed : Option Nat := none
  taken : Option Nat := none
  deriving DecidableEq, Repr

/-- A receive ring (R284, R287, R303). -/
structure Ring where
  base : Nat := 0
  log2 : Nat := 0
  isOpen : Bool := false
  aflagEn : Bool := false
  aflag : Nat := 0
  head : Nat := 0
  tail : Nat := 0
  epoch : Nat := 0
  recs : List RingRec := []
  rx : Nat := 0
  stale : Nat := 0
  deriving DecidableEq, Repr

/-- A reservation at a ring controller (R289): delivered at a cycle, waiting once it has been handled without a grant. -/
structure Resv where
  ring : Nat
  src : Nat
  num : Nat
  chan : Nat
  size : Nat
  len : Nat
  seq : Nat
  epoch : Nat
  due : Option Nat
  at_ : Nat
  waiting : Bool
  deriving DecidableEq, Repr

/-- A send channel (R288, R303). -/
structure Chan where
  epoch : Nat := 0
  seq : Nat := 0
  sent : Nat := 0
  dropClosed : Nat := 0
  dropStale : Nat := 0
  wait : Nat := 0
  deriving DecidableEq, Repr

/-- A transfer at its receiver (R281, R291): kind 2 message, 5 remote read, 6 remote write; the peer and the issue count there; flits to
arrive and to write; the due cycle; its check made, its hold open; a message whose epoch went stale. -/
structure Xfer where
  kind : Nat
  peer : Nat
  num : Nat
  left : Nat
  toWrite : Nat
  due : Option Nat
  checked : Bool
  late : Bool
  stale : Bool
  ring : Nat
  at_ : Nat
  deriving DecidableEq, Repr

/-- An outgoing SEND or RWRITE (R289, R298): kind 0 or 1. state: 0 grant awaited, 1 ready to inject, 2 injecting or injected. -/
structure Xout where
  kind : Nat
  num : Nat
  chan : Nat
  dst : Nat
  /-- issue cycle -/
  issue : Nat
  state : Nat
  /-- first cycle at which its data may be injected -/
  ready : Nat
  /-- flits, what each takes from scratchpad at its injection, and what it carries as numbers -/
  flits : List (Bytes × Option (Nat × Nat × Nat) × List Nat)
  /-- cycle after its last flit -/
  fin : Nat
  deriving DecidableEq, Repr

/-- A flit on the data network (R271 to R279). kind: 0 reservation, 1 reply, 2 message data, 3 acknowledgement, 4 remote read request,
5 remote read data, 6 remote write data. src and dst are endpoints: a logical core, or 1,008 + c for Culm core c. num: the issue count
of the SEND, RREAD or RWRITE it belongs to. -/
structure Flit where
  kind : Nat
  src : Nat
  dst : Nat
  num : Nat
  nums : List Nat
  data : Bytes
  poison : Bool
  /-- logical cycle of injection, and links to cross -/
  at_ : Nat
  hops : Nat
  /-- the router that it stands at: node, input as coded in R276, lane, and the cycle from which it is present: a step cycle on the lanes of slotted
  mode, else the module's -/
  loc : Option (Nat × Nat × Nat × Nat)
  /-- failed transmissions in a row on one link, and whether it was retransmitted -/
  fails : Nat
  retried : Bool
  /-- delivered to its interface, at this logical cycle -/
  arrived : Option Nat
  /-- what it still takes from the scratchpad of its source at its injection: place in data, byte address, bytes (R289, R298) -/
  pull : Option (Nat × Nat × Nat) := none
  /-- the unit whose detection poisoned it (R246) -/
  psrc : Option (Nat × Nat) := none
  /-- the link, as 4 x die + port, of its last failed transmission (R280) -/
  failAt : Nat := 0
  /-- it was in the network or at its interface while a hold was in effect (R279) -/
  under : Bool := false
  deriving DecidableEq, Repr

/-- The channel engine and network interface of an endpoint (09). -/
structure CoreCh where
  rings : Tbl Ring := []
  chans : Tbl Chan := []
  resvs : List Resv := []
  xfers : List Xfer := []
  outs : List Xout := []
  /-- cycle from which the channel port is free -/
  portFree : Nat := 0
  unread : Nat := 0
  fRing : Nat := 0
  fPeer : Nat := 0
  /-- reservations handled in the cycle named -/
  handledAt : Nat := 0
  handled : Nat := 0
  /-- a discard was counted in this frame (R303) -/
  drops : Bool := false
  /-- instructions issued, for a Culm core's endpoint -/
  count : Nat := 0
  deriving DecidableEq, Repr

/-- Changes of a flag in one cycle (R117, R119, R120): the cycle, the count before it, the signals among them, and the instruction of the lowest engine
that made one. -/
structure FlagCycle where
  cycle : Nat
  old : Nat
  sigs : Nat
  eng : Nat
  tag : Nat
  issueNo : Nat
  deriving DecidableEq, Repr

/-- The work item of a balanceable region that a core runs (R329, R330): region, item, and the issue counts of the engines when it began. -/
structure WorkItem where
  region : Nat
  item : Nat
  base : List Nat
  deriving DecidableEq, Repr

/-- One physical core. Counters of 05, 06 and 07 are in one table, by the number given in Ops (cntMx and so on). -/
structure Core where
  eng : Tbl Eng := []
  /-- producer counts FCNT (R115) -/
  fcnt : Tbl Nat := []
  /-- the changes of each flag in its last cycle with one (R117, R119, R120) -/
  fold : Tbl FlagCycle := []
  /-- the work item that it runs (R330) -/
  item : Option WorkItem := none
  seq : CoreSeq := {}
  flights : List Flight := []
  strms : List Strm := []
  flt : CoreFlt := {}
  mx : CoreMx := {}
  sp : CoreSp := {}
  ch : CoreCh := {}
  /-- MX_, CVT_ and VX_ counters (R175, R199, R235), by register offset -/
  cnt : Tbl Nat := []
  /-- the Thresh key table: k0 to k3 of each stream identifier (R229) -/
  keys : List (Nat × Nat × Nat × Nat) := []
  deriving DecidableEq, Repr

/-! ### Partitions (02, 03, 10, 17, 18) -/

/-- The partition states (R65). -/
inductive PState where
  | empty | loaded | armed | running | held | restarting | faulted | shadow
  deriving DecidableEq, Repr

/-- A hold announced or in effect (R309). ann: the announcing core, engine and issue count; start: the logical cycle at which it takes
effect; fin: the physical cycle at which its end takes effect, once announced; began: the physical cycle at which it took effect. -/
structure Hold where
  kind : Nat
  ann : Option (Nat × Nat × Nat)
  start : Nat
  fin : Option Nat
  began : Option Nat
  timedOut : Bool := false
  deriving DecidableEq, Repr

/-- The identity of a fault (R318, R330): within a work item, region and item stand in place of the logical core. -/
structure FaultId where
  cause : Nat
  step : Nat
  core : Nat
  eng : Nat
  place : Nat
  item : Option (Nat × Nat) := none
  deriving DecidableEq, Repr

/-- The snapshot of R122. -/
structure Snapshot where
  core : Nat
  /-- for each engine: the first 8 entries, the consumer counts, the issue count -/
  engines : List (List IWord × Tbl Nat × Nat)
  fcnt : Tbl Nat
  regs : Tbl (Nat × Bool)
  pos : Nat
  step : Nat
  cyc : Nat
  deriving DecidableEq, Repr

/-- A partition's fault area in HBM (R122, R333, R337): the last snapshot of each core, and what a REPLAY copies: its captures (core, engine, issue
count, bytes) and the mutable section. -/
structure FaultArea where
  snaps : Tbl Snapshot := []
  captures : List (Nat × Nat × Nat × Bytes) := []
  mutOut : Bytes := []
  deriving DecidableEq, Repr

/-- The frame that runs (R91, R104, R317). Instants are module times in units of 1/65,536 ns. -/
structure Frame where
  entry : Nat
  ept : Nat
  learn : Bool
  cut : Nat
  launch : Nat
  guardT : Nat
  emitT : Nat
  deadline : Nat
  /-- index of the step that runs, number of steps, cycle counts (R55) -/
  idx : Nat
  steps : Nat
  cycles : List Nat
  /-- STEP_COUNT of the inference step -/
  step0 : Nat
  /-- input buffer it reads -/
  buf : Nat
  infDone : Bool
  overrun : Bool
  slackSpent : Bool
  /-- re-executed from the journal, without emission (R69, R333) -/
  rerun : Bool
  heldInf : Nat
  heldUpd : Nat
  holds : Nat
  kinds : Nat
  deriving DecidableEq, Repr

/-- An emission to come (R101, R102): of a launched frame, or of a launch skipped, throttled or suppressed, whose values are the
fallback values. took: what the guard took at G, true the output tensor, false fallback values. -/
structure Emit where
  entry : Nat
  guardT : Nat
  emitT : Nat
  launched : Bool
  took : Option Bool := none
  /-- the output part of the tensor slots as taken -/
  vals : Bytes := []
  window : Bool := false
  /-- emitted at E; late values are still to come (R380) -/
  emitted : Bool := false
  step : Nat
  seq : Nat := 0
  /-- last emitted value of each point before E, for the late values -/
  lasts : List (Nat × Option Nat) := []
  deriving DecidableEq, Repr

/-- A trigger waiting for its launch decision (R91, R99): its instant T, C and L, the input buffer that its cut filled, the tensor in it. -/
structure Trigger where
  entry : Nat
  at_ : Nat
  cut : Nat
  launch : Nat
  buf : Option Nat
  suppressed : Bool
  data : Bytes := []
  /-- a follower waits for the lead's cut: 0 own cut, 1 the lead's cut taken, 2 the lead skipped, 3 the lead throttled (R523) -/
  lead : Nat := 0
  deriving DecidableEq, Repr

/-- An entry of the input journal (R100, R475): cause 0 launched, 1 skipped, 2 throttled, 3 journal full, 4 suppressed. -/
structure JEntry where
  entry : Nat
  ept : Nat
  learn : Bool
  cut : Nat
  launch : Nat
  cause : Nat
  /-- STEP_COUNT at the launch -/
  step : Nat
  tensor : Bytes
  /-- bytes that the entry takes -/
  size : Nat
  /-- the digest chain value J_n after it -/
  chain : Bytes
  deriving DecidableEq, Repr

/-- A checkpoint slot (R508, R509). -/
structure Ckpt where
  valid : Bool := false
  step : Nat := 0
  seed : Bytes := []
  bir : Bytes := []
  journalN : Nat := 0
  chain : Bytes := []
  mut_ : List Host.Cell := []
  mutPoison : List Nat := []
  time : Nat := 0
  deriving DecidableEq, Repr

/-- Resources and placement of a partition slot (R43, R47, R48). -/
structure PRes where
  /-- CREATE has assigned resources -/
  created : Bool := false
  floor : Nat := 0
  slices : Nat := 0
  ports : Nat := 0
  /-- Culm cores held -/
  culm : Nat := 0
  lteFirst : Nat := 0
  lteCount : Nat := 0
  /-- physical core of each logical core -/
  place : List Nat := []
  /-- die rows assigned to a queued partition (R48) -/
  rows : List Nat := []
  /-- the two XTS keys in its slot of every controller (R349, R350), none before CREATE -/
  keys : Bytes := []
  deriving DecidableEq, Repr

/-- Control of a partition (R57, R58, R64, R71 to R73, R331, R412). A pending value is applied at the next launch (R12). -/
structure PCtl where
  stepCount : Nat := 0
  seed : Bytes := []
  learn : Bool := true
  learnP : Option Bool := none
  dlb : Bool := true
  dlbP : Option Bool := none
  stall : Bool := false
  stallP : Option Bool := none
  /-- mailbox slots of the pending STOPs and CHECKPOINTs, in order (R71 to R73), and of the DBG_RESUMEs that wait for the cores to resume (R141) -/
  resume : List Nat := []
  stop : List Nat := []
  ckpt : List Nat := []
  /-- entry point and LEARN_ENABLE of the last launched frame, for T_min (R106) -/
  lastEpt : Option Nat := none
  lastLearn : Bool := true
  /-- entries written by SET_LAUNCH that wait for the next launch (R97): index and 64 bytes -/
  lteP : List (Nat × Bytes) := []
  /-- first instant from which triggers launch (R67) -/
  startAt : Nat := 0
  lastLaunch : Option Nat := none
  deriving DecidableEq, Repr

/-- The step and the frame that run (R112, R309, R136). -/
structure PRun where
  stepRun : Bool := false
  stepCyc : Nat := 0
  logical : Nat := 0
  held : Bool := false
  /-- physical cycle at which the last held interval ended -/
  heldEnd : Nat := 0
  holds : List Hold := []
  /-- flits of the partition in the data network, in order of injection -/
  net : List Flit := []
  frame : Option Frame := none
  /-- DIGEST frames to send to the field: SEQ, STEP, E and digest (R524) -/
  digests : List (Nat × Nat × Nat × Bytes) := []
  emits : List Emit := []
  triggers : List Trigger := []
  /-- input buffers (R100): the input part of the tensor slots, mask slots included -/
  buf0 : Bytes := []
  buf1 : Bytes := []
  /-- next unclaimed item of each balanceable region, and of each core's static assignment there (R329) -/
  claims : Tbl Nat := []
  deriving DecidableEq, Repr

/-- Counters and fault registers of a partition (R331, R412). -/
structure PCnt where
  frames : Nat := 0
  skip : Nat := 0
  coll : Nat := 0
  throttle : Nat := 0
  overrun : Nat := 0
  holdCnt : Nat := 0
  holdAnn : Nat := 0
  holdCc : Nat := 0
  holdKinds : Nat := 0
  fCause : Nat := 0
  fClass : Nat := 0
  fEng : Nat := 0
  fCore : Nat := 0
  fStep : Nat := 0
  fPlace : Nat := 0
  emit : Nat := 0
  bir : Bytes := []
  deriving DecidableEq, Repr

/-- Images and HBM content of a partition (R53, R74, R337, R344). -/
structure PImg where
  image : Option Image := none
  fallback : Option Image := none
  onFallback : Bool := false
  /-- load sequence in progress: bytes or segments taken (R423) -/
  loading : Nat := 0
  /-- the same for a fallback image -/
  loadingF : Nat := 0
  /-- HBM plaintext by partition byte offset; poisoned 64-byte units; units with a stored error (log entry 9) -/
  hbm : List Host.Cell := []
  hbmPoison : List Nat := []
  /-- units with one symbol in error, and with an uncorrectable pattern -/
  hbmCe : List Nat := []
  hbmUe : List Nat := []
  /-- parity granules of its protected stripes, by stripe (R340) -/
  parity : Tbl Bytes := []
  fault : FaultArea := {}
  /-- units of the core-streams section in HBM that carry poison (R131) -/
  streamsPoison : List Nat := []
  deriving DecidableEq, Repr

/-- Power of a partition (R486 to R499). -/
structure PPwr where
  grant : Nat := 0
  target : Nat := 0
  tmin : Nat := 0
  full : Nat := 0
  peak : Nat := 0
  idle : Nat := 0
  watts : Nat := 0
  pulses : Nat := 0
  /-- next group of core domains of a ramp, none when no ramp runs -/
  ramp : Option Nat := none
  guardOn : Bool := false
  /-- operating time in 0.4 ns of its last pulse, in ms of its last warning -/
  guardLast : Option Nat := none
  guardTold : Option Nat := none
  /-- draw samples since the last launch: their sum in W, and their number -/
  drawSum : Nat := 0
  drawN : Nat := 0
  deriving DecidableEq, Repr

/-- A REPLAY in progress (R332, R333): its slot, its target, whether the mutable section is captured, the output area, the captures asked
for with the bytes they gave, the checkpoint of its first stage with the resident state, and how far it is: the target step has ended. -/
structure Replay where
  slot : Nat
  target : Nat
  mutSec : Bool
  out : Nat
  size : Nat
  caps : List (Nat × Nat × Nat)
  saved : Ckpt
  cores : List (Nat × CoreSp)
  /-- the starting checkpoint and the frames to re-execute, for the rerun of a fault (R334) -/
  start : Ckpt
  frames : List JEntry
  ended : Bool := false
  aborted : Bool := false
  deriving DecidableEq, Repr

/-- Checkpoints, journal and restart of a partition (R507 to R514, R320). -/
structure PCkpt where
  periodMs : Nat := 10000
  periodP : Option Nat := none
  slotA : Ckpt := {}
  slotB : Ckpt := {}
  /-- newest committed slot: false A, true B -/
  newest : Bool := false
  /-- copy in progress into the other slot (R508): stripes of the mutable section copied, parity pass done -/
  copying : Option (List Nat × Bool) := none
  /-- the checkpoint being copied -/
  copy : Ckpt := {}
  lastCkpt : Nat := 0
  journal : List JEntry := []
  journalN : Nat := 0
  chain : Bytes := []
  /-- stripe buffers of the journal and of its reserve in the edge die, and the stripes of each written (R340, R510) -/
  jbuf : Bytes := []
  jcount : Nat := 0
  rbuf : Bytes := []
  rcount : Nat := 0
  restarts : Nat := 0
  restartUs : Nat := 0
  verifyPasses : Nat := 0
  /-- background verification (R514): the next leaf, the operating time in ms at which its pass began, a leaf that does not match the tree -/
  leaf : Nat := 0
  leafAt : Option Nat := none
  leafBad : Option Nat := none
  /-- stage of a restart: 0 none, 1 stopped, 2 restoring, 3 catching up -/
  stage : Nat := 0
  began : Nat := 0
  /-- journal entries still to re-execute -/
  catchUp : List JEntry := []
  /-- fault being classified, and the fault that arose in its rerun -/
  f1 : Option FaultId := none
  /-- unit that the fault would be charged to: class and index -/
  f1Cls : Nat := 0
  f1Idx : Nat := 0
  lastOverdue : Nat := 0
  /-- the fault whose step is to be rerun, and the unit it would be charged to (R320) -/
  cls : Option (FaultId × Nat × Nat) := none
  /-- a REPLAY in progress -/
  replay : Option Replay := none
  /-- mailbox slots of the CHECKPOINTs that the copy in progress completes -/
  slots : List Nat := []
  deriving DecidableEq, Repr

/-- An output digest that waits for the partner's (R524, R525): SEQ, STEP, C, deadline, digest. -/
structure TDig where
  seq : Nat
  step : Nat
  cut : Nat
  deadline : Nat
  dig : Bytes
  deriving DecidableEq, Repr

/-- Twin operation of a partition (R518 to R538). role: 0 none, 1 lead, 2 follower. -/
structure PTwin where
  role : Nat := 0
  tolMode : Bool := false
  isolated : Bool := false
  isMatch : Nat := 0
  diverge : Nat := 0
  missing : Nat := 0
  outTol : Nat := 0
  solo : Nat := 0
  cutDiff : Nat := 0
  /-- consecutive matching frames, consecutive frames in tolerance, frames wanted -/
  runMatch : Nat := 0
  runTol : Nat := 0
  wantTol : Nat := 0
  /-- local output digests waiting for the partner's, and the partner's waiting for ours: STEP_COUNT and digest -/
  local_ : List TDig := []
  partner : List (Nat × Bytes × Bool) := []
  /-- the partner's last STATE block -/
  pState : Bytes := []
  /-- yields under steps 4 and 5 of R525: STEP_COUNT and operating time in ms -/
  yields : List (Nat × Nat) := []
  /-- the first launch after START is still to come; TWIN_RESYNC is due at the next launch -/
  fresh : Bool := false
  resync : Bool := false
  /-- the restore takes the lead's checkpoint; the CKPT object received -/
  fromLead : Bool := false
  rxCkpt : Bytes := []
  /-- objects in arrival, by block kind (R519) -/
  rx : Tbl Bytes := []
  /-- HANDOVER in progress: its mailbox slot, frames compared; rejoin or takeover at the next launch -/
  hslot : Option Nat := none
  tried : Nat := 0
  rejoin : Bool := false
  /-- PART_EMIT to take from the lead at the next emission instant (R527) -/
  emitP : Option Nat := none
  /-- TOL_ABS and TOL_REL, binary32 -/
  tolA : Nat := 0
  tolR : Nat := 0
  /-- the role before both modules raised TWIN_DIVERGE; the frame at issue, with the digests of this module and of the partner, as first
  formed and as recomputed -/
  was : Nat := 0
  div : Option (Nat × Bytes × Bytes) := none
  redMine : Option Bytes := none
  redHis : Option Bytes := none
  /-- module time of the last fault record or charge to a unit held -/
  lastFlt : Option Nat := none
  /-- emitted values by SEQ, own and the partner's, with FALLBACK, in tolerance mode (R534) -/
  vals : List (Nat × Bytes × Bool) := []
  hisVals : List (Nat × Bytes × Bool) := []
  deriving DecidableEq, Repr

/-- One partition slot. -/
structure Part where
  st : PState := .empty
  res : PRes := {}
  ctl : PCtl := {}
  run : PRun := {}
  cnt : PCnt := {}
  img : PImg := {}
  pwr : PPwr := {}
  ck : PCkpt := {}
  twin : PTwin := {}
  /-- channel store of its Culm cores (R301), by Culm core -/
  culm : Tbl CoreCh := []
  culmMem : Tbl (List Host.Cell) := []
  deriving DecidableEq, Repr

/-! ### Event recorder and output -/

/-- A Stook record (R439). -/
structure Rec where
  /-- operating time in ms -/
  time : Nat
  pcycle : Nat
  sev : Nat
  /-- SUMMARY and MERGED bits -/
  summary : Bool
  merged : Bool
  cls : Nat
  idx : Nat
  code : Nat
  /-- number of records offered before it -/
  seq : Nat
  data : Bytes
  /-- acceptance number (R442) -/
  acc : Nat
  deriving DecidableEq, Repr

/-- The Stook event recorder (R439 to R448). Counters by severity. -/
structure Stook where
  log : List Rec := []
  side : List Rec := []
  ingress : List Rec := []
  next : Nat := 0
  /-- operating time, in units of 0.4 ns, at which the log was frozen (R447) -/
  frozen : Option Nat := none
  offered : Nat := 0
  dropped : Tbl Nat := []
  missed : Tbl Nat := []
  /-- records accepted, of severity 6 and 7, whose summary entry is to be written (R445) -/
  toSum : List Rec := []
  deriving DecidableEq, Repr

/-- What left the module (log entry 6): channel and bytes. -/
structure Out where
  chan : Nat
  arg : Nat
  data : Bytes
  deriving DecidableEq, Repr

/-! ### HBM pseudo-channels and unit retirement -/

/-- A REMOTE request that waits at a pseudo-channel (R351): priority, partition, 64-byte unit of the partition. Partition 8 is the controller itself: a burst
of a row in repair, its row in front (R346), or the scrub's position (R344). -/
structure Remote where
  prio : Nat
  part : Nat
  unit : Nat
  deriving DecidableEq, Repr

/-- A pseudo-channel (R343 to R346, R352). A row is keyed by its row number plus 2^18 times its bank. -/
structure Pc where
  /-- 0 slice member, 1 spare unused, 2 spare serving a slice, 3 retired -/
  role : Nat
  /-- slice served, 31 for none -/
  slice : Nat
  selfref : Bool := false
  ce : Nat := 0
  ue : Nat := 0
  lastRow : Nat := 0
  lastUe : Bool := false
  soft : Nat := 0
  hard : Nat := 0
  late : Nat := 0
  passes : Nat := 0
  /-- corrected bursts by row and operating time in ms -/
  rowErrs : List (Nat × Nat) := []
  marked : List Nat := []
  /-- rows softly repaired, not yet hard -/
  softRows : List Nat := []
  /-- banks whose spare row is used -/
  usedBanks : List Nat := []
  /-- operating time of the last request, in units of 0.4 ns -/
  lastReq : Nat := 0
  /-- REMOTE requests that wait, oldest first, and the REMOTE slots used (R351) -/
  queue : List Remote := []
  turn : Nat := 0
  /-- next burst of the patrol scrub, and the operating time in ms at which its pass began (R344) -/
  scrubPos : Nat := 0
  scrubAt : Option Nat := none
  deriving DecidableEq, Repr

/-- A flit of the memory network (R275): its partition, its kind, the core, engine, issue count and unit that it belongs to (for a REMOTE request its priority
stands for the engine), the 64-byte HBM unit, its deadline (R267), the links left to cross as 4 x node + port, the cycle from which it waits. -/
structure MFlit where
  part : Nat
  kind : Nat
  who : Nat × Nat × Nat × Nat
  unit : Nat
  deadline : Nat
  path : List Nat
  since : Nat
  deriving DecidableEq, Repr

/-- The HBM controllers (R341, R352) and the memory network (R275). -/
structure Hbm where
  pcs : Tbl Pc := []
  /-- flits of the memory network, and the slice number at which each link's rotation stands -/
  net : List MFlit := []
  turns : Tbl Nat := []
  /-- every window is used, and the present window is used, by stack -/
  refAll : Tbl Bool := []
  winUsed : Tbl Bool := []
  /-- hottest die of each stack, in units of 0.125 degrees C (R392); reset 0, log entry 4 -/
  temp : Tbl Int := []
  deriving DecidableEq, Repr

/-- A disabled-unit record (R437). -/
structure DisRec where
  kind : Nat
  cls : Nat
  idx : Nat
  detail : Nat
  time : Nat
  deriving DecidableEq, Repr

/-- Charges and retirement (R437, R438, R501, R502). -/
structure Units where
  /-- charges: class, index, operating time in ms -/
  charges : List (Nat × Nat × Nat) := []
  /-- records programmed in OTP, oldest first, and records spent -/
  recs : List DisRec := []
  /-- retirements pending without a record -/
  extra : List DisRec := []
  /-- units of an applied block-7 overlay -/
  overlay : List (Nat × Nat) := []
  deriving DecidableEq, Repr

/-- The router of a compute die (R304, R311). -/
structure Die where
  /-- NET_RETRY.DATA and NET_RETRY.MEM, by port -/
  retryData : Tbl Nat := []
  retryMem : Tbl Nat := []
  transit : Nat := 0
  collSlot : Nat := 0
  collSrc : Nat := 0
  collLane : Nat := 0
  collCnt : Nat := 0
  /-- slot table in use: 256 entries (R276) -/
  slots : List Nat := []
  /-- hold-word disagreements, and their times on each link in units of 0.4 ns (R311) -/
  holdDis : Nat := 0
  disAt : List (Nat × Nat) := []
  /-- DIE_TEMP (R398), by sensor -/
  temp : Tbl Int := []
  /-- rotation of its output lanes: the last input served, by 8 x port + lane, and the last partition on lane 3, by 64 + port (R282) -/
  turn : Tbl Nat := []
  /-- links of the die on which LINK_FAIL was raised, and links whose spare wire is in use (R503): bit port for the data network, 4 + port for the
  memory network, 8 + port for the hold network -/
  failing : Nat := 0
  wires : Nat := 0
  deriving DecidableEq, Repr

/-! ### Time, launch table, field and measurement -/

/-- A foreign master of a PTP port (R78): its identity, what it announces, the operating time in 0.4 ns at which it was last heard. -/
structure Master where
  ident : Nat
  ds : Dataset
  last : Nat
  deriving DecidableEq, Repr

/-- PTP on a field port (R78, R80). -/
structure Ptp where
  locked : Bool := false
  /-- consecutive Syncs within 250 ns -/
  run : Nat := 0
  lastSync : Nat := 0
  interval : Nat := 0
  /-- sequence of a two-step Sync that waits for its Follow_Up -/
  pending : Option Nat := none
  masters : List Master := []
  best : Option Nat := none
  delay : Int := 0
  /-- a Delay_Req or Pdelay_Req is outstanding -/
  asked : Bool := false
  offset : Int := 0
  /-- the estimate that began the run of Syncs; an offset is being slewed away -/
  ref : Int := 0
  slew : Bool := false
  /-- origin and receipt of the last Sync; receipt and correction of the two-step Sync that waits -/
  t1 : Nat := 0
  t2 : Nat := 0
  pendT : Nat := 0
  pendC : Int := 0
  /-- a delay request: its number and departure; of a peer response that waits: receipt there, receipt here -/
  reqSeq : Nat := 0
  reqT : Nat := 0
  peer : Option (Nat × Nat) := none
  deriving DecidableEq, Repr

/-- Module time (R75 to R87). Instants are in units of 1/65,536 ns. state: 0 UNSET, 1 LOCKED_PTP, 2 LOCKED_PPS, 3 HOLDOVER. source: 0
none, 1 primary, 2 secondary, 3 1PPS. -/
structure Time where
  /-- the counter, in units of 2^-32 of 1/65,536 ns (R76) -/
  count : Nat := 0
  runs : Bool := false
  /-- steering of the increment per cc that tracks the frequency source (R77) -/
  track : Int := 0
  /-- offset still to be slewed away, module time less source time, in units of the counter (R77, R83) -/
  left : Int := 0
  /-- frequency source in use (R80): 0 none, 1 to 3 as source, 4 10 MHz in -/
  freq : Nat := 0
  state : Nat := 0
  source : Nat := 0
  known : Bool := false
  offset : Int := 0
  /-- cycles in HOLDOVER since it was entered, each counted 1 with 10 MHz in and 20 without (R82, R87) -/
  holdErr : Nat := 0
  ppsIn : Bool := false
  tenMhz : Bool := false
  ppsLocked : Bool := false
  ppsLast : Option Nat := none
  lastDisagree : Option Nat := none
  utc : Int := 0
  /-- TIME_CONFIG in force (R86, R543) -/
  cfg : Bytes := [0xFF, 0xFF, 0, 0, 0, 0, 3, 0, 0, 0]
  ports : Tbl Ptp := []
  lastMark : Nat := 0
  /-- the last whole second that the 1PPS output marked, none since a step of module time -/
  ppsSec : Option Nat := none
  deriving DecidableEq, Repr

/-- A launch table entry (R90): its RW fields as the 64 bytes written, and its RO fields. -/
structure Lte where
  raw : Bytes := []
  owned : Bool := false
  part : Nat := 0
  fired : Nat := 0
  fallbacks : Nat := 0
  /-- module time at which the entry took effect (R92, R93) -/
  since : Nat := 0
  /-- PHASE: number of the next instant (R93) -/
  cyc : Nat := 0
  /-- stamp of an event that waits for its cut (R95) -/
  evt : Option Nat := none
  /-- the last trigger instant -/
  lastT : Option Nat := none
  /-- PHASE: the number of the instant last cut -/
  trigN : Option Nat := none
  deriving DecidableEq, Repr

/-- An accepted value of an input point (R372): binary32 code, stamp, arrival, marked invalid. -/
structure Held where
  val : Nat
  stamp : Nat
  arrived : Nat
  bad : Bool
  deriving DecidableEq, Repr

/-- A point table entry (R369, R372, R374, R378): its RW fields as the 64 bytes written, its RO fields, held values, newest first, the
element written by the last valid cut, whether a last emitted value exists, and a pending change. -/
structure Point where
  raw : Bytes := []
  owned : Bool := false
  part : Nat := 0
  lastVal : Nat := 0
  lastStamp : Nat := 0
  discards : Nat := 0
  staleCnt : Nat := 0
  guardCnt : Nat := 0
  held : List Held := []
  valid : Option Nat := none
  hasL : Bool := false
  pend : Option Bytes := none
  /-- changes of an output point that govern the emissions from an instant on (R371) -/
  nexts : List (Nat × Bytes) := []
  deriving DecidableEq, Repr

/-- A field port (R353, R358, R366, R383). cfg: for each sub-port the PORT_CONFIG payload in force. -/
structure Port where
  mode : Nat := 0
  /-- lanes aligned, or sub-ports up -/
  lanes : Nat := 0
  down : Bool := false
  /-- operating time in 0.4 ns at which DOWN was last set (R11) -/
  downAt : Option Nat := none
  cfg : Tbl Bytes := []
  rx : Nat := 0
  /-- PORT_DROP: 0 CRC, 1 FORMAT, 2 UNBOUND, 3 ORDER, 4 MACSEC, 5 OTHER -/
  drop : Tbl Nat := []
  tx : Nat := 0
  txLate : Nat := 0
  txDrop : Nat := 0
  fecCorr : Nat := 0
  fecUncorr : Nat := 0
  maxDev : Nat := 0
  /-- last accepted SEQ and STAMP, by 2^32 times the sub-port plus the stream -/
  last : Tbl (Nat × Nat) := []
  /-- whole second of the last TIME frame -/
  timeSec : Option Nat := none
  /-- lanes retired (R505) -/
  retired : Nat := 0
  deriving DecidableEq, Repr

/-- A MACsec association (R361, R362): one secure channel on a port and sub-port. -/
structure Assoc where
  port : Nat
  sub : Nat
  transmit : Bool
  sci : Nat
  ssci : Nat
  salt : Bytes
  window : Nat
  /-- SAK by AN -/
  saks : Tbl Bytes := []
  an : Option Nat := none
  anPend : Option Nat := none
  /-- next PN to send by AN, the ANs whose warning was given, next PN expected by AN (R361, R362) -/
  pns : Tbl Nat := []
  warned : List Nat := []
  rxPn : Tbl Nat := []
  deriving DecidableEq, Repr

/-- A sampled-values subscription (R360): its payload, ASDUs counted. -/
structure SvSub where
  raw : Bytes
  count : Nat := 0
  deriving DecidableEq, Repr

/-- The field I/O edge die. -/
structure Field where
  ports : Tbl Port := []
  points : Tbl Point := []
  assocs : Tbl Assoc := []
  /-- destination records (R382), as written -/
  dests : Tbl Bytes := []
  subs : Tbl SvSub := []
  deriving DecidableEq, Repr

/-- An estimate of the phase tracker (R388): frequency in uHz, phase, stamp, over range, and the quantities by code. -/
structure Estimate where
  freq : Nat
  phase : Nat
  stamp : Nat
  past : Bool
  /-- binary32 codes by quantity code -/
  q : Tbl Nat
  deriving DecidableEq, Repr

/-- An Awn channel or virtual source (R387, R397). state: 0 UNLOCKED, 1 ACQUIRING, 2 LOCKED, 3 FLYWHEEL. -/
structure Awn where
  nom : Bool := false
  en : Bool := true
  state : Nat := 0
  ovr : Bool := false
  /-- operating time in 0.4 ns at which OVR was last set (R11) -/
  ovrSet : Option Nat := none
  ovrCnt : Nat := 0
  lockCnt : Nat := 0
  est : Option Estimate := none
  latched : Option Estimate := none
  /-- consecutive cycles that meet the LOCKED criterion; consecutive low cycles; operating time in 0.4 ns at which FLYWHEEL was entered -/
  good : Nat := 0
  low : Nat := 0
  flySince : Nat := 0
  flyTold : Bool := false
  /-- estimate at which lock was last held, from which the flywheel runs (R94) -/
  base : Option Estimate := none
  /-- module time of the last over-range sample -/
  ovrAt : Option Nat := none
  /-- operating time of the last over-range warning in ms -/
  warned : Option Nat := none
  deriving DecidableEq, Repr

/-- A lane (R393, R398, R504). -/
structure Lane where
  vmin : Nat := 0
  hmin : Nat := 0
  updates : Nat := 0
  low : Bool := false
  /-- operating time in 0.4 ns at which LOW was last set (R11) -/
  lowSet : Option Nat := none
  lowRun : Nat := 0
  /-- operating time in ms since which LOW is set, and of the last warning -/
  lowSince : Nat := 0
  warned : Option Nat := none
  deriving DecidableEq, Repr

/-- Measurement (R387 to R398). Calibration records by index: factory, and user in force. -/
structure Measure where
  awn : Tbl Awn := []
  lanes : Tbl Lane := []
  factory : Tbl Bytes := []
  user : Tbl Bytes := []
  /-- root and edge die readings, in units of 0.125 degrees C -/
  root : Tbl Int := []
  edge : Tbl Int := []
  deriving DecidableEq, Repr

/-! ### Pins, supply and boot (01, 14, 16) -/

/-- Pins, rails and input (01). -/
structure Board where
  /-- power-up count (R33) -/
  pcycle : Nat := 0
  /-- the part is a KP9-0768 (R335); reset: a KP9-1536, log entry 17 -/
  half : Bool := false
  /-- extended-life grade (R3, R407); reset: standard, log entry 17 -/
  ext : Bool := false
  /-- shipped as part of a pair (R407); reset: no, log entry 17 -/
  paired : Bool := false
  /-- the 54 V input is present; presence contacts of PB1 and PB2 (R19, R21) -/
  input : Bool := false
  pb1 : Bool := false
  pb2 : Bool := false
  /-- the rails of R26 that are up and in regulation: bit k - 1 for rail k of its order -/
  rails : Nat := 0
  /-- PWRGD is high (R40) -/
  pwrgd : Bool := false
  /-- MODRST# and PERST# are low (R41, R401) -/
  modrst : Bool := false
  perst : Bool := false
  /-- address straps as sampled at PWRGD (R38) -/
  straps : Nat := 0
  /-- stage of R426 that is to run or runs, 0 for none -/
  stage : Nat := 0
  /-- cause of the power-fail sequence in progress (R23) -/
  failing : Option Nat := none
  /-- off until the input has been absent (R497) -/
  tripped : Bool := false
  /-- power-fail records in flash, not yet converted (R24) -/
  flash : List Bytes := []
  /-- SMB_ALERT# is low (R39) -/
  alert : Bool := false
  /-- hours counted, and the sum of their maxima in units of 0.125 degrees C (R33) -/
  jHours : Nat := 0
  jSum : Int := 0
  jNotice : Option Nat := none
  /-- hottest compute-die reading of the hour that runs -/
  jMax : Option Int := none
  /-- this power-up is counted in pcycle -/
  counted : Bool := false
  /-- couplings in units of 0.125 degrees C, flow in units of 0.01 L/min (R30), operating time of the last warning in ms -/
  inlet : Int := 0
  outlet : Int := 0
  flow : Nat := 0
  coolWarned : Option Nat := none
  /-- 100 MHz and 156.25 MHz references out of limits (R37) -/
  hostRefBad : Bool := false
  laneRefBad : Bool := false
  /-- instruction in the TAP: 0 BYPASS, 1 IDCODE, 2 SAMPLE/PRELOAD, 3 EXTEST (R42); reset IDCODE, log entry 4 -/
  tap : Nat := 1
  /-- the boundary register (R42): what SAMPLE/PRELOAD or EXTEST last shifted in, cells as in Boot (log entry 125); reset 0, log entry 4 -/
  bscan : Nat := 0
  deriving DecidableEq, Repr

/-- Module control (R424): state code, causes of DEGRADED as bits (fewer than 512 healthy cores, slices lost), slices lost with the
partitions that held them, the boot error. -/
structure Ctl where
  mstate : Nat := 0
  fewCores : Bool := false
  lostSlices : List (Nat × List Nat) := []
  bootErr : Nat := 0
  deriving DecidableEq, Repr

/-- The CXL link, BAR0 and the mailbox (R399 to R417). -/
structure HostIf where
  link : Bool := false
  d3hot : Bool := false
  /-- BAR decoding is enabled -/
  bars : Bool := false
  /-- USEL: class and index -/
  uclass : Nat := 1
  uindex : Nat := 0
  /-- the sideband's own selector (R410): class and index -/
  sideClass : Nat := 1
  sideIndex : Nat := 0
  en : Bool := true
  cmplIrq : Bool := false
  evtIrq : Bool := false
  holdoff : Nat := 0
  ready : Bool := false
  restart : Bool := false
  restarts : Nat := 0
  wdrop : Nat := 0
  /-- MBX_DONE bits set, rising -/
  done : List Nat := []
  /-- the 256 bytes of each slot -/
  slots : Tbl Bytes := []
  /-- slots accepted, in order; slots whose OWN was seen and not yet accepted, in order (R414, R417) -/
  accepted : List Nat := []
  waiting : List Nat := []
  evtSum : Nat := 0
  evtMask : Nat := 0x7FF
  /-- operating time in 0.4 ns at which each EVT_SUM and MBX_DONE bit was last set (R11) -/
  evtAt : Tbl Nat := []
  doneAt : Tbl Nat := []
  unbacked : Nat := 0
  /-- operating time in 0.4 ns of the last message on each completion vector; vectors that wait for the holdoff -/
  vecLast : Tbl Nat := []
  vecWait : List Nat := []
  /-- the count n of R469 that each slot's command took -/
  nums : Tbl Nat := []
  deriving DecidableEq, Repr

/-- A generation of a user-writable block (R430): spent, and its content where it is valid. -/
structure Gen where
  content : Option Bytes
  time : Nat
  deriving DecidableEq, Repr

/-- An applied overlay (R436): its SEQUENCE and content. -/
structure Overlay where
  seq : Nat
  content : Bytes
  deriving DecidableEq, Repr

/-- The OTP store's user blocks 4, 5 and 6, their working copies, overlays of blocks 4 to 7, and the critical summary (R428 to R446). -/
structure Otp where
  gens : Tbl (List Gen) := []
  work : Tbl Bytes := []
  past : Tbl Overlay := []
  summary : List Bytes := []
  sumFull : Bool := false
  deriving DecidableEq, Repr

/-- A committed or pending owner key (R459). -/
structure OwnerKey where
  kind : Nat
  time : Nat
  sig : Bytes
  kem : Bytes
  deriving DecidableEq, Repr

/-- A vendor slot (R458). -/
structure VendorKey where
  digest : Bytes
  revoked : Bool
  deriving DecidableEq, Repr

/-- A session (R466 to R470): its number, K, its binding, the count n of commands. -/
structure Session where
  num : Nat
  keys : Bytes
  bind : Bytes
  n : Nat := 0
  /-- operating time in ms of the last command that passed its tag -/
  last : Nat := 0
  deriving DecidableEq, Repr

/-- A segmented object in progress (R465). -/
structure Seg where
  next : Nat
  data : Bytes
  deriving DecidableEq, Repr

/-- The Chokehus image that a module ships with in flash slot k (R6, R462): it verifies under vendor slot 0; the values that are per release are free.
[DESIGN CHOICE log entry 103] -/
def shippedImg (k : Nat) : FwImg :=
  { ok := true, slot := 0, version := Config.shippedVersion k, svn := Config.shippedSvn k
    sig := (List.range 64).map (Config.shippedSigByte k), digest := (List.range 64).map (Config.shippedDigestByte k) }

/-- Glume, keys and trust (16). -/
structure Sec where
  vendors : Tbl VendorKey := [(0, ⟨[], false⟩)]
  owners : List OwnerKey := []
  pend : Option OwnerKey := none
  /-- both flash copies of the full owner keys fail their digests (R459) -/
  ownerLost : Bool := false
  /-- every bit of IDSEED is 1 (R481) -/
  dead : Bool := false
  /-- M0 to M7 (R464) -/
  meas : List Bytes := []
  /-- session key pairs drawn, sessions established, random values drawn, signatures made -/
  kemN : Nat := 0
  sessN : Nat := 0
  draws : Nat := 0
  signs : Nat := 0
  sess : List Session := []
  /-- the owner session, authenticated -/
  owner : Option Session := none
  segs : Tbl Seg := []
  dbgNonce : Option Bytes := none
  zeroNonce : Option Bytes := none
  /-- debug-unlocked until this operating time in ms (R480) -/
  unlocked : Option Nat := none
  /-- operating times in ms: last records of events 0x02, 0x03 and 0x0A, and tag failures -/
  told : Tbl Nat := []
  tagFails : List Nat := []
  /-- quotes held: partition mask, nonce, bytes; the mailbox's and the sideband's (R477, R478) -/
  quote : Option (Nat × Bytes × Bytes) := none
  side : Option (Nat × Bytes × Bytes) := none
  /-- the running image and its letter: 0 A, 1 B -/
  fw : FwImg := {}
  letter : Nat := 0
  /-- Chokehus images A and B in flash (R6, R463, R533); reset: as shipped, log entry 103 -/
  flashA : FwImg := shippedImg 0
  flashB : FwImg := shippedImg 1
  deriving DecidableEq, Repr

/-- A power domain's telemetry (R498). state: 0 OFF, 1 RETAIN, 2 ON, 3 RAMPING. -/
structure Dom where
  state : Nat := 0
  ma : Nat := 0
  mv : Nat := 0
  mw : Nat := 0
  uj : Nat := 0
  imax : Nat := 0
  deriving DecidableEq, Repr

/-- Granary (17). Caps in W; reset: the standard grade's highest cap, log entry 10. -/
structure Granary where
  cap : Nat := 15000
  thermal : Nat := 15000
  loss : Bool := false
  /-- operating time in ms of the last pulse, of the last pulse warning -/
  lastPulse : Option Nat := none
  pulseTold : Option Nat := none
  derate : Bool := false
  /-- dies (class 2) and stacks (class 3) with hot-spot pulses, and the operating time in 0.4 ns of the last pulse of each -/
  hot : List (Nat × Nat × Nat) := []
  hotTold : Option Nat := none
  /-- POWER holds announced since power-up -/
  pulses : Nat := 0
  /-- input power W, voltage in 0.01 V, blade currents in 0.1 A -/
  power : Nat := 0
  volts : Nat := 0
  i1 : Nat := 0
  i2 : Nat := 0
  doms : Tbl Dom := []
  deriving DecidableEq, Repr

/-- The twin link (R517 to R521). pair: 0 unpaired, 1 pairing, 2 paired. -/
structure Twin where
  pair : Nat := 0
  lanes : Nat := 0
  retired : Nat := 0
  isolate : Bool := false
  partner : Bytes := []
  discarded : Nat := 0
  /-- next COUNTER to send; lowest COUNTER that is accepted -/
  tx : Nat := 0
  rx : Nat := 0
  keys : Bytes := []
  /-- mailbox slot of PAIR op 0, operating time in 0.4 ns at which it began -/
  slot : Option Nat := none
  since : Nat := 0
  /-- PAIR op 1 in progress: partition, slot, role, since -/
  parts : List (Nat × Nat × Nat × Nat) := []
  /-- the partner's map as received: class and index -/
  map : List (Nat × Nat) := []
  deriving DecidableEq, Repr

/-- The state of the module. -/
structure State where
  /-- commands waiting, first in first out -/
  pending : List Instr := []
  /-- counter of the free values: the model's own (log entry 5) -/
  free : Nat := 0
  /-- what left the module, oldest first: the model's own (log entry 6) -/
  out : List Out := []
  /-- compute cycles since BOOT was left (R341) -/
  cc : Nat := 0
  /-- operating time in units of 0.4 ns (R439) -/
  opTicks : Nat := 0
  board : Board := {}
  parts : Tbl Part := []
  cores : Tbl Core := []
  stook : Stook := {}
  hbm : Hbm := {}
  dies : Tbl Die := []
  time : Time := {}
  ltes : Tbl Lte := []
  field : Field := {}
  meas : Measure := {}
  units : Units := {}
  ctl : Ctl := {}
  host : HostIf := {}
  otp : Otp := {}
  sec : Sec := {}
  gran : Granary := {}
  twin : Twin := {}
  deriving DecidableEq, Repr

/-- The module at reset: the 54 V input absent, every field at its default. [DESIGN CHOICE log entry 4] -/
def State.reset : State := {}

end Sys2Proof.Machine
end

