-- ==== Sys2Proof/Machine/Ops.lean ====
section
/-! DEFINITION. The named operations over memories and tables of the state, Stook records, global holds, and raising a fault. -/

namespace Sys2Proof.Machine

/-! ### Memories in canonical form -/

/-- The byte at an address; an unlisted byte reads 0 (log entry 8). -/
def memGet : List Host.Cell → Nat → Byte
  | [], _ => 0
  | (k, v) :: t, a => if k = a then v else memGet t a

/-- The cells with one more, before the first of a higher address. -/
def memIns (a : Nat) (b : Byte) : List Host.Cell → List Host.Cell
  | [] => [(a, b)]
  | c :: t => if a < c.1 then (a, b) :: c :: t else c :: memIns a b t

/-- The memory with one byte written, in canonical form: keys rising, no byte 0 listed. [DESIGN CHOICE log entry 8] -/
def memSet (m : List Host.Cell) (a : Nat) (b : Byte) : List Host.Cell :=
  let r := m.filter fun c => c.1 != a
  if b = 0 then r else memIns a b r

/-- n bytes from an address. [DESIGN CHOICE log entry 8] -/
def memRead (m : List Host.Cell) (a n : Nat) : Bytes := (List.range n).map fun i => memGet m (a + i)

/-- The memory with a byte run written from an address. -/
def memWrite : List Host.Cell → Nat → Bytes → List Host.Cell
  | m, _, [] => m
  | m, a, b :: bs => memWrite (memSet m a b) (a + 1) bs

/-- The memory with n bytes from an address cleared to 0. -/
def memClear (m : List Host.Cell) (a n : Nat) : List Host.Cell := m.filter fun c => !(decide (a ≤ c.1) && decide (c.1 < a + n))

/-- The memory with the listed bytes of another written from an address. -/
def memCopy (m : List Host.Cell) (a : Nat) (c : List Host.Cell) : List Host.Cell := c.foldl (fun z x => memSet z (a + x.1) x.2) m

/-- The canonical form of a memory: keys rising, no byte 0. -/
def memWf : List Host.Cell → Bool
  | [] => true
  | [(_, v)] => v != 0
  | (k, v) :: (k', v') :: t => v != 0 && decide (k < k') && memWf ((k', v') :: t)

/-- A set of numbers as a rising list: insertion. -/
def setIns : List Nat → Nat → List Nat
  | [], a => [a]
  | k :: t, a => if a < k then a :: k :: t else if k = a then k :: t else k :: setIns t a

/-- Removal from a set. -/
def setDel (l : List Nat) (a : Nat) : List Nat := l.filter (· != a)

/-- Every number from a to b. -/
def span (a b : Nat) : List Nat := (List.range (b + 1 - a)).map (a + ·)

/-! ### Parts of the state -/

/-- Partition slot p. -/
def State.part (s : State) (p : Nat) : Part := s.parts.getD p {}
/-- Physical core c. -/
def State.core (s : State) (c : Nat) : Core := s.cores.getD c {}
def State.setPart (s : State) (p : Nat) (q : Part) : State := { s with parts := s.parts.put p q }
def State.setCore (s : State) (c : Nat) (k : Core) : State := { s with cores := s.cores.put c k }
def State.modPart (s : State) (p : Nat) (f : Part → Part) : State := s.setPart p (f (s.part p))
def State.modCore (s : State) (c : Nat) (f : Core → Core) : State := s.setCore c (f (s.core c))

/-- Update of the running part of a partition, its control, its counters. -/
def State.modRun (s : State) (p : Nat) (f : PRun → PRun) : State := s.modPart p fun q => { q with run := f q.run }
def State.modCtl (s : State) (p : Nat) (f : PCtl → PCtl) : State := s.modPart p fun q => { q with ctl := f q.ctl }
def State.modCnt (s : State) (p : Nat) (f : PCnt → PCnt) : State := s.modPart p fun q => { q with cnt := f q.cnt }
def State.modPTwin (s : State) (p : Nat) (f : PTwin → PTwin) : State := s.modPart p fun q => { q with twin := f q.twin }
def State.modCk (s : State) (p : Nat) (f : PCkpt → PCkpt) : State := s.modPart p fun q => { q with ck := f q.ck }
def State.modPwr (s : State) (p : Nat) (f : PPwr → PPwr) : State := s.modPart p fun q => { q with pwr := f q.pwr }
def State.modImg (s : State) (p : Nat) (f : PImg → PImg) : State := s.modPart p fun q => { q with img := f q.img }
/-- Update of the sequencer, the scratchpad, the channels of a core. -/
def State.modSeq (s : State) (c : Nat) (f : CoreSeq → CoreSeq) : State := s.modCore c fun k => { k with seq := f k.seq }
def State.modSp (s : State) (c : Nat) (f : CoreSp → CoreSp) : State := s.modCore c fun k => { k with sp := f k.sp }
def State.modCh (s : State) (c : Nat) (f : CoreCh → CoreCh) : State := s.modCore c fun k => { k with ch := f k.ch }

/-- The partition and the logical core that a physical core is mapped to (R47, R48). -/
def State.owner (s : State) (c : Nat) : Option (Nat × Nat) :=
  (List.range Config.nParts).findSome? fun p => ((s.part p).res.place.findIdx? (· == c)).map fun l => (p, l)

/-- A partition of a floor of 64 or less runs in slotted mode (R46). -/
def Part.slotted (q : Part) : Bool := q.res.floor ≤ 64

/-- The module is powered and out of reset (R41): while MODRST# is low everything below the hot-swap stage is held. -/
def State.alive (s : State) : Bool := s.ctl.mstate != 0 && !s.board.modrst

/-- The root die runs, from stage 5 on (R426). -/
def State.glumeRuns (s : State) : Bool := s.alive && s.board.failing.isNone && (s.board.stage == 0 || decide (5 ≤ s.board.stage))

/-- The module's 7-bit SMBus address (R38). -/
def Board.smbus (b : Board) : Nat := 0x60 + b.straps % 4

/-- The next free value (log entry 5): w bits that nothing constrains. -/
def State.fresh (s : State) (w : Nat) : Nat := Config.freeNat s.free w % 2 ^ w
def State.bumpFree (s : State) : State := { s with free := s.free + 1 }

/-- Something leaves the module (log entry 6). -/
def State.emit (s : State) (chan arg : Nat) (data : Bytes) : State := { s with out := s.out ++ [⟨chan, arg, data⟩] }

/-! ### Stook records (R439 to R442) -/

/-- Operating time in milliseconds. -/
def State.opMs (s : State) : Nat := s.opTicks / Config.ccPerMs

def State.modHost (s : State) (f : HostIf → HostIf) : State := { s with host := f s.host }

/-- An event bit of EVT_SUM becomes set (R409): vector 0 when it was clear and is enabled. Out channel 6. -/
def State.event (s : State) (k : Nat) : State :=
  let h := s.host
  let s1 := s.modHost fun h => { h with evtSum := h.evtSum ||| 2 ^ k, evtAt := h.evtAt.put k s.opTicks }
  if !bit h.evtSum k && bit h.evtMask k && h.evtIrq && h.link then s1.emit 6 0 [] else s1

/-- A record is offered to Stook (R442): it takes a place in the ingress queue of 1,024, whose last 64 places take only severities 6
and 7; without a place it is dropped and counted (R444). -/
def State.record (s : State) (sev code cls idx : Nat) (data : Bytes) : State :=
  let r : Rec := ⟨s.opMs % 2 ^ 40, s.board.pcycle % 2 ^ 24, sev, false, false, cls, idx, code, s.stook.offered % 65536, fit 16 data, 0⟩
  let room := if sev ≥ 6 then Config.ingressSize else Config.ingressSize - 64
  let k := s.stook
  if k.ingress.length < room then { s with stook := { k with ingress := k.ingress ++ [r], offered := k.offered + 1 } }
  else ({ s with stook := { k with dropped := k.dropped.put sev (satAdd (k.dropped.getD sev 0) 1), offered := k.offered + 1 } }).event 10

/-- The code of a partition state in records and replies (R423). -/
def PState.code : PState → Nat
  | .empty => 0 | .loaded => 1 | .armed => 2 | .running => 3 | .held => 4 | .restarting => 5 | .faulted => 6 | .shadow => 7

/-- A partition changes state (R66, R409): a notice and EVT_SUM.PART, except into and out of HELD. [DESIGN CHOICE log entry 57] -/
def State.toState (s : State) (p : Nat) (st : PState) : State :=
  let old := (s.part p).st
  let s' := s.modPart p fun q => { q with st := st }
  if old = .held ∨ st = .held then s' else (s'.record 2 0x0003 0x08 p (natLe 1 old.code ++ natLe 1 st.code)).event 6

/-! ### Global holds (R308 to R315) -/

/-- A hold is announced for a partition: it takes effect 96 logical cycles later (R309). PART_HOLD.ANN counts it. -/
def State.announce (s : State) (p kind : Nat) (ann : Option (Nat × Nat × Nat)) : State :=
  let q := s.part p
  s.setPart p { q with
    run := { q.run with holds := q.run.holds ++ [⟨kind, ann, q.run.logical + Config.horizon, none, none, false⟩] }
    cnt := { q.cnt with holdAnn := satAdd q.cnt.holdAnn 1 } }

/-- The end of a hold is announced: it takes effect 96 physical cycles later (R309). -/
def State.announceEnd (s : State) (p : Nat) (hit : Hold → Bool) : State :=
  s.modRun p fun r => { r with holds := r.holds.map fun h => if hit h && h.fin.isNone then { h with fin := some (s.cc + Config.horizon) } else h }

/-- The end of a hold is in effect (R309). -/
def Hold.dead (h : Hold) (cc : Nat) : Bool := match h.fin with | some f => decide (f ≤ cc) | none => false

/-- The kinds of the holds in effect, as a mask (R308, R317). -/
def PRun.kindsOn (r : PRun) (cc : Nat) : Nat := (r.holds.filter fun h => h.began.isSome && !h.dead cc).foldl (fun m h => m ||| 2 ^ h.kind) 0

/-- A break holds the partition (R139). -/
def PRun.byBreak (r : PRun) : Bool := r.held && r.holds.any fun h => h.kind == 6 && h.began.isSome && h.fin.isNone

/-! ### Faults (R122, R140, R315, R318, R319) -/

/-- The classes of fault causes (R319): the schedule class. -/
def scheduleClass (cause : Nat) : Bool :=
  (1 ≤ cause && cause ≤ 0x0B) || cause == 0x0D || cause == 0x10 || cause == 0x11 || (0x13 ≤ cause && cause ≤ 0x15) || cause == 0x17 ||
  (0x18 ≤ cause && cause ≤ 0x1D)

/-- The result that register r takes at or before a cycle, the last to arrive first (R126): the pending result with the largest
due cycle, the later issue among equals. -/
def pendFor (l : List SPend) (r now : Nat) : Option SPend :=
  l.foldl (fun best x => if x.reg = r ∧ x.due ≤ now then
    match best with
    | none => some x
    | some b => if b.due ≤ x.due then some x else some b
    else best) none

/-- Every pending result that has arrived goes into its register (R126). -/
def CoreSeq.commit (q : CoreSeq) (now : Nat) : CoreSeq :=
  { q with
    regs := (List.range 31).foldl (fun t i =>
      match pendFor q.pend (i + 1) now with
      | some x => t.put (i + 1) (x.value, x.poison)
      | none => t) q.regs
    pend := q.pend.filter fun x => decide (now < x.due) }

/-- The instruction of the code region at a position (R123). [DEDUCED log entry 67] -/
def Core.codeAt (k : Core) (pos : Nat) : QEntry :=
  let a := k.seq.base + 16 * pos
  ⟨BitVec.ofNat 128 (leNat (memRead k.sp.mem a 16)), k.sp.poison.contains (a / 64), 0⟩

/-- The entries of a queue (R107, R123): the sequencer's holds the instructions that the refill has placed, in order from its position. [DESIGN CHOICE log entry 142] -/
def Core.entries (k : Core) (e : Nat) : List QEntry :=
  if e = 6 then
    if k.seq.ended.isSome then [] else
    (List.range (min (min 256 (k.seq.len - k.seq.pos)) (Config.refill k.seq.pos (k.eng.getD 6 {}).issued))).map fun i => k.codeAt (k.seq.pos + i)
  else (k.eng.getD e {}).queue

/-- The snapshot of a core (R122). [DESIGN CHOICE log entry 91] -/
def snapshotOf (k : Core) (c step cyc : Nat) : Snapshot :=
  { core := c
    engines := (List.range 7).map fun e => let g := k.eng.getD e {}; (((k.entries e).take 8).map QEntry.word, g.ccnt, g.issued)
    fcnt := k.fcnt, regs := (k.seq.commit cyc).regs, pos := k.seq.pos, step := step, cyc := cyc }

/-- A core writes its snapshot to the fault area (R122). [DESIGN CHOICE log entry 91] -/
def State.snap (s : State) (p c cyc : Nat) : State :=
  s.modImg p fun m => { m with fault := { m.fault with snaps := m.fault.snaps.put c (snapshotOf (s.core c) c (s.part p).ctl.stepCount cyc) } }

/-- DATA of a FAULT record (R122, R441): cause, class, engine, logical core, TAG, place and the low 56 bits of STEP_COUNT, packed from the low end. [DESIGN CHOICE log entry 61] -/
def faultData (f : FaultId) (cls tag : Nat) : Bytes :=
  natLe 16 (f.cause % 256 + 2 ^ 8 * (cls % 8) + 2 ^ 11 * (f.eng % 8) + 2 ^ 14 * (f.core % 1024) + 2 ^ 24 * (tag % 65536) + 2 ^ 40 * (f.place % 2 ^ 32) +
    2 ^ 72 * (f.step % 2 ^ 56))

/-- Two faults are identical (R318, R330): within work items the logical core does not count. -/
def FaultId.same (a b : FaultId) : Bool := if a.item.isSome then decide ({ a with core := b.core } = b) else decide (a = b)

/-- A partition records a fault (R315, R318, R331): PART_FLT, a STOP hold, a Stook record. Of the faults of one run it keeps the first,
and among those of one logical cycle the one of the lowest logical core and its lowest engine (R542, log entry 12). cls, idx: the unit for Stook; src: the unit
charged, where it is another (R246). [DESIGN CHOICE log entry 56, DESIGN CHOICE log entry 61, DEDUCED log entry 79] -/
def State.partFault (s : State) (p : Nat) (f : FaultId) (cls idx : Nat) (tag : Nat := 0) (src : Option (Nat × Nat) := none) : State :=
  let q := s.part p
  let stopping := q.run.holds.find? fun h => h.kind == 7
  let u := src.getD (cls, idx)
  let same := match stopping with
    | none => true
    | some h => h.start == q.run.logical + Config.horizon &&
        (decide (f.core < q.cnt.fCore) || (f.core == q.cnt.fCore && decide (f.eng < q.cnt.fEng)))
  let s1 := if same then s.modPart p fun q => { q with
      cnt := { q.cnt with fCause := f.cause, fClass := 1, fEng := f.eng, fCore := f.core, fStep := f.step, fPlace := f.place }
      ck := { q.ck with f1 := some f, f1Cls := u.1, f1Idx := u.2 }
      twin := { q.twin with lastFlt := some (s.time.count / 4294967296) } } else s
  (s1.announce p 7 none).record 5 0x0010 cls idx (faultData f 1 tag)

/-- The place in the step of a fault raised at an instruction that did not issue (R318). -/
def faultPlace (q : Part) (k : Core) (e : Nat) : Nat :=
  if q.slotted then q.run.stepCyc else (k.eng.getD e {}).issued + 1

/-- The identity of a fault that core k, logical core l, raises (R318); in a queued partition within a work item, the issue count is that within the
item (R330). -/
def Part.faultId (q : Part) (k : Core) (l e cause place : Nat) : FaultId :=
  match k.item with
  | some i => if q.slotted then ⟨cause, q.ctl.stepCount, l, e, place, none⟩
      else ⟨cause, q.ctl.stepCount, l, e, place - i.base.getD e 0, some (i.region, i.item)⟩
  | none => ⟨cause, q.ctl.stepCount, l, e, place, none⟩

/-- A core raises a fault at its present logical cycle (R140, R315): the faulting engine stops, the core's fault registers and the
snapshot are written. When several engines of the core raise faults in one cycle the lowest index is recorded (R542). [DEDUCED log entry 12] -/
def State.coreFault (s : State) (c e tag cause place : Nat) (src : Option (Nat × Nat) := none) : State :=
  match s.owner c with
  | none => s
  | some (p, l) =>
    let q := s.part p
    let k := s.core c
    let keep := k.flt.cause != 0 && k.flt.step == q.ctl.stepCount && k.flt.cyc == q.run.stepCyc && k.flt.eng < e && (k.eng.getD k.flt.eng {}).stopped
    let flt := if keep then k.flt else
      { k.flt with cause := cause, eng := e, tag := tag, step := q.ctl.stepCount, cyc := q.run.stepCyc }
    let s1 := s.setCore c { k with flt := flt, eng := k.eng.put e { k.eng.getD e {} with stopped := true } }
    (s1.snap p c q.run.stepCyc).partFault p (q.faultId k l e cause place) 0x01 c tag src

/-- The place in the step of a fault raised after issue (R318). -/
def placeAfter (q : Part) (issueNo : Nat) : Nat := if q.slotted then q.run.stepCyc else issueNo

/-- The step cycle of a core's partition while a step runs and is not held. -/
def State.liveCycle (s : State) (c : Nat) : Option (Nat × Nat × Nat) :=
  match s.owner c with
  | none => none
  | some (p, l) => let r := (s.part p).run; if r.stepRun && !r.held then some (p, l, r.stepCyc) else none

/-- SP_ERR records the word whose detection code failed (R243, R270). -/
def CoreSp.noteErr (m : CoreSp) (w : Nat) : CoreSp := { m with errCnt := satAdd m.errCnt 1, errBank := w / 64 % 16, errUnit := w / 8 }

/-- A read of scratchpad fails its detection code (R243): SP_ERR, and SP_ERROR, 0x16. -/
def State.spErrorAt (s : State) (c e tag place w : Nat) : State := (s.modSp c fun m => m.noteErr w).coreFault c e tag 0x16 place

/-- A router of a die raises a fault (R318): the lowest logical core of the die, engine 7. -/
def State.dieFault (s : State) (p d cause : Nat) : State :=
  let q := s.part p
  let l := (q.res.place.findIdx? fun c => c / 2 == d).getD 1023
  s.partFault p ⟨cause, q.ctl.stepCount, l, 7, q.run.stepCyc, none⟩ 0x02 d

/-- A detection outside the cores raises a fault on a partition (R318): core 1,023, engine 7. -/
def State.sysFault (s : State) (p cause cls idx : Nat) : State :=
  let q := s.part p
  s.partFault p ⟨cause, q.ctl.stepCount, 1023, 7, if q.run.stepRun then q.run.stepCyc else 0, none⟩ cls idx

end Sys2Proof.Machine
end

