-- ==== Sys2Proof/Machine/Region.lean ====
section
/-! DEFINITION. A partition's HBM as its controllers serve it (11): regions (R337), the map to stacks and pseudo-channels (R335, R338, R339), content,
encryption and parity (R340, R343, R349), refresh windows and the order of REMOTE requests (R266, R341, R351). -/

namespace Sys2Proof

/-! ### Regions and the address map -/

def mib : Nat := 1048576
/-- Rounded up to a multiple of 1 MiB (R337). -/
def upMib (n : Nat) : Nat := ceilDiv n mib * mib

/-- Mutable state size and journal size of the header (R53). -/
def Image.mutSize (g : Image) : Nat := fld g.header 16 8
def Image.journalSize (g : Image) : Nat := let n := fld g.header 24 8; if n = 0 then 17179869184 else n
def Image.floor (g : Image) : Nat := fld g.header 6 2

/-- The sizes of regions 1 to 8 of a partition with an image (R337), and whether each is protected. -/
def Image.regionSizes (g : Image) : List (Nat × Bool) :=
  let m := g.mutSize
  [(upMib 8589934592, false), (upMib m, false), (upMib (g.slotsIn + g.slotsOut), false), (upMib (268435456 + m), false),
   (upMib (m + mib), true), (upMib (m + mib), true), (upMib g.journalSize, true), (upMib g.constant.length, true)]

end Sys2Proof

namespace Sys2Proof.Machine

/-- A region: first byte offset, size, protected, first stripe. -/
structure Region where
  off : Nat
  size : Nat
  prot : Bool
  stripe : Nat
  deriving DecidableEq, Repr

/-- Fitted stacks (R335). -/
def State.stacks (s : State) : Nat := if s.board.half then 16 else 32

/-- Stripes that a region takes over st stacks (R338). -/
def stripesOf (st size : Nat) (prot : Bool) : Nat := ceilDiv (ceilDiv size 256) (if prot then st - 1 else st)

/-- The regions in order from offset 0 (R337, R338). -/
def layRegions (st : Nat) : List (Nat × Bool) → Nat → Nat → List Region
  | [], _, _ => []
  | (n, p) :: t, o, q => ⟨o, n, p, q⟩ :: layRegions st t (o + n) (q + stripesOf st n p)

/-- The regions of a partition; before an image is loaded the host region alone. -/
def State.regions (s : State) (q : Part) : List Region :=
  match q.img.image with
  | some g => layRegions s.stacks g.regionSizes 0 0
  | none => layRegions s.stacks [(8589934592, false)] 0 0

/-- First byte offset of region i, counted from 0. -/
def State.regionOff (s : State) (q : Part) (i : Nat) : Nat := match (s.regions q)[i]? with | some r => r.off | none => 0

/-- Slices of a mask, rising. -/
def slicesOf (mask : Nat) : List Nat := (List.range 31).filter fun k => bit mask k

/-- The stack and stripe of an offset in a region (R338). -/
def Region.place (r : Region) (st o : Nat) : Nat × Nat :=
  let g := (o - r.off) / 256
  if r.prot then
    let q := g / (st - 1)
    let i := g % (st - 1)
    let p := q % st
    (if i < p then i else i + 1, r.stripe + q)
  else (g % st, r.stripe + g / st)

/-- Stack, slice and pseudo-channel address of an offset (R338, R339). -/
def State.hbmPlace (s : State) (q : Part) (o : Nat) : Option (Nat × Nat × Nat) :=
  match (s.regions q).find? fun r => decide (r.off ≤ o ∧ o < r.off + r.size) with
  | none => none
  | some r =>
    let x := r.place s.stacks o
    let ks := slicesOf q.res.slices
    if ks.isEmpty then none else some (x.1, ks.getD (x.2 % ks.length) 0, x.2 / ks.length * 256 + o % 256)

/-- A pseudo-channel that nothing has changed (R335): the spare is number 31. -/
def Pc.init (i : Nat) : Pc := if i % 32 = 31 then { role := 1, slice := 31 } else { role := 0, slice := i % 32 }

def State.pc (s : State) (i : Nat) : Pc := s.hbm.pcs.getD i (Pc.init i)
def State.modPc (s : State) (i : Nat) (f : Pc → Pc) : State := { s with hbm := { s.hbm with pcs := s.hbm.pcs.put i (f (s.pc i)) } }

/-- The index of the pseudo-channel that serves a slice on a stack (R335). -/
def State.member (s : State) (stack slice : Nat) : Nat :=
  let spare := s.pc (32 * stack + 31)
  if spare.role = 2 ∧ spare.slice = slice then 32 * stack + 31 else 32 * stack + slice

/-- The pseudo-channel index and the row of an offset. [DESIGN CHOICE log entry 18] -/
def State.pcOf (s : State) (q : Part) (o : Nat) : Option (Nat × Nat) :=
  (s.hbmPlace q o).map fun x => (s.member x.1 x.2.1, Config.pcRow x.2.2)

/-- First byte after the regions of a partition: offsets from there name the core-streams section, to which R337 gives no region. [DESIGN CHOICE log entry 140] -/
def State.streamsOff (s : State) (q : Part) : Nat := (s.regions q).foldl (fun m r => max m (r.off + r.size)) 0

/-- The compute die that holds a stack's controller (R15): row 0 for a north stack, row 17 for a south stack. -/
def controllerDie (stack : Nat) : Nat := if stack < 16 then stack else 256 + stack

/-- A stack's controller is powered (R15, R484): the stack is fitted. -/
def State.controllerOn (s : State) (stack : Nat) : Bool := decide (stack < s.stacks)

/-! ### Routes (R272, R273, R275) -/

/-- Column and row of a node of the on-module networks: compute dies 0 to 287; 288 and 289 are the root die as the nodes (-1, 8) and (-1, 9) (R14, R272). -/
def nodePos (d : Nat) : Int × Int := if d < 288 then ((d % 16 : Nat), (d / 16 : Nat)) else (-1, 8 + ((d - 288) % 2 : Nat))

/-- The output port towards a place (R273, R276): along the row first, then along the column; 4 at the place itself. To the root die, whose links leave
dies (0, 8) and (0, 9): to column 0, along it, then west. [DEDUCED log entry 76] -/
def portTo (x y : Int × Int) : Nat :=
  if x = y then 4
  else if y.1 < 0 then (if 0 < x.1 then 3 else if y.2 < x.2 then 0 else if x.2 < y.2 then 2 else 3)
  else if x.1 < y.1 then 1 else if y.1 < x.1 then 3 else if y.2 < x.2 then 0 else 2

/-- The node across a link, and the input at which a flit arrives there, as coded in R276. -/
def acrossLink (d port : Nat) : Nat × Nat :=
  if 288 ≤ d then (if port = 1 then (16 * (8 + (d - 288) % 2), 4) else if port = 2 then (289, 1) else (288, 3))
  else match port with
  | 0 => (d - 16, 3)
  | 1 => (d + 1, 4)
  | 2 => (d + 16, 1)
  | _ => if d % 16 = 0 then (288 + d / 16 % 2, 2) else (d - 1, 2)

/-- The links from a node to a place, as 4 x node + port. first: along the column before the row, as the memory network's replies go (R275). -/
def routeFrom : Nat → Nat → Int × Int → Bool → List Nat
  | 0, _, _, _ => []
  | n + 1, d, y, colFirst =>
    let x := nodePos d
    let p := if colFirst && x.2 != y.2 && decide (0 ≤ x.1) then (if y.2 < x.2 then 0 else 2) else portTo x y
    if p = 4 then [] else (4 * d + p) :: routeFrom n (acrossLink d p).1 y colFirst

/-- The kind of a memory-network flit: read request, write data, read data, acknowledgement, REMOTE request. -/
def mRead : Nat := 0
def mWrite : Nat := 1
def mData : Nat := 2
def mAck : Nat := 3
def mRemote : Nat := 4

/-- The path of a flit from a node to the controller of a stack, row first, and the reverse path, column first (R275). -/
def pathOut (node stack : Nat) : List Nat := routeFrom 64 node (nodePos (controllerDie stack)) false
def pathBack (stack node : Nat) : List Nat := routeFrom 64 (controllerDie stack) (nodePos node) true

/-! ### Requests (R266, R341, R342, R351) -/

/-- The compute cycle lies in the stack's refresh window (R341): 875 cc from 150 x stack, every 4,875 cc. -/
def inRefresh (stack cc : Nat) : Bool := decide ((cc + 156000 - 150 * stack) % 4875 < 875)

/-- The pseudo-channel's window is in use: it carries no transfer (R341). -/
def State.refreshing (s : State) (i : Nat) : Bool := inRefresh (i / 32) s.cc && s.hbm.winUsed.getD (i / 32) false

/-- A REMOTE floor slot begins (R266): slot 6 of a round of 10 bursts of 25/6 cc, outside the stack's refresh window. [DESIGN CHOICE log entry 135] -/
def remoteSlot (stack cc : Nat) : Bool :=
  let t := (cc + 156000 - 150 * stack) % 4875
  decide (875 ≤ t) && (6 * t / 25 - 210) % 10 == 6 && 6 * t / 25 != 6 * (t - 1) / 25

/-- The REMOTE request that is served next (R351): lowest priority number, oldest first; one slot in 16 is kept for priority 6. -/
def Pc.pick (c : Pc) : Option Remote :=
  (if c.turn % 16 = 15 then [6, 1, 2, 3, 4, 5] else [1, 2, 3, 4, 5, 6]).findSome? fun k => c.queue.find? fun r => r.prio == k

/-- A REMOTE slot passes. -/
def Pc.serve (c : Pc) : Pc := match c.pick with | some r => { c with queue := c.queue.erase r, turn := c.turn + 1 } | none => c

/-- The pseudo-channels over one cycle (R266, R351). -/
def Hbm.tick (h : Hbm) (cc : Nat) : Hbm := { h with pcs := h.pcs.map fun x => if remoteSlot (x.1 / 32) cc then (x.1, x.2.serve) else x }

/-- A request reaches a pseudo-channel: it leaves self-refresh (R342). -/
def State.touchPc (s : State) (i : Nat) : State := s.modPc i fun c => { c with selfref := false, lastReq := s.opTicks }

/-- The 64-byte units of a byte run. -/
def unitsIn (o n : Nat) : List Nat := if n = 0 then [] else span (o / 64) ((o + n - 1) / 64)

/-- A flit goes into the memory network (R275). [DESIGN CHOICE log entry 146] -/
def State.mSend (s : State) (f : MFlit) : State := { s with hbm := { s.hbm with net := s.hbm.net ++ [f] } }

/-- REMOTE requests of a priority set out from the root die for the pseudo-channels of a byte run of a partition (R271, R275, R342, R351).
[DESIGN CHOICE log entry 146] -/
def State.remote (s : State) (p prio o n : Nat) : State :=
  (unitsIn o n).foldl (fun z u => match z.pcOf (z.part p) (u * 64) with
    | some (i, _) => (z.touchPc i).mSend
        { part := p, kind := mRemote, who := (0, prio, 0, 0), unit := u, deadline := 0, path := pathOut (288 + u % 2) (i / 32), since := z.cc + 1 }
    | none => z) s

/-! ### Content (R259, R343) -/

/-- The poison of the 64-byte unit that holds an offset (R343). -/
def PImg.poisoned (m : PImg) (o : Nat) : Bool := m.hbmPoison.contains (o / 64) || m.hbmUe.contains (o / 64)

/-- A write of bytes at an offset (R259, R343): a whole-burst write clears the stored errors and the poison code; a partial write of an
uncorrectable burst writes the poison code, and one of a corrected burst stores it corrected. -/
def PImg.write (m : PImg) (o : Nat) (d : Bytes) : PImg :=
  let us := unitsIn o d.length
  let whole := us.filter fun u => decide (o ≤ u * 64 ∧ u * 64 + 64 ≤ o + d.length)
  let ue := us.filter fun u => m.hbmUe.contains u && !whole.contains u
  { m with
    hbm := memWrite m.hbm o d
    hbmPoison := ue.foldl setIns (m.hbmPoison.filter fun u => !whole.contains u)
    hbmUe := m.hbmUe.filter fun u => !us.contains u
    hbmCe := m.hbmCe.filter fun u => !us.contains u }

/-! ### The copy of a checkpoint (R508) -/

/-- Bytes of a stripe of the mutable section (R338). -/
def State.stripeBytes (s : State) : Nat := 256 * s.stacks

/-- Stripes of the mutable section that `hit` names are copied as they stand: their bytes, and the units that cannot be read with their poison (R343,
R508). -/
def State.copyStripes (s : State) (p : Nat) (hit : Nat → Bool) : State :=
  let q := s.part p
  match q.img.image with
  | none => s
  | some g =>
    let o := s.regionOff q 1
    let here := fun a => decide (o ≤ a) && decide (a < o + g.mutSize) && hit ((a - o) / s.stripeBytes)
    s.modPart p fun q => { q with ck := { q.ck with copy := { q.ck.copy with
      mut_ := (q.img.hbm.filter fun c => here c.1).foldl (fun m c => memSet m (c.1 - o) c.2) q.ck.copy.mut_
      mutPoison := ((q.img.hbmPoison ++ q.img.hbmUe).filter fun u => here (u * 64)).foldl (fun l u => setIns l (u - o / 64)) q.ck.copy.mutPoison } } }

/-- A stripe that a write reaches and that has not been copied is copied first (R508). -/
def State.copyFirst (s : State) (p a n : Nat) : State :=
  let q := s.part p
  match q.ck.copying, q.img.image with
  | some (l, false), some g =>
    let o := s.regionOff q 1
    let qs := (unitsIn a n).filterMap fun u => if o ≤ u * 64 ∧ u * 64 < o + g.mutSize then some ((u * 64 - o) / s.stripeBytes) else none
    (s.copyStripes p fun k => qs.contains k && !l.contains k).modPart p fun q => { q with ck := { q.ck with copying := some (qs.foldl setIns l, false) } }
  | _, _ => s

/-- The stripes not yet copied are copied: the content is complete (R508). [DEDUCED log entry 70] -/
def State.copyRest (s : State) (p : Nat) : State :=
  match (s.part p).ck.copying with
  | some (l, false) => s.copyStripes p fun k => !l.contains k
  | _ => s

/-- A write to a partition's HBM by any agent (R508). -/
def State.hbmStore (s : State) (p o : Nat) (d : Bytes) : State := (s.copyFirst p o d.length).modPart p fun q => { q with img := q.img.write o d }

/-! ### Encryption and parity (R340, R349) -/

/-- What stands in the stack for a burst of a partition (R349): its plaintext under the partition's XTS keys, the tweak its offset divided by 64. The
state holds the plaintext: decryption undoes encryption. [DEDUCED log entry 136] -/
def Part.cipher (q : Part) (u : Nat) (plain : Bytes) : Bytes := Config.xts q.res.keys u plain

def xorBytes (a b : Bytes) : Bytes := List.zipWith (· ^^^ ·) a b

/-- The parity granule of stripe k of a protected region (R340): the exclusive OR of the ciphertext of its data granules; byte: the plaintext by offset in
the region. [DEDUCED log entry 136] -/
def Part.parityOf (q : Part) (st : Nat) (r : Region) (k : Nat) (byte : Nat → Byte) : Bytes :=
  (List.range (st - 1)).foldl (fun acc i =>
    let o := (k * (st - 1) + i) * 256
    xorBytes acc ((List.range 4).flatMap fun b => q.cipher ((r.off + o) / 64 + b) ((List.range 64).map fun j => byte (o + 64 * b + j)))) (zeros 256)

/-- Data bytes of a stripe of a protected region (R338). -/
def State.protBytes (s : State) : Nat := 256 * (s.stacks - 1)

/-- The parity of the stripes that hold n bytes from offset a of region ri is written (R340). [DEDUCED log entry 136] -/
def State.writeParity (s : State) (p ri a n : Nat) (byte : Nat → Byte) : State :=
  match (s.regions (s.part p))[ri]? with
  | none => s
  | some r => if n = 0 then s else s.modPart p fun q => { q with img := { q.img with
      parity := (span (a / s.protBytes) ((a + n - 1) / s.protBytes)).foldl (fun t k => t.put (r.stripe + k) (q.parityOf s.stacks r k byte)) q.img.parity } }

/-- The constant section is written in whole stripes, parity included (R340): at LOAD_PROGRAM, and for a fallback image (R74). It is the last region. -/
def State.putConstant (s : State) (p : Nat) (bs : Bytes) : State :=
  let o := s.regionOff (s.part p) 7
  let q0 := match (s.regions (s.part p))[7]? with | some r => r.stripe | none => 0
  let s1 := s.modPart p fun q => { q with img := { q.img with
    hbm := memWrite (q.img.hbm.filter fun c => decide (c.1 < o)) o bs
    parity := q.img.parity.filter fun x => decide (x.1 < q0)
    hbmPoison := q.img.hbmPoison.filter fun u => decide (u * 64 < o)
    hbmCe := q.img.hbmCe.filter fun u => decide (u * 64 < o), hbmUe := q.img.hbmUe.filter fun u => decide (u * 64 < o) } }
  (s1.writeParity p 7 0 bs.length fun x => bs.getD x 0).remote p 2 o bs.length

/-- The place of a unit of a protected region in its stripe: region, stripe of the region, burst of the granule. -/
def State.stripeOf (s : State) (q : Part) (u : Nat) : Option (Region × Nat × Nat) :=
  match (s.regions q).find? fun r => decide (r.off ≤ u * 64 ∧ u * 64 < r.off + r.size) with
  | some r => if r.prot then some (r, (u * 64 - r.off) / s.protBytes, u % 4) else none
  | none => none

/-- The unit of a stripe that stands on a stack, at a burst of the granule; none where the stack holds the parity (R338). -/
def State.unitAt (s : State) (r : Region) (k burst stack : Nat) : Option Nat :=
  let pp := k % s.stacks
  if stack = pp then none
  else some ((r.off + (k * (s.stacks - 1) + (if stack < pp then stack else stack - 1)) * 256) / 64 + burst)

end Sys2Proof.Machine
end

