-- ==== Sys2Proof/Machine/Mail.lean ====
section
/-! DEFINITION. The mailbox (R413 to R420): slots, the device-memory window (R402 to R405), acceptance, the checks of R416, completion. -/

namespace Sys2Proof.Machine

def State.modSec (s : State) (f : Sec → Sec) : State := { s with sec := f s.sec }

/-! ### Status codes (R416) and module states (R424) -/

def stOk : Nat := 0
def stState : Nat := 1
def stArg : Nat := 2
def stAuth : Nat := 3
def stBusy : Nat := 4
def stResource : Nat := 5
def stIntegrity : Nat := 6
def stUnsupported : Nat := 7
def stAborted : Nat := 8

/-- OFF 0, BOOT 1, LOCKED 2, READY 3, SERVICE 4, DEGRADED 5, ZEROISED 6. -/
def State.mstate (s : State) : Nat := s.ctl.mstate

/-- A security record (R483). -/
def State.security (s : State) (ev : Nat) (more : Bytes) : State := s.record 7 0x0050 0 0 (natLe 1 ev ++ more)

/-- A security record with a limit: at most one in so many milliseconds (R483). [DEDUCED log entry 123] -/
def State.securityLimited (s : State) (ev ms : Nat) : State :=
  if (match s.sec.told.get? ev with | some t => decide (s.opMs < t + ms) | none => false) then s
  else (s.modSec fun x => { x with told := x.told.put ev s.opMs }).security ev []

/-- The module changes state (R424, R441): a notice and EVT_SUM.MODULE. -/
def State.toModule (s : State) (m : Nat) : State :=
  if s.ctl.mstate = m then s else
  (({ s with ctl := { s.ctl with mstate := m } }).record 2 0x0002 0 0 (natLe 1 s.ctl.mstate ++ natLe 1 m)).event 7

/-! ### The window (R402 to R404) -/

def gib8 : Nat := 8589934592

/-- A byte range lies within the host region of one backed slot. -/
def State.winOk (s : State) (off n : Nat) : Bool :=
  decide (off / gib8 < Config.nParts) && (s.part (off / gib8)).res.created && decide (n ≤ gib8) && decide (off % gib8 + n ≤ gib8)

/-- The range lies in the intake ring, and starts at a multiple of 4 KiB. -/
def State.intakeOk (s : State) (off n : Nat) : Bool := s.winOk off n && off % 4096 == 0 && decide (off % gib8 + n ≤ 6442450944)
/-- The range lies in the output area. -/
def State.outputOk (s : State) (off n : Nat) : Bool := s.winOk off n && decide (6442450944 ≤ off % gib8)

def State.winRead (s : State) (off n : Nat) : Bytes := memRead (s.part (off / gib8)).img.hbm (off % gib8) n

/-- A write of window bytes by Chokehus (R343, R351). -/
def State.winWrite (s : State) (off : Nat) (d : Bytes) : State := (s.hbmStore (off / gib8) (off % gib8) d).remote (off / gib8) 4 (off % gib8) d.length

/-- The requests of a read of window bytes by Chokehus reach the pseudo-channels (R342, R351). -/
def State.winTouch (s : State) (off n : Nat) : State := s.remote (off / gib8) 4 (off % gib8) n

/-! ### Slots (R413) -/

def State.slot (s : State) (n : Nat) : Bytes := s.host.slots.getD n (zeros 256)
def slotOwn (b : Bytes) : Bool := bit (fld b 0 1) 0
def slotIrq (b : Bytes) : Bool := bit (fld b 0 1) 2
def slotIndirect (b : Bytes) : Bool := bit (fld b 0 1) 3
def slotCode (b : Bytes) : Nat := fld b 2 2
def slotTag (b : Bytes) : Nat := fld b 4 2
def slotPlen (b : Bytes) : Nat := fld b 8 2
def slotSession (b : Bytes) : Nat := fld b 12 4

/-- The inline payload. -/
def slotInline (b : Bytes) : Bytes := sub b 32 (slotPlen b)

/-- The payload: inline, or the window bytes that the descriptor names (R413). -/
def State.payload (s : State) (b : Bytes) : Bytes :=
  if slotIndirect b then s.winRead (fld b 32 8) (fld b 40 4) else slotInline b

/-- The bytes that a descriptor names are read (R342, R351, R413). -/
def State.readPayload (s : State) (b : Bytes) : State :=
  if slotIndirect b && s.intakeOk (fld b 32 8) (fld b 40 4) then s.winTouch (fld b 32 8) (fld b 40 4) else s

/-- The command codes of R421. -/
def codes : List Nat :=
  [0x0001, 0x0002, 0x0003, 0x0010, 0x0020, 0x0021, 0x0101, 0x0102, 0x0103, 0x0104, 0x0105, 0x0106, 0x0107, 0x0108, 0x0109, 0x010A,
   0x010B, 0x0201, 0x0202, 0x0203, 0x0204, 0x0205, 0x0206, 0x0207, 0x0208, 0x0209, 0x0210, 0x0211, 0x0212, 0x0301, 0x0302, 0x0303,
   0x0304, 0x0401, 0x0402, 0x0403, 0x0404, 0x0501, 0x0502, 0x0503, 0x0601, 0x0602, 0x0701, 0x0702, 0x0703, 0x0704, 0x0801]

/-- A code whose command names a partition slot (R415). -/
def codeNames (c : Nat) : Bool := (0x0101 ≤ c && c ≤ 0x010B) || c == 0x0209 || c == 0x0801

/-- The partition that a slot's command names. -/
def State.named (s : State) (b : Bytes) : Option Nat :=
  let p := fld (s.payload b) 0 1
  if codeNames (slotCode b) && decide (p < Config.nParts) then some p else none

/-- A completion message on a vector, subject to the holdoff (R408, R414). Out channel 6. [DEDUCED log entry 106, DESIGN CHOICE log entry 124] -/
def State.vector (s : State) (v : Nat) : State :=
  let h := s.host
  if (match h.vecLast.get? v with | some t => decide (s.opTicks < t + h.holdoff * 2500) | none => false) then
    s.modHost fun h => { h with vecWait := if h.vecWait.contains v then h.vecWait else h.vecWait ++ [v] }
  else (s.modHost fun h => { h with vecLast := h.vecLast.put v s.opTicks }).emit 6 v []

/-- The command of a slot completes (R414) with a status and reply bytes, of which a slot holds 224. [DESIGN CHOICE log entry 54] -/
def State.finish (s : State) (n st : Nat) (answer : Bytes) : State :=
  let reply := answer.take 224
  let b := s.slot n
  let pst := match s.named b with | some p => (s.part p).st.code | none => 15
  let ctrl := fld b 0 1 / 4 % 4 * 4 + 2
  let head := natLe 1 ctrl ++ sub b 1 5 ++ natLe 1 st ++ natLe 1 (s.mstate + 16 * pst) ++ sub b 8 2 ++ natLe 2 reply.length
  let raw := head ++ sub b 12 20 ++ reply ++ sub b (32 + reply.length) (224 - reply.length)
  let s1 := s.modHost fun h => { h with
    slots := h.slots.put n raw, accepted := h.accepted.filter (· != n), waiting := h.waiting.filter (· != n), done := setIns h.done n
    doneAt := h.doneAt.put n s.opTicks }
  if slotIrq b && s.host.cmplIrq && s.host.link then s1.vector (fld b 1 1) else s1

/-- What only the host link loses (R401): the link, BAR decoding, the interrupts' state, USEL, MBX_CTL, MBX_IRQ and EVT_MASK. -/
def State.hostReset (s : State) : State :=
  s.modHost fun h => { h with
    link := false, bars := false, uclass := 1, uindex := 0, en := true, cmplIrq := false, evtIrq := false, holdoff := 0, evtMask := 0x7FF
    vecLast := [], vecWait := [] }

/-! ### The checks of R416 -/

/-- Check 1: the header is well formed. -/
def headerOk (b : Bytes) : Bool :=
  decide (fld b 0 1 < 16) && (if slotIndirect b then slotPlen b == 48 else decide (slotPlen b ≤ 224)) &&
  (!slotIrq b || (decide (1 ≤ fld b 1 1) && decide (fld b 1 1 ≤ 63)))

/-- Check 3: the TAG is distinct among the commands in flight. -/
def State.tagOk (s : State) (n : Nat) (b : Bytes) : Bool :=
  s.host.slots.all fun x => x.1 == n || !slotOwn x.2 || slotTag x.2 != slotTag b

/-- The AUTH field that a command must carry (R469). -/
def authTag (k : Bytes) (n : Nat) (b : Bytes) : Bytes :=
  Config.shake (sub k 0 32 ++ natLe 8 n ++ sub b 1 5 ++ [0, 0] ++ sub b 8 2 ++ [0, 0] ++ sub b 12 4 ++ slotInline b) 16

/-- Check 5: the command carries the open owner session and its tag. -/
def State.authOk (s : State) (n : Nat) (b : Bytes) : Bool :=
  match s.sec.owner with
  | none => false
  | some k => slotSession b == k.num && k.num != 0 && sub b 16 16 == authTag k.keys (s.host.nums.getD n 0) b

/-- A tag failure is counted; sixteen within a minute make a security event, at most one an hour (R483). -/
def State.tagFailed (s : State) : State :=
  let l := (s.sec.tagFails.filter fun t => decide (s.opMs < t + 60000)) ++ [s.opMs]
  let s1 := s.modSec fun x => { x with tagFails := l }
  if 16 ≤ l.length then s1.securityLimited 0x0A 3600000 else s1

/-- The payload of an indirect command: its descriptor is well formed, its bytes are in a backed region, for a partition command its own
partition's (R404); its digest agrees (R405, R413). -/
def State.descOk (s : State) (b : Bytes) : Option Nat :=
  if !slotIndirect b then none
  else if fld b 44 4 != 0 || decide (1073741824 < fld b 40 4) || !s.intakeOk (fld b 32 8) (fld b 40 4) ||
    (0x0101 ≤ slotCode b && slotCode b ≤ 0x010B && fld b 32 8 / gib8 != fld (s.payload b) 0 1) then some stArg
  else if Config.shake (s.winRead (fld b 32 8) (fld b 40 4)) 32 != sub b 48 32 then some stIntegrity
  else none

/-- The slots of commands that have begun and wait for their end (R71 to R73, R334, R415, R521, R534). -/
def State.begun (s : State) : List Nat :=
  (s.parts.flatMap fun x =>
    let q := x.2
    q.ctl.resume ++ q.ctl.stop ++ q.ctl.ckpt ++ q.ck.slots ++ (match q.ck.replay with | some r => [r.slot] | none => []) ++ q.twin.hslot.toList) ++
  s.twin.slot.toList ++ s.twin.parts.map fun x => x.2.1

/-- The command of slot n may begin (R414, R415): it is accepted and has not begun, and no earlier one that names its partition is still to
begin. -/
def State.mayBegin (s : State) (n : Nat) : Bool :=
  let mine := s.named (s.slot n)
  s.host.ready && s.host.accepted.contains n && !s.begun.contains n &&
  !(mine.isSome && (s.host.accepted.takeWhile (· != n)).any fun m => !s.begun.contains m && s.named (s.slot m) == mine)

/-- Chokehus executes the command in slot n (R416) if it may begin and is this row's. `mine`: the payload is of this row's form; `known`:
its form byte is one of the command's; `parts`: for a partition command, the partitions it is legal for; `run`: checks 7 and 8 and
the effect, with the status and reply, or none where it completes later. [DESIGN CHOICE log entry 2] -/
def State.command (s : State) (n code : Nat) (mstates : List Nat) (owner : Bool) (mine known : Bytes → Bool) (parts : Option (Part → Bool))
    (run : Nat → Bytes → State → State × Option (Nat × Bytes)) : State :=
  let b := s.slot n
  let pay := s.payload b
  if !s.mayBegin n then s
  else if !codes.contains (slotCode b) then s.finish n (if headerOk b then stUnsupported else stArg) []
  else if slotCode b != code || (!mine pay && known pay) then s
  else if !headerOk b || !s.tagOk n b then s.finish n stArg []
  else if !mstates.contains s.mstate then s.finish n stState []
  else if owner && !s.authOk n b then s.tagFailed.finish n stAuth []
  else
    let s1 := if owner then s.modSec fun x => { x with owner := x.owner.map fun k => { k with last := s.opMs } } else s
    let named := decide (fld pay 0 1 < Config.nParts)
    if (match parts with | some ok => named && !ok (s.part (fld pay 0 1)) | none => false) then s1.finish n stState []
    else if parts.isSome && !named then s1.finish n stArg []
    else match s.descOk b with
      | some e => s1.finish n e []
      | none =>
        if !known pay then s1.finish n stArg [] else
        match run n pay s1 with
        | (s2, some (st, reply)) => s2.finish n st reply
        | (s2, none) => s2

/-- A form without alternatives. -/
def anyForm : Bytes → Bool := fun _ => true

/-- A refusal at check 7 or 8, without effect. -/
def refuse (s : State) (st : Nat) : State × Option (Nat × Bytes) := (s, some (st, []))
def okReply (s : State) (r : Bytes) : State × Option (Nat × Bytes) := (s, some (stOk, r))

/-- A payload has at least n bytes, and those that the layout reserves are 0 (R420). -/
def payOk (b : Bytes) (n : Nat) (reserved : List (Nat × Nat)) : Bool :=
  decide (n ≤ b.length) && reserved.all fun r => fld b r.1 r.2 == 0

/-- Every slot in a list whose command is in flight completes with a status. -/
def State.finishAll (s : State) (l : List Nat) (st : Nat) (reply : Bytes) : State :=
  l.foldl (fun z n => if z.host.accepted.contains n || z.host.waiting.contains n then z.finish n st reply else z) s

end Sys2Proof.Machine
end

