-- ==== Sys2Proof/Machine/Operands.lean ====
section
/-! DEFINITION. The fields of an engine instruction (R109, R125, R155, R204, R256, R295) and the scalar operands of the sequencer
(R124, R126, R127, R131). -/

namespace Sys2Proof.Machine

/-- Bits [hi:lo] of an instruction. -/
def wbits (w : IWord) (hi lo : Nat) : Nat := bits w.toNat hi lo

/-- The common fields of R109. -/
def wStamp (w : IWord) : Nat := wbits w 19 0
def wWen (w : IWord) : Bool := w.getLsbD 20
def wWflag (w : IWord) : Nat := wbits w 26 21
def wSen (w : IWord) : Bool := w.getLsbD 27
def wSflag (w : IWord) : Nat := wbits w 33 28
def wRsv (w : IWord) : Nat := wbits w 35 34
def wTag (w : IWord) : Nat := wbits w 51 36
def wOp (w : IWord) : Nat := wbits w 59 52
def wMod (w : IWord) : Nat := wbits w 63 60

/-- The sequencer's fields of R125. -/
def sqSd (w : IWord) : Nat := wbits w 68 64
def sqSa (w : IWord) : Nat := wbits w 73 69
def sqSb (w : IWord) : Nat := wbits w 78 74
def sqImmSel (w : IWord) : Bool := w.getLsbD 79
def sqAux (w : IWord) : Nat := wbits w 95 80
def sqImm (w : IWord) : Nat := wbits w 127 96
/-- IMM32 sign-extended to 64 bits (R125). -/
def sqImm64 (w : IWord) : Nat := ofSigned 64 (toSigned 32 (sqImm w))

/-- The opcodes defined for each engine (R126, R154, R201, R255, R294). -/
def engineOps (e : Nat) : List Nat :=
  match e with
  | 0 => [0, 1, 2, 3]
  | 1 => [0x00, 0x01, 0x02, 0x03, 0x04, 0x05, 0x06, 0x07, 0x08, 0x09, 0x0A, 0x10, 0x11, 0x12, 0x13, 0x14,
          0x20, 0x21, 0x22, 0x23, 0x24, 0x30, 0x31, 0x32, 0x33, 0x38, 0x40, 0x41, 0x48]
  | 2 => [0, 1, 3]
  | 3 => [0, 1, 3]
  | 4 => [0, 2]
  | 5 => [0, 1, 2, 3, 4, 8, 9, 0x0A]
  | _ => [0x00, 0x01, 0x02, 0x10, 0x11, 0x20, 0x21, 0x30, 0x40, 0x41, 0x50, 0x70, 0x7F]

/-- A scalar register's value and poison at a cycle (R124): S0 reads 0. -/
def CoreSeq.reg (q : CoreSeq) (r now : Nat) : Nat × Bool :=
  if r = 0 then (0, false) else
  match pendFor q.pend r now with
  | some x => (x.value, x.poison)
  | none => q.regs.getD r (0, false)

/-- A register read before the result latency of the instruction that writes it has passed (R127). -/
def CoreSeq.late (q : CoreSeq) (r now : Nat) : Bool := r != 0 && q.pend.any fun x => x.reg == r && decide (now < x.due)

/-- The second operand B (R125): IMM32 sign-extended, or S[SB]. -/
def CoreSeq.opB (q : CoreSeq) (w : IWord) (now : Nat) : Nat × Bool :=
  if sqImmSel w then (sqImm64 w, false) else q.reg (sqSb w) now

/-- The registers that a sequencer instruction reads (R126, R128): MOD 0xD and 0xE of ALU do not read SA, 0xE reads SD. -/
def sqReads (w : IWord) : List Nat :=
  let b := if sqImmSel w then [] else [sqSb w]
  match wOp w with
  | 0x01 | 0x10 | 0x50 => [sqSa w]
  | 0x11 => [sqSa w, sqSb w]
  | 0x20 => if wMod w = 0xE then [sqSd w] else if wMod w = 0xD then b else sqSa w :: b
  | 0x30 => sqSa w :: b
  | 0x40 | 0x41 => b
  | _ => []

/-- A scalar register is written (R124): writes to S0 are discarded. src: the unit whose detection poisoned the value (R246). -/
def CoreSeq.write (q : CoreSeq) (r v : Nat) (poison : Bool) (due : Nat) (src : Option (Nat × Nat) := none) : CoreSeq :=
  if r = 0 then q else
  { q with pend := q.pend ++ [⟨r, v, poison, due⟩], rsrc := match src with | some u => q.rsrc.put r u | none => q.rsrc }

/-- The unit that poisoned the first poisoned register of a list (R246). -/
def CoreSeq.srcOf (q : CoreSeq) (rs : List Nat) (now : Nat) : Option (Nat × Nat) :=
  (rs.find? fun r => (q.reg r now).2).bind fun r => q.rsrc.get? r

/-- The scratchpad units of a byte run. -/
def unitsOf (a n : Nat) : Nat × Nat := (a / 64, (a + n - 1) / 64)

/-- Any unit of a range is poisoned. -/
def CoreSp.poisoned (m : CoreSp) (r : Nat × Nat) : Bool := m.poison.any fun u => decide (r.1 ≤ u ∧ u ≤ r.2)

/-- The first word of a byte run whose detection code disagrees (R242, log entry 9). -/
def CoreSp.badIn (m : CoreSp) (a n : Nat) : Option Nat := m.bad.find? fun w => decide (a / 8 ≤ w ∧ w ≤ (a + n - 1) / 8)

/-- The image of a partition. [DEDUCED log entry 67] -/
def Part.theImage (q : Part) : Option Image := q.img.image

/-- The unit that poisoned the first poisoned unit of a range (R246). [DEDUCED log entry 79] -/
def CoreSp.srcIn (m : CoreSp) (r : Nat × Nat) : Option (Nat × Nat) :=
  (m.poison.find? fun u => decide (r.1 ≤ u ∧ u ≤ r.2)).bind fun u => m.src.get? u

/-- Poison of a unit after a write (R244): a write of the whole unit sets it, a partial write ORs. POISON_IN counts a poisoned write. -/
def CoreSp.markUnit (m : CoreSp) (u : Nat) (whole p : Bool) (src : Option (Nat × Nat)) : CoreSp :=
  if p then { m with
    poison := setIns m.poison u, poisonIn := satAdd m.poisonIn 1, src := match src with | some x => m.src.put u x | none => m.src }
  else if whole then { m with poison := setDel m.poison u } else m

/-- A write of bytes into the scratchpad (R238, R244): the bytes named change, each unit touched takes its poison, and the detection
codes of the words written agree again. ps: the poison of the data for each unit touched, in order; src: the unit that poisoned it. -/
def CoreSp.store (m : CoreSp) (a : Nat) (d : Bytes) (ps : List Bool) (src : Option (Nat × Nat) := none) : CoreSp :=
  if d.length = 0 then m else
  let r := unitsOf a d.length
  let m1 := (span r.1 r.2).foldl (fun x u =>
    x.markUnit u (decide (a ≤ u * 64 ∧ u * 64 + 64 ≤ a + d.length)) (ps.getD (u - r.1) false) src) m
  { m1 with mem := memWrite m1.mem a d, bad := m1.bad.filter fun w => !decide (a ≤ w * 8 ∧ w * 8 + 8 ≤ a + d.length) }

/-- The content before the first write of a cc is kept to its end (R239). -/
def CoreSp.keep (m : CoreSp) (cc : Nat) : CoreSp :=
  match m.was with
  | some o => if o.cc = cc then m else { m with was := some ⟨cc, m.mem, m.poison, m.bad⟩ }
  | none => { m with was := some ⟨cc, m.mem, m.poison, m.bad⟩ }

/-- What a read in a cc sees (R239): the content before the writes of that cc. -/
def CoreSp.seen (m : CoreSp) (cc : Nat) : CoreSp :=
  match m.was with
  | some o => if o.cc = cc then { m with mem := o.mem, poison := o.poison, bad := o.bad } else m
  | none => m

/-- A write in a cc (R238, R239, R244). -/
def CoreSp.write (m : CoreSp) (cc a : Nat) (d : Bytes) (ps : List Bool) (src : Option (Nat × Nat) := none) : CoreSp := (m.keep cc).store a d ps src

/-- The flight of an engine with an issue count. -/
def Core.flightOf (k : Core) (e n : Nat) : Option Flight := k.flights.find? fun f => f.eng == e && f.issueNo == n

/-- Counters of a core rise by the amounts named, saturating at 2^32 - 1 (R175, R199, R235). -/
def Core.count (k : Core) (l : List (Nat × Nat)) : Core :=
  { k with cnt := l.foldl (fun t x => if x.2 = 0 then t else t.put x.1 (satAdd (t.getD x.1 0) x.2)) k.cnt }

/-- One write of an instruction reaches scratchpad in a cc, and counts. -/
def Core.land (k : Core) (cc : Nat) (w : PWrite) : Core := ({ k with sp := k.sp.write cc w.addr w.data w.poison w.src }).count w.cnt

end Sys2Proof.Machine
end

