-- ==== Sys2Proof/Machine/Formats.lean ====
section
/-! DEFINITION. Number formats, rounding and conversion (06), exact arithmetic on values, and the derived clip bounds of the drain. -/

namespace Sys2Proof.Machine

/-- The value of an element. A NaN carries its sign and its fraction, left-aligned to 23 bits. A finite value is m × 2^e, plus less than
2^e when sticky is set (an inexact value of which only the rounding matters). -/
inductive Val where
  | nan (neg : Bool) (frac : Nat)
  | inf (neg : Bool)
  | fin (neg : Bool) (m : Nat) (e : Int) (sticky : Bool)
  deriving DecidableEq, Repr

/-- The canonical NaN (R180). -/
def Val.canon : Val := .nan false 0x400000
def Val.zero (neg : Bool) : Val := .fin neg 0 0 false
def Val.isNan : Val → Bool | .nan _ _ => true | _ => false
def Val.isInf : Val → Bool | .inf _ => true | _ => false
def Val.isZero : Val → Bool | .fin _ 0 _ false => true | _ => false
def Val.neg? : Val → Bool | .nan n _ => n | .inf n => n | .fin n _ _ _ => n
def Val.ofInt (i : Int) : Val := .fin (i < 0) i.natAbs 0 false

/-- Bits of an element of a format (R152, R176). -/
def fmtBits (f : Nat) : Nat :=
  match f with
  | 0 | 1 => 4
  | 2 | 3 | 4 | 5 => 8
  | 6 | 7 | 9 => 16
  | 8 | 10 => 32
  | _ => 128

/-- Bytes of n packed elements (R178). -/
def fmtBytes (f n : Nat) : Nat := (n * fmtBits f + 7) / 8

/-- Exponent bits, fraction bits, bias, has infinities, of a floating-point format (R176). -/
def fltParams (f : Nat) : Option (Nat × Nat × Nat × Bool) :=
  match f with
  | 0 => some (2, 1, 1, false)
  | 2 => some (4, 3, 7, false)
  | 3 => some (5, 2, 15, true)
  | 6 => some (8, 7, 127, true)
  | 7 => some (5, 10, 15, true)
  | 8 => some (8, 23, 127, true)
  | _ => none

/-- Smallest and largest value of an integer format (R176). -/
def intRange (f : Nat) : Int × Int :=
  match f with
  | 1 => (-8, 7)
  | 4 => (-128, 127)
  | 5 => (0, 255)
  | 9 => (-32768, 32767)
  | _ => (-2147483648, 2147483647)

/-- The code of the largest finite magnitude of a floating-point format (R176). -/
def maxFin (f : Nat) : Nat :=
  match f with
  | 0 => 7
  | 2 => 0x7E
  | 3 => 0x7B
  | 6 => 0x7F7F
  | 7 => 0x7BFF
  | _ => 0x7F7FFFFF

/-- The value of a finite magnitude code: m × 2^e (R177). -/
def magVal (mb bias c : Nat) : Nat × Int :=
  let e := c / 2 ^ mb
  let f := c % 2 ^ mb
  if e = 0 then (f, 1 - (bias : Int) - mb) else (2 ^ mb + f, (e : Int) - bias - mb)

/-- The value of an element (R177, R178, R180). -/
def decodeVal (f x : Nat) : Val :=
  match fltParams f with
  | none => if f = 5 then .ofInt (x % 256) else .ofInt (toSigned (fmtBits f) x)
  | some (eb, mb, bias, _) =>
    let neg := bit x (eb + mb)
    let c := x % 2 ^ (eb + mb)
    if f = 2 ∧ c = 0x7F then .nan neg 0
    else if f ≠ 0 ∧ f ≠ 2 ∧ (2 ^ eb - 1) * 2 ^ mb ≤ c then
      if c = (2 ^ eb - 1) * 2 ^ mb then .inf neg else .nan neg (c % 2 ^ mb * 2 ^ (23 - mb))
    else let v := magVal mb bias c; .fin neg v.1 v.2 false

/-- m × 2^e rounded to a whole number of 2^q, to nearest, ties to even (R183). -/
def roundTo (m : Nat) (e : Int) (sticky : Bool) (q : Int) : Nat :=
  if q ≤ e then m * 2 ^ (e - q).toNat
  else
    let sh := (q - e).toNat
    let hi := m / 2 ^ sh
    let rem := m % 2 ^ sh
    let half := 2 ^ (sh - 1)
    if half < rem ∨ (rem = half ∧ (sticky ∨ hi % 2 = 1)) then hi + 1 else hi

/-- Exponent of the unit in the last place for a magnitude m × 2^e, m not 0: the subnormal grid below the smallest normal (R183). -/
def quantum (mb bias m : Nat) (e : Int) : Int := max ((Nat.log2 m : Int) + e - mb) (1 - (bias : Int) - mb)

/-- The magnitude code of n × 2^q, where 2^q is the unit in the last place. -/
def magCode (mb bias n : Nat) (q : Int) : Nat := (q - (1 - (bias : Int) - mb)).toNat * 2 ^ mb + n

/-- What a conversion gives: the code; finite overflow or clamp; made finite (R190); NaN lost; flushed (R187). [DEDUCED log entry 68] -/
structure CvtRes where
  code : Nat
  past : Bool
  madeFin : Bool
  nanLost : Bool
  flush : Bool
  deriving DecidableEq, Repr

def CvtRes.plain (c : Nat) : CvtRes := ⟨c, false, false, false, false⟩

/-- A NaN in a floating-point format that has NaNs (R168, R188): canonical in fast mode; else its sign, and the top of its fraction with
the quiet bit set. -/
def nanCode (f : Nat) (strict neg : Bool) (frac : Nat) : Nat :=
  match fltParams f with
  | none => 0
  | some (eb, mb, _, _) =>
    let sgn := if strict && neg then 2 ^ (eb + mb) else 0
    if f = 2 then sgn + 0x7F
    else
      let fr := if strict then frac / 2 ^ (23 - mb) else 2 ^ (mb - 1)
      let q := if fr / 2 ^ (mb - 1) % 2 = 1 then fr else fr + 2 ^ (mb - 1)
      sgn + (2 ^ eb - 1) * 2 ^ mb + q

/-- Rounding of a value into a format (R168, R183, R184, R187, R189, R190). -/
def roundVal (f : Nat) (strict sat : Bool) (v : Val) : CvtRes :=
  match fltParams f with
  | none =>
    let r := intRange f
    let w := fmtBits f
    match v with
    | .nan _ _ => ⟨0, false, false, true, false⟩
    | .inf n => ⟨ofSigned w (if n then r.1 else r.2), false, true, false, false⟩
    | .fin n m e st =>
      let k : Int := roundTo m e st 0
      let i := if n then -k else k
      if i < r.1 then ⟨ofSigned w r.1, true, true, false, false⟩
      else if r.2 < i then ⟨ofSigned w r.2, true, true, false, false⟩
      else .plain (ofSigned w i)
  | some (eb, mb, bias, hasInf) =>
    let sgn (n : Bool) := if n then 2 ^ (eb + mb) else 0
    match v with
    | .nan n fr => if f = 0 then ⟨0, false, false, true, false⟩ else .plain (nanCode f strict n fr)
    | .inf n => if hasInf && !sat then .plain (sgn n + (2 ^ eb - 1) * 2 ^ mb) else ⟨sgn n + maxFin f, false, true, false, false⟩
    | .fin n m e st =>
      if m = 0 then .plain (sgn n)
      else
        let q := quantum mb bias m e
        let k := roundTo m e st q
        let c := magCode mb bias k q
        if maxFin f < c then
          if hasInf && !sat then ⟨sgn n + (2 ^ eb - 1) * 2 ^ mb, true, false, false, false⟩ else ⟨sgn n + maxFin f, true, true, false, false⟩
        else if !strict && (f == 6 || f == 7 || f == 8) && c != 0 && decide (c < 2 ^ mb) then ⟨sgn n, false, false, false, true⟩
        else .plain (sgn n + c)

/-- A conversion of R189: the same format copies the element (R192). -/
def convert (src dst : Nat) (strict sat : Bool) (x : Nat) : CvtRes :=
  if src = dst then .plain x else roundVal dst strict sat (decodeVal src x)

/-! ### Exact arithmetic -/

/-- The signed integer of a finite value at exponent q, q at most its own. -/
def scaled (n : Bool) (m : Nat) (e q : Int) : Int := let k : Int := m * 2 ^ (e - q).toNat; if n then -k else k

/-- The exact product of two values that are not NaNs; an invalid product is the canonical NaN (R186). -/
def Val.mul : Val → Val → Val
  | .nan n f, _ => .nan n f
  | _, .nan n f => .nan n f
  | .inf a, .inf b => .inf (a != b)
  | .inf a, .fin b m _ _ => if m = 0 then .canon else .inf (a != b)
  | .fin a m _ _, .inf b => if m = 0 then .canon else .inf (a != b)
  | .fin a m e _, .fin b m' e' _ => .fin (a != b) (m * m') (e + e') false

/-- The exact sum (R186): an exact zero of opposite-signed terms is +0. -/
def Val.add : Val → Val → Val
  | .nan n f, _ => .nan n f
  | _, .nan n f => .nan n f
  | .inf a, .inf b => if a = b then .inf a else .canon
  | .inf a, _ => .inf a
  | _, .inf b => .inf b
  | .fin a m e _, .fin b m' e' _ =>
    let q := min e e'
    let i := scaled a m e q + scaled b m' e' q
    if i = 0 then .zero (if m = 0 ∧ m' = 0 then a && b else false) else .fin (i < 0) i.natAbs q false

def Val.negate : Val → Val
  | .nan n f => .nan (!n) f
  | .inf n => .inf (!n)
  | .fin n m e s => .fin (!n) m e s

/-- The first NaN of a list (R188). -/
def firstNan (l : List Val) : Option Val := l.find? Val.isNan

/-- x × y + z with no rounding; of several NaN operands the first of the list `order` (R151, R168, R188). -/
def fmaExact (order : List Val) (x y z : Val) : Val :=
  match firstNan order with
  | some v => v
  | none => (x.mul y).add z

/-- The order key of a code of a format: codes compare as their values, both zeros equal. -/
def codeKey (f c : Nat) : Int :=
  match fltParams f with
  | none => if f = 5 then (c % 256 : Nat) else toSigned (fmtBits f) c
  | some (eb, mb, _, _) => if bit c (eb + mb) then -((c % 2 ^ (eb + mb) : Nat) : Int) else ((c % 2 ^ (eb + mb) : Nat) : Int)

/-- A code is a NaN of its format. -/
def codeNan (f c : Nat) : Bool := (decodeVal f c).isNan

/-- The magnitude code next to m × 2^e towards zero, or away from it. -/
def magTrunc (mb bias m : Nat) (e : Int) (away : Bool) : Nat :=
  if m = 0 then 0 else
  let q := quantum mb bias m e
  if q ≤ e then magCode mb bias (m * 2 ^ (e - q).toNat) q
  else
    let sh := (q - e).toNat
    let hi := m / 2 ^ sh
    magCode mb bias (if away && m % 2 ^ sh != 0 then hi + 1 else hi) q

/-- The bound of R169: for up the largest value of the format that is at most a bound, else the smallest that is at least it. The bound
is a binary32 code that is not a NaN. Of two zeros the bound's own sign is taken. -/
def clipBound (f bound : Nat) (up : Bool) : Nat :=
  match fltParams f with
  | none =>
    let r := intRange f
    let w := fmtBits f
    match decodeVal 8 bound with
    | .inf n => ofSigned w (if n then r.1 else r.2)
    | .fin n m e _ =>
      let k : Int := if 0 ≤ e then m * 2 ^ e.toNat else m / 2 ^ (-e).toNat
      let frac := decide (e < 0) && m % 2 ^ (-e).toNat != 0
      let i := if n then -(k + (if frac && up then 1 else 0)) else k + (if frac && !up then 1 else 0)
      ofSigned w (max r.1 (min r.2 i))
    | .nan _ _ => 0
  | some (eb, mb, bias, hasInf) =>
    let sgn (n : Bool) := if n then 2 ^ (eb + mb) else 0
    let infC := (2 ^ eb - 1) * 2 ^ mb
    match decodeVal 8 bound with
    | .inf n => sgn n + if hasInf then infC else maxFin f
    | .fin n m e _ =>
      let away := n == up
      let c := magTrunc mb bias m e away
      if maxFin f < c then sgn n + (if away && hasInf then infC else maxFin f) else sgn n + c
    | .nan _ _ => 0

/-- The clip of R169: the code, and whether it changed. -/
def clip (f lo hi c : Nat) : Nat × Bool :=
  if codeNan f c then (c, false)
  else if codeKey f hi < codeKey f c then (hi, true)
  else if codeKey f c < codeKey f lo then (lo, true)
  else (c, false)

/-! ### Packed elements -/

/-- Element n of a packed run (R178). -/
def elemAt (f : Nat) (bs : Bytes) (n : Nat) : Nat :=
  if fmtBits f = 4 then (bs.getD (n / 2) 0).toNat / (if n % 2 = 0 then 1 else 16) % 16
  else fld bs (n * (fmtBits f / 8)) (fmtBits f / 8)

/-- Packing of elements (R178): an odd last 4-bit element leaves the high bits 0. -/
def packElems (f : Nat) (l : List Nat) : Bytes :=
  if fmtBits f = 4 then (List.range ((l.length + 1) / 2)).map fun i => BitVec.ofNat 8 (l.getD (2 * i) 0 % 16 + 16 * (l.getD (2 * i + 1) 0 % 16))
  else l.flatMap fun x => natLe (fmtBits f / 8) x

end Sys2Proof.Machine
end

