-- ==== Sys2Proof/Machine/Network.lean ====
section
/-! DEFINITION. The on-module networks (R271 to R283): where endpoints and dies stand, routes, the routers that carry flits in queued mode and on lane 3,
and the memory network. Nodes are compute dies 0 to 287; 288 and 289 are the root die as the nodes (-1, 8) and (-1, 9) (R272). -/

namespace Sys2Proof.Machine

/-! ### Places and routes -/

/-- Column and row of an endpoint's die (R14, R272). -/
def Part.posOf (q : Part) (ep : Nat) : Int × Int :=
  if ep < 1008 then let d := q.res.place.getD ep 0 / 2; ((d % 16 : Nat), (d / 16 : Nat)) else (-1, 8 + ((ep - 1008) % 2 : Nat))

/-- Links between two endpoints (R272). -/
def Part.hops (q : Part) (a b : Nat) : Nat :=
  let x := q.posOf a
  let y := q.posOf b
  (x.1 - y.1).natAbs + (x.2 - y.2).natAbs

/-- The node of an endpoint. -/
def Part.nodeOf (q : Part) (ep : Nat) : Nat := if ep < 1008 then q.res.place.getD ep 0 / 2 else 288 + (ep - 1008) % 2

def State.die (s : State) (d : Nat) : Die := s.dies.getD d {}
def State.modDie (s : State) (d : Nat) (f : Die → Die) : State := { s with dies := s.dies.put d (f (s.die d)) }

/-- A die belongs to a partition: its block, or an assigned row, or a mapped core of it (R47, R48). -/
def Part.hasDie (q : Part) (d : Nat) : Bool := (q.res.place.any fun c => c / 2 == d) || (decide (d < 288) && q.res.rows.contains (d / 16))

/-- Traffic to and from Culm cores travels on lane 3 (R271, R301). [DEDUCED log entry 76] -/
def lane3 (a b : Nat) : Bool := decide (1008 ≤ a) || decide (1008 ≤ b)

/-- The flit keeps the cycle-exact times of slotted mode (R274): on lanes 0 to 2. -/
def Flit.timed (q : Part) (f : Flit) : Bool := q.slotted && !lane3 f.src f.dst && !f.retried

/-- The flit belongs to the reply network (R271): grants, acknowledgements, remote read data, and what reply rings receive. -/
def Flit.reply (f : Flit) : Bool :=
  f.kind == 1 || f.kind == 3 || f.kind == 5 || ((f.kind == 0 || f.kind == 2) && decide (16 ≤ f.nums.getD 0 0))

/-! ### Routers of the data network in queued mode and on lane 3 (R279, R282) -/

/-- The output of a node that a flit takes (R276): a link, or the ejection to its core. -/
def Flit.outPort (q : Part) (d : Nat) (f : Flit) : Nat :=
  let p := portTo (nodePos d) (q.posOf f.dst)
  if p = 4 then (if f.dst < 1008 then 4 + q.res.place.getD f.dst 0 % 2 else 4) else p

/-- The lanes that a flit may take on an output (R271, R273): lane 3 off its partition's links; at its destination the lane that it came on. -/
def Flit.lanesFor (q : Part) (d src lane port : Nat) (f : Flit) : List Nat :=
  if (q.slotted && f.retried) || lane3 f.src f.dst then [3]
  else if port < 4 then (if q.hasDie d && q.hasDie (acrossLink d port).1 then (if f.reply then [1, 2] else [0, 2]) else [3])
  else if src ≤ 4 then [lane] else if f.reply then [1, 2] else [0, 2]

/-- A flit at a router input that queued rules carry: partition, place in its network, node, input, lane, flit. An injection port offers nothing while its
partition is held, nor before its cycle (R279). -/
structure Waiter where
  part : Nat
  pos : Nat
  node : Nat
  src : Nat
  lane : Nat
  flit : Flit
  deriving DecidableEq, Repr

/-- The order key of a flit in its input. -/
def Waiter.key (w : Waiter) : Nat := if 5 ≤ w.src then w.flit.at_ else match w.flit.loc with | some (_, _, _, t) => t | none => 0

/-- Two flits wait in one input buffer, or at one injection port. -/
def Waiter.same (a b : Waiter) : Bool :=
  a.node == b.node && a.src == b.src && a.lane == b.lane && (a.src ≤ 4 || (a.part == b.part && a.flit.src == b.flit.src))

/-- The flits at the head of the routers' inputs in the present cycle. -/
def State.heads (s : State) : List Waiter :=
  let all := (List.range Config.nParts).flatMap fun p =>
    let q := s.part p
    (List.range q.run.net.length).filterMap fun n => match q.run.net[n]? with
      | none => none
      | some f => match f.loc with
        | none => none
        | some (d, src, lane, t) =>
          if f.timed q || f.pull.isSome then none
          else if 5 ≤ src then (if q.run.stepRun && !q.run.held && decide (f.at_ ≤ q.run.stepCyc) then some ⟨p, n, d, src, lane, f⟩ else none)
          else if t ≤ s.cc then some ⟨p, n, d, src, lane, f⟩ else none
  all.filter fun w => !(all.any fun v => v.same w && (decide (v.key < w.key) || (v.key == w.key && (decide (v.part < w.part) || (v.part == w.part && decide (v.pos < w.pos))))))

/-- Flits in an input buffer, those on the way to it included: it holds 16 (R282). -/
def State.buffered (s : State) (d src lane : Nat) : Nat :=
  ((List.range Config.nParts).map fun p =>
    ((s.part p).run.net.filter fun f => match f.loc with | some (e, r, l, _) => e == d && r == src && l == lane | none => false).length).sum

/-- The partition that a die belongs to. -/
def State.dieOwner (s : State) (d : Nat) : Option Nat := (List.range Config.nParts).find? fun p => (s.part p).hasDie d

/-- The turn of a waiting flit at an output lane, less is sooner (R282): the rotation of the inputs; on lane 2 replies before requests; on lane 3 transit
flits of other partitions before the owner's, and the rotation of the partitions. -/
def State.turnOf (s : State) (port lane : Nat) (w : Waiter) : Nat :=
  let t := (s.die w.node).turn
  let rot := (4 * w.src + w.lane + 64 - (t.getD (8 * port + lane) 0 + 1) % 64) % 64
  if lane = 2 then rot + (if w.flit.reply then 0 else 64)
  else if lane = 3 then rot + 64 * ((w.part + 8 - (t.getD (64 + port) 0 + 1) % 8) % 8) + (if s.dieOwner w.node = some w.part then 512 else 0)
  else rot

/-- The flit of least turn. -/
def State.chooseTurn (s : State) (port lane : Nat) (l : List Waiter) : Option Waiter :=
  l.foldl (fun best w => match best with
    | none => some w
    | some b => if s.turnOf port lane w < s.turnOf port lane b then some w else some b) none

/-- One output lane of a node in one cycle (R271, R282): a flit leaves where the next input has room, three cycles a link; at its destination it goes to
its interface, and `at_` becomes the injection cycle that R274 would give without the waits (R283). NET_TRANSIT counts lane 3 (R304). -/
def State.grantLane (hs : List Waiter) (d port : Nat) (s : State) (lane : Nat) : State :=
  let nxt := acrossLink d port
  let ready := hs.filter fun w => w.node == d && decide (w.flit.outPort (s.part w.part) d = port) &&
    (w.flit.lanesFor (s.part w.part) d w.src w.lane port).contains lane && (s.part w.part).run.net[w.pos]? == some w.flit &&
    (decide (4 ≤ port) || decide (s.buffered nxt.1 nxt.2 lane < 16))
  match s.chooseTurn port lane ready with
  | none => s
  | some w =>
    let r := (s.part w.part).run
    let f1 := if 4 ≤ port then { w.flit with loc := none, at_ := if r.held then w.flit.at_ else max w.flit.at_ (r.stepCyc - 3 * w.flit.hops) }
      else { w.flit with loc := some (nxt.1, nxt.2, lane, s.cc + 3) }
    (s.modRun w.part fun r => { r with net := r.net.set w.pos f1 }).modDie d fun x => { x with
      turn := (x.turn.put (8 * port + lane) (4 * w.src + w.lane)).put (64 + port) w.part
      transit := if lane = 3 ∧ port < 4 ∧ d < 288 then satAdd x.transit 1 else x.transit }

/-- The routers in one cycle. -/
def State.routers (s : State) : State :=
  let hs := s.heads
  let ds := (hs.map Waiter.node).eraseDups
  ds.foldl (fun t d => (List.range 6).foldl (fun t port => (List.range 4).foldl (State.grantLane hs d port) t) t) s

/-! ### The memory network (R275) -/

/-- The deadline of R267 of a unit of a stream, in logical cycles: kind 0 a LOAD unit, 1 a STORE unit. -/
def mDeadline (kind due : Nat) : Nat := if kind = mWrite then due + 1104 else due - 96

/-- A flit has come to the end of its path. -/
def MFlit.here (f : MFlit) (cc : Nat) : Bool := f.path.isEmpty && decide (f.since ≤ cc)

/-- The flits of one unit of a stream instruction. -/
def MFlit.of (f : MFlit) (who : Nat × Nat × Nat × Nat) : Bool := f.who == who && f.kind != mRemote

/-- The flits of a unit of a stream, one for each 64-byte HBM unit of a byte run: requests or write data to the controllers. -/
def State.mRequest (s : State) (p kind : Nat) (who : Nat × Nat × Nat × Nat) (o n deadline : Nat) : State :=
  (unitsIn o n).foldl (fun z u => match z.pcOf (z.part p) (u * 64) with
    | some (i, _) => z.mSend { part := p, kind := kind, who := who, unit := u, deadline := deadline, path := pathOut (who.1 / 2) (i / 32), since := z.cc + 1 }
    | none => z) s

/-- The controller answers the flits of a kind that have come to it for a unit (R275): read data, or acknowledgements, go back column first. -/
def State.mAnswer (s : State) (kind reply : Nat) (hit : MFlit → Bool) : State :=
  let turn := fun (f : MFlit) => match s.pcOf (s.part f.part) (f.unit * 64) with
    | some (i, _) => { f with kind := reply, path := pathBack (i / 32) (f.who.1 / 2), since := s.cc + 1 }
    | none => f
  { s with hbm := { s.hbm with net := s.hbm.net.map fun f => if f.kind == kind && f.here s.cc && hit f then turn f else f } }

/-- Flits of a unit are still on their way, or waiting for the controller. -/
def State.mPending (s : State) (who : Nat × Nat × Nat × Nat) (done : Nat) : Bool :=
  s.hbm.net.any fun f => f.of who && !(f.kind == done && f.here s.cc)

/-- The flits of a unit leave the network. -/
def State.mTake (s : State) (who : Nat × Nat × Nat × Nat) : State :=
  { s with hbm := { s.hbm with net := s.hbm.net.filter fun f => !f.of who } }

/-- The flit of a partition with the earliest deadline; the oldest of those without one comes last (R275). -/
def earliest (p : Nat) (l : List MFlit) : Option MFlit :=
  (l.filter fun f => f.part == p).foldl (fun best f => match best with
    | none => some f
    | some b => if f.kind != mRemote && (b.kind == mRemote || decide (f.deadline < b.deadline)) then some f else some b) none

/-- Up to n grants of a link over at most `fuel` turns from a slice number (R275): the flits granted, in order, and the slice at which the rotation stops. -/
def linkGrants (holder : Nat → Option Nat) : Nat → Nat → Nat → List MFlit → List MFlit × Nat
  | 0, _, k, _ => ([], k)
  | fuel + 1, n, k, l =>
    if n = 0 || l.isEmpty then ([], k) else
    match (match holder k with | some p => earliest p l | none => none) with
    | some f => let r := linkGrants holder fuel (n - 1) ((k + 1) % 31) (l.erase f); (f :: r.1, r.2)
    | none => linkGrants holder fuel n ((k + 1) % 31) l

/-- The partition that holds a slice. -/
def State.holderOf (s : State) (k : Nat) : Option Nat := (List.range Config.nParts).find? fun p => (s.part p).res.created && bit (s.part p).res.slices k

/-- One memory-network link in one cycle: 16 flits, each in three cycles at the next node. [DESIGN CHOICE log entry 146] -/
def State.memLink (s : State) (link : Nat) : State :=
  let w := s.hbm.net.filter fun f => f.path.head? == some link && decide (f.since ≤ s.cc)
  let g := linkGrants s.holderOf 496 16 (s.hbm.turns.getD link 0) w
  { s with hbm := { s.hbm with
      turns := s.hbm.turns.put link g.2
      net := s.hbm.net.map fun f => if g.1.contains f then { f with path := f.path.tail, since := s.cc + 3 } else f } }

/-- The memory network in one cycle; a REMOTE request that has come to its controller waits there (R351). -/
def State.memNet (s : State) : State :=
  let ls := ((s.hbm.net.filter fun f => decide (f.since ≤ s.cc)).filterMap fun f => f.path.head?).eraseDups
  let s1 := ls.foldl State.memLink s
  let due := s1.hbm.net.filter fun f => f.kind == mRemote && f.here s1.cc
  if due.isEmpty then s1 else
  due.foldl (fun z f => match z.pcOf (z.part f.part) (f.unit * 64) with
    | some (i, _) => z.modPc i fun c => { c with queue := c.queue ++ [⟨f.who.2.1, f.part, f.unit⟩] }
    | none => z) { s1 with hbm := { s1.hbm with net := s1.hbm.net.filter fun f => !(f.kind == mRemote && f.here s1.cc) } }

end Sys2Proof.Machine
end

