-- ==== Sys2Proof/Machine/Rachis.lean ====
section
/-! DEFINITION. Records on the Rachis link (R517 to R519), the disabled-unit map (R437, R530), the bit-identity record (R324 to R327) and the
measurement registers (R464). -/

namespace Sys2Proof.Machine

def State.modTwin (s : State) (f : Twin → Twin) : State := { s with twin := f s.twin }

/-- Bits set in a mask of w bits. -/
def popcount (w x : Nat) : Nat := ((List.range w).filter fun i => bit x i).length

/-- The twin link is up with at least 8 healthy lanes aligned (R517). -/
def State.linkUp (s : State) : Bool := decide (8 ≤ popcount 16 s.twin.lanes)

/-- The pair is made and its link is up. -/
def State.paired (s : State) : Bool := s.twin.pair == 2 && s.linkUp

/-- Our direction key of the pair (R520): the low module sends under the first half of K. -/
def State.rachisKey (s : State) : Bytes := if leNat Config.serial.reverse < leNat s.twin.partner.reverse then sub s.twin.keys 0 32 else sub s.twin.keys 32 32

/-- The header of a record (R518). -/
def rachisHeader (kind counter : Nat) : Bytes := natLe 4 0x5852394B ++ [BitVec.ofNat 8 kind, 0, 0, 0] ++ natLe 8 counter

/-- A record leaves on the Rachis link (R518): sealed for kinds 1 and 2. Out channel 8. -/
def State.rachis (s : State) (kind : Nat) (body : Bytes) : State :=
  if !s.linkUp then s else
  let h := rachisHeader kind s.twin.tx
  let b := if kind = 3 then body else Config.gcm s.rachisKey (natLe 8 s.twin.tx ++ zeros 4) h body
  (s.modTwin fun t => { t with tx := t.tx + 1 }).emit 8 kind (h ++ b)

/-- The header of a twin block (R519). [DESIGN CHOICE log entry 43] -/
def blockHeader (kind part step off total len : Nat) : Bytes :=
  natLe 4 0x4254394B ++ [BitVec.ofNat 8 kind, BitVec.ofNat 8 part, 0, 0] ++ natLe 8 step ++ natLe 8 off ++ natLe 8 total ++ natLe 4 len ++ zeros 28

/-- An object leaves as twin blocks of at most 65,536 bytes of data (R519): the data cut from offset o. -/
def State.sendBlocks (s : State) (kind part step total : Nat) : Nat → Nat → Bytes → State
  | 0, _, _ => s
  | n + 1, o, d =>
    let x := d.take 65536
    let s1 := s.rachis (if kind = 1 then 3 else 2) (blockHeader kind part step o total x.length ++ x)
    if d.length ≤ 65536 then s1 else s1.sendBlocks kind part step total n (o + 65536) (d.drop 65536)

def State.sendObject (s : State) (kind part step : Nat) (d : Bytes) : State := s.sendBlocks kind part step d.length (d.length / 65536 + 1) 0 d

/-! ### The bit-identity record -/

/-- A unit is in the disabled-unit map (R437), retirements that act without a record (R438) included. -/
def State.disabled (s : State) (cls idx : Nat) : Bool :=
  ((s.units.recs ++ s.units.extra).any fun r => r.kind != 4 && r.cls == cls && r.idx == idx) || s.units.overlay.contains (cls, idx)

/-- Determinism class of a B0 part (R325). -/
def detClass : Nat := 0x1B0

/-- The canonical form of a disabled-unit map (R530). -/
def canonMap (us : List (Nat × Nat)) : Bytes :=
  natLe 4 us.length ++ us.flatMap fun u => [BitVec.ofNat 8 u.1, 0] ++ natLe 2 u.2

/-- The units of classes 0x01 and 0x03 in the disabled-unit map, ascending, each once (R530). -/
def State.mapUnits (s : State) : List (Nat × Nat) :=
  ((List.range Config.nCores).filter fun i => s.disabled 1 i).map (fun i => (1, i)) ++
  ((List.range 1024).filter fun i => s.disabled 3 i).map fun i => (3, i)

/-- The 256-byte record of an image (R324). -/
def State.birRecord (s : State) (g : Image) : Bytes :=
  natLe 4 0x4942394B ++ natLe 2 1 ++ sub g.header 6 2 ++ natLe 4 detClass ++ zeros 4 ++ sub g.header 32 64 ++ fit 64 s.sec.fw.sig ++
  Config.shake (canonMap s.mapUnits) 64 ++ zeros 48

/-- The record of a partition, zeros while no image is loaded (R476). -/
def State.bir (s : State) (p : Nat) : Bytes := match (s.part p).img.image with | some g => s.birRecord g | none => zeros 256

/-- The digests are formed again after a change of the map or of the datapath signature (R324, R327). -/
def State.rebir (s : State) : State :=
  (List.range Config.nParts).foldl (fun z p => match (z.part p).img.image with
    | some g => z.modCnt p fun c => { c with bir := Config.shake (s.birRecord g) 32 }
    | none => z) s

/-! ### Measurement registers (R464) -/

/-- Register i is extended with a code and data. [DESIGN CHOICE log entry 31] -/
def State.extend (s : State) (i code : Nat) (data : Bytes) : State :=
  { s with sec := { s.sec with meas := (List.range 8).map fun k =>
      let m := s.sec.meas.getD k (zeros 64)
      if k = i then Config.shake (m ++ natLe 2 code ++ data) 64 else m } }

/-- A retirement changes the map (R324, R464, R531): the records are formed again, M6 is extended, and a paired module sends its map. -/
def State.mapChanged (s : State) : State :=
  let s1 := s.rebir.extend 6 9 (Config.shake (canonMap s.mapUnits) 64)
  if s1.paired then s1.sendObject 4 0 0 (canonMap s1.mapUnits) else s1

end Sys2Proof.Machine
end

