-- ==== Sys2Proof/Machine/Units.lean ====
section
/-! DEFINITION. Charges and retirement of units (R437, R438, R501, R502, R506). -/

namespace Sys2Proof.Machine

/-- 72 operating hours in milliseconds. -/
def hours72 : Nat := 259200000

/-- UNIT_STAT.CHARGED (R501): charges in the last 72 operating hours. -/
def State.charged (s : State) (cls idx : Nat) : Nat :=
  (s.units.charges.filter fun x => x.1 == cls && x.2.1 == idx && decide (s.opMs ≤ x.2.2 + hours72)).length

/-- UNIT_CHARGE.LIFE (R501). -/
def State.chargeLife (s : State) (cls idx : Nat) : Nat := (s.units.charges.filter fun x => x.1 == cls && x.2.1 == idx).length

/-- The 16 bytes of a record without its COMMIT byte, as Stook's DATA (R437). -/
def DisRec.bytes (r : DisRec) : Bytes :=
  natLe 1 r.kind ++ natLe 1 r.cls ++ natLe 2 r.idx ++ natLe 4 r.detail ++ natLe 5 r.time ++ [0, 0, 0xA5]

/-- A physical core is healthy (R51). -/
def State.healthy (s : State) (c : Nat) : Bool := !s.disabled 1 c

/-- Physical cores mapped by partitions other than p. -/
def State.mapped (s : State) (p : Nat) : List Nat :=
  (List.range Config.nParts).flatMap fun i => if i = p then [] else (s.part i).res.place

/-- A core disabled by union alone, kind 0x06, leaves the healthy set only when no partition holds it (R531). -/
def State.unionHeld (s : State) (p c : Nat) : Bool :=
  !(s.units.recs ++ s.units.extra).any (fun r => r.kind != 4 && r.kind != 6 && r.cls == 1 && r.idx == c) && !s.units.overlay.contains (1, c) && (s.mapped p).contains c

/-- Healthy cores (R51), a restart of partition p apart. -/
def State.healthyAt (s : State) (p : Nat) : Nat := ((List.range Config.nCores).filter fun c => s.healthy c || s.unionHeld p c).length
def State.healthyCount (s : State) : Nat := s.healthyAt 8

/-- A cause of DEGRADED arises (R424). -/
def State.degrade (s : State) : State := if s.mstate = 3 then s.toModule 5 else s

/-- Fewer than 512 healthy cores are a cause of DEGRADED (R51, R424). -/
def State.coreCheck (s : State) (p : Nat) : State :=
  if decide (s.healthyAt p < 512) && !s.ctl.fewCores then ({ s with ctl := { s.ctl with fewCores := true } }).degrade else s

/-- The partitions that hold a slice. -/
def State.holders (s : State) (slice : Nat) : List Nat :=
  (List.range Config.nParts).filter fun p => (s.part p).res.created && bit (s.part p).res.slices slice

/-- A retired pseudo-channel that no partition's slice contains leaves service at once (R347, R348): the spare takes its place if it is unused. In BOOT the
table is formed as a whole. [DEDUCED log entry 114] -/
def State.remapFree (s : State) (i : Nat) : State :=
  let c := s.pc i
  let sp := 32 * (i / 32) + 31
  if s.mstate = 1 || c.role = 3 || !s.disabled 3 i || !(s.holders c.slice).isEmpty then s
  else
    let s1 := s.modPc i fun c => { c with role := 3 }
    if 31 ≤ c.slice || (s.pc sp).role != 1 || s.disabled 3 sp then s1
    else (s1.modPc sp fun x => { x with role := 2, slice := c.slice }).record 4 0x0011 0x03 i (natLe 1 0x03 ++ natLe 1 3 ++ natLe 2 i)

/-- The same for a unit of any class that the map has come to name. -/
def State.unserved (s : State) (cls idx : Nat) : State := if cls = 3 then s.remapFree idx else s

/-- A retirement record is written, or the retirement acts without one (R438, R506): Stook records it, and a full area as critical. [DESIGN CHOICE log entry 77] -/
def State.retire (s : State) (kind cls idx detail : Nat) : State :=
  if kind != 4 && s.disabled cls idx then s else
  let r : DisRec := ⟨kind, cls, idx, detail, s.opMs % 2 ^ 40⟩
  let u := s.units
  if u.recs.length < 512 then
    let s1 := ({ s with units := { u with recs := u.recs ++ [r] } }).record 4 0x0011 cls idx r.bytes
    if kind = 4 then s1 else (s1.mapChanged.coreCheck 8).unserved cls idx
  else
    (((({ s with units := { u with extra := u.extra ++ [r] } }).record 4 0x0011 cls idx r.bytes).record 6 0x0060 cls idx r.bytes).mapChanged.coreCheck 8).unserved cls idx

/-- A unit that is permanently faulty is retired (R502): a die retires both its cores (R503). -/
def State.retireUnit (s : State) (cls idx : Nat) : State :=
  match cls with
  | 1 => s.retire 0x01 1 idx 0
  | 2 => (s.retire 0x01 1 (2 * idx) 0).retire 0x01 1 (2 * idx + 1) 0
  | 3 => s.retire 0x03 3 idx 0
  | 4 => s.retire 0x05 4 idx 0
  | _ => s

/-- A partition holds a unit: a core, a compute die, a pseudo-channel of its slices, or is the unit. -/
def State.holdsUnit (s : State) (p cls idx : Nat) : Bool :=
  let q := s.part p
  match cls with
  | 1 => q.res.place.contains idx
  | 2 => q.res.place.any fun c => c / 2 == idx
  | 3 => q.res.created && bit q.res.slices ((s.hbm.pcs.get? idx).elim (idx % 32) Pc.slice)
  | 8 => idx == p
  | _ => false

/-- A charge (R501); the third within 72 operating hours retires a unit of class 0x01 to 0x04 (R502). -/
def State.charge (s : State) (cls idx : Nat) : State :=
  let s0 := { s with units := { s.units with charges := s.units.charges ++ [(cls, idx, s.opMs)] } }
  let s1 : State := (List.range Config.nParts).foldl (fun (z : State) p =>
    if z.holdsUnit p cls idx then z.modPTwin p fun t => { t with lastFlt := some (z.time.count / 4294967296) } else z) s0
  if 3 ≤ s1.charged cls idx then s1.retireUnit cls idx else s1

/-! ### The twin link's lanes (R505, R517, R520, R527) -/

/-- Rachis lanes stop being aligned (R517): when the link goes down with them a pairing in progress fails, and each paired partition runs isolated. -/
def State.rachisLost (s : State) (mask : Nat) : State :=
  let s1 := s.modTwin fun t => { t with lanes := t.lanes &&& (65535 ^^^ (mask % 65536)) }
  if !s.linkUp || s1.linkUp then s1
  else if s1.twin.pair = 1 then
    (s1.modTwin fun t => { t with pair := 0, slot := none }).finishAll s1.twin.slot.toList stResource []
  else (List.range Config.nParts).foldl (fun z p => if (z.part p).twin.role = 0 then z else z.modPTwin p fun t => { t with isolated := true }) s1

end Sys2Proof.Machine
end

