-- ==== Sys2Proof/Machine/Hbm.lean ====
section
/-! DEFINITION. What the HBM controllers do (11): reads, errors, refresh, scrub and repair (R341 to R346). -/

namespace Sys2Proof.Machine

/-- Bursts of a row (R346): 2 KiB. -/
def rowBursts : Nat := 32

/-- The row is served from its repair buffer (R346): it is marked, its bank has its spare row, and the requests that read it have been served. Requests of the
controller itself name partition 8. [DEDUCED log entry 121] -/
def Pc.buffered (c : Pc) (row : Nat) : Bool :=
  c.marked.contains row && !c.usedBanks.contains (row / 2 ^ 18) && !(c.queue.any fun r => r.part == 8 && r.prio == 2 && r.unit / rowBursts == row)

/-- An error in a row is noted (R343, R346): the counters, PC_LASTERR, the third corrected burst of the row within 72 operating hours or an uncorrectable
one marks the row, whose bursts are then read in REMOTE slots; a marked row whose bank has no spare row charges the pseudo-channel instead. -/
def State.rowError (s : State) (i row : Nat) (ue : Bool) : State :=
  let c := s.pc i
  let recent := (c.rowErrs.filter fun x => decide (s.opMs ≤ x.2 + hours72)) ++ (if ue then [] else [(row, s.opMs)])
  let mark := ue || decide (3 ≤ (recent.filter fun x => x.1 == row).length)
  let spent := c.usedBanks.contains (row / 2 ^ 18)
  let s1 := s.modPc i fun c => { c with
    ce := if ue then c.ce else satAdd c.ce 1
    ue := if ue then satAdd c.ue 1 else c.ue
    lastRow := row, lastUe := ue, rowErrs := recent
    marked := if mark then setIns c.marked row else c.marked
    queue := if mark && !spent && !c.marked.contains row then c.queue ++ (List.range rowBursts).map fun k => ⟨2, 8, row * rowBursts + k⟩ else c.queue }
  if spent && c.marked.contains row then s1.charge 3 i else s1

/-- A controller reads a burst of a partition with a number of symbols in error (R343): 1 is corrected, more poison the burst; the poison
code makes no new count, and a row in its repair buffer is not read (R346). A refresh window in use carries no transfer (R341). -/
def State.readBurst (s : State) (p o errs : Nat) : State :=
  let q := s.part p
  let u := o / 64
  match s.pcOf q (u * 64) with
  | none => s
  | some (i, row) =>
    if s.refreshing i then s else
    let s1 := s.touchPc i
    if errs = 0 || q.img.hbmPoison.contains u || (s.pc i).buffered row then s1
    else if errs = 1 then
      (s1.rowError i row false).modPart p fun q => { q with img := { q.img with hbmCe := setIns q.img.hbmCe u } }
    else (s1.rowError i row true).modPart p fun q => { q with img := { q.img with hbmUe := setIns q.img.hbmUe u } }

/-! ### Events -/

/-- A burst of the core-streams section is read: one that cannot be corrected carries poison (R131, R343). -/
def State.readStreams (s : State) (p off errs : Nat) : State :=
  let q := s.part p
  let o := s.streamsOff q
  match q.img.image with
  | some g => if o ≤ off && decide (off < o + g.streams.length) && decide (2 ≤ errs) then
      s.modImg p fun m => { m with streamsPoison := setIns m.streamsPoison ((off - o) / 64) } else s
  | none => s

/-- HBM_READ (R343, R275). errs: symbols in error that the check finds (log entry 3). The data goes back to the streams whose requests for the burst have come to
the controller. -/
def execHbmRead (p off errs : Nat) (s : State) : Host.Outcome State Fault Refusal :=
  .next (
    let s1 := (s.readBurst p off errs).readStreams p off errs
    match s.pcOf (s.part p) (off / 64 * 64) with
    | some (i, _) => if s.refreshing i then s1 else s1.mAnswer mRead mData fun f => f.part == p && f.unit == off / 64
    | none => s1)

/-- REFRESH_WINDOW (R341): at the stack's window boundary the hottest die decides whether every window is used; between 83 and 85 degrees
nothing changes. Otherwise windows of even period number, from the stack's first, are used. -/
def execRefreshWindow (stack : Nat) (s : State) : Host.Outcome State Fault Refusal :=
  .next (if decide (stack < s.stacks) && s.cc % 4875 == 150 * stack then
    let t := s.hbm.temp.getD stack 0
    let all := if 680 ≤ t then true else if t ≤ 664 then false else s.hbm.refAll.getD stack false
    { s with hbm := { s.hbm with refAll := s.hbm.refAll.put stack all, winUsed := s.hbm.winUsed.put stack (all || s.cc / 4875 % 2 == 0) } }
  else s)

/-- A partition state in which a slice stays out of self-refresh (R342). -/
def PState.keepsAwake (x : PState) : Bool := x == .armed || x == .running || x == .held || x == .restarting || x == .shadow

/-- The pseudo-channels of a slice, or the unused spares for 31. -/
def State.slicePcs (s : State) (slice : Nat) : List Nat :=
  (List.range s.stacks).map fun k => if slice = 31 then 32 * k + 31 else s.member k slice

/-- SELF_REFRESH_ENTRY (R342): 1 ms without a request, and no partition that holds the slice is awake. -/
def execSelfRefreshEntry (slice : Nat) (s : State) : Host.Outcome State Fault Refusal :=
  .next (
    let is := (s.slicePcs slice).filter fun i => slice != 31 || (s.pc i).role == 1
    if decide (slice ≤ 31) && (is.all fun i => decide ((s.pc i).lastReq + Config.ccPerMs ≤ s.opTicks)) &&
       !((s.holders slice).any fun p => (s.part p).st.keepsAwake) then
      is.foldl (fun t i => t.modPc i fun c => { c with selfref := true }) s
    else s)

/-- What stands at an address of a pseudo-channel (R338, R339): the partition that holds its slice, with the stripe whose parity granule it is, or the
unit. -/
def State.burstAt (s : State) (i a : Nat) : Option (Nat × Bool × Nat) :=
  let c := s.pc i
  match s.holders c.slice with
  | [] => none
  | p :: _ =>
    let q := s.part p
    let ks := slicesOf q.res.slices
    let n := a / 256 * ks.length + ks.findIdx (· == c.slice)
    match (s.regions q).reverse.find? fun r => decide (r.stripe ≤ n) with
    | none => none
    | some r =>
      let k := n - r.stripe
      match (if r.prot then s.unitAt r k (a % 256 / 64) (i / 32) else some ((r.off + (k * s.stacks + i / 32) * 256) / 64 + a % 256 / 64)) with
      | none => some (p, true, n)
      | some u => if u * 64 < r.off + r.size then some (p, false, u) else none

/-- Bursts of a pseudo-channel (R335), and a patrol scrub pass in milliseconds (R344). -/
def pcBursts : Nat := 25165824
def scrubPass : Nat := 86400000

/-- The scrub has read the burst at its position with a number of symbols in error (R343, R344): a corrected burst is written back, or a newer write
stands in its place; parity that cannot be corrected no longer serves. -/
def State.scrubbed (s : State) (i errs : Nat) : State :=
  let a := (s.pc i).scrubPos * 64
  match s.burstAt i a with
  | some (p, false, u) =>
    let s1 := s.readBurst p (u * 64) errs
    if errs = 1 then s1.modImg p fun m => { m with hbmCe := setDel m.hbmCe u } else s1
  | some (p, true, k) =>
    let s1 := s.touchPc i
    if errs = 0 then s1
    else if errs = 1 then s1.rowError i (Config.pcRow a) false
    else (s1.rowError i (Config.pcRow a) true).modImg p fun m => { m with parity := m.parity.del k }
  | none => let s1 := s.touchPc i; if errs = 0 then s1 else s1.rowError i (Config.pcRow a) (errs != 1)

/-- PATROL_SCRUB (R344, R351): the burst at the scrub's position in a pseudo-channel in use is read and checked as any other, once its request of priority 6
has been served; the request for the next one follows. A pass reads every burst, and one begins every 24 operating hours. newer: a newer write has
reached the controller since. -/
def execPatrolScrub (pc errs : Nat) (newer : Bool) (s : State) : Host.Outcome State Fault Refusal :=
  .next (
    let c := s.pc pc
    let waits := c.scrubPos == 0 && (match c.scrubAt with | some t => decide (s.opMs < t + scrubPass) | none => false)
    if !(decide (pc / 32 < s.stacks) && (c.role == 0 || c.role == 2)) || s.refreshing pc || waits || (c.queue.any fun r => r.part == 8 && r.prio == 6) then s else
    let s1 := s.scrubbed pc errs
    let s2 := match s.burstAt pc (c.scrubPos * 64) with
      | some (p, false, u) => if newer then s1.modImg p fun m => { m with hbmCe := setDel m.hbmCe u, hbmUe := setDel m.hbmUe u } else s1
      | _ => s1
    s2.modPc pc fun x => { x with
      scrubPos := if c.scrubPos + 1 = pcBursts then 0 else c.scrubPos + 1
      queue := if c.scrubPos + 1 = pcBursts then x.queue else x.queue ++ [⟨6, 8, c.scrubPos + 1⟩]
      scrubAt := if c.scrubPos = 0 then some s.opMs else x.scrubAt
      passes := if c.scrubPos + 1 = pcBursts then satAdd x.passes 1 else x.passes })

/-- The stored errors of a partition after a row has been rewritten from its repair buffer (R346): corrected bursts are whole, bursts
without a correction carry the poison code. -/
def State.rowRewritten (s : State) (pc row p : Nat) : State :=
  let q := s.part p
  let here := fun u => match s.pcOf q (u * 64) with | some (i, r) => i == pc && r == row | none => false
  s.modPart p fun q => { q with img := { q.img with
    hbmCe := q.img.hbmCe.filter fun u => !here u
    hbmPoison := (q.img.hbmUe.filter here).foldl setIns q.img.hbmPoison
    hbmUe := q.img.hbmUe.filter fun u => !here u } }

/-- ROW_REPAIR (R346): a marked row that stands in its buffer is mapped onto the spare row of its bank in a window that the temperature leaves unused, or while a
partition that holds the slice restarts. [DESIGN CHOICE log entry 77, DEDUCED log entry 121] -/
def execRowRepair (pc row : Nat) (s : State) : Host.Outcome State Fault Refusal :=
  .next (
    let c := s.pc pc
    let bank := row / 2 ^ 18
    let free := inRefresh (pc / 32) s.cc && (!(s.hbm.winUsed.getD (pc / 32) true) || (s.holders c.slice).any fun p => (s.part p).st == .restarting)
    if c.buffered row && free then
      let s1 := s.modPc pc fun c => { c with
        marked := setDel c.marked row, softRows := setIns c.softRows row, usedBanks := setIns c.usedBanks bank
        soft := (c.soft + 1) % 256, rowErrs := c.rowErrs.filter fun x => x.1 != row }
      ((List.range Config.nParts).foldl (fun t p => t.rowRewritten pc row p) s1).record 3 0x0011 3 pc
        (DisRec.bytes ⟨4, 3, pc, row, s.opMs % 2 ^ 40⟩)
    else s)

/-- A partition that a fault can stop: it runs, is held, restarts or shadows. -/
def PState.live (x : PState) : Bool := x == .running || x == .held || x == .restarting || x == .shadow

/-- HBM_FAIL (R345): cause 0x20 stops every partition that holds the slice that the pseudo-channel serves. -/
def execHbmFail (pc : Nat) (s : State) : Host.Outcome State Fault Refusal :=
  .next (if (s.pc pc).role = 1 || (s.pc pc).role = 3 then s else ((s.holders (s.pc pc).slice).filter fun p => (s.part p).st.live).foldl (fun t p => t.sysFault p 0x20 3 pc) s)

end Sys2Proof.Machine
end

