-- ==== Sys2Proof/Machine/Field.lean ====
section
/-! DEFINITION. Field ports, Haulm frames, the point table, the input cut's assembly and the setpoint guard (12). -/

namespace Sys2Proof.Machine

/-! ### Module time and instants -/

/-- The current module time in units of 1/65,536 ns (R75). -/
def State.now (s : State) : Nat := s.time.count / 4294967296

/-- The 12 bytes of an instant (R75). [DESIGN CHOICE log entry 20] -/
def timeBytes (t : Nat) : Bytes :=
  natLe 2 (t % 65536) ++ natLe 4 (t % Config.tSec / 65536) ++ natLe 6 (t / Config.tSec)

/-- The instant that 12 bytes give. [DESIGN CHOICE log entry 20] -/
def timeOf (b : Bytes) : Nat := fld b 6 6 * Config.tSec + fld b 2 4 * 65536 + fld b 0 2

/-! ### Accessors -/

def State.modTime (s : State) (f : Time → Time) : State := { s with time := f s.time }
def State.modField (s : State) (f : Field → Field) : State := { s with field := f s.field }
def State.port (s : State) (p : Nat) : Port := s.field.ports.getD p {}
def State.modPort (s : State) (p : Nat) (f : Port → Port) : State := s.modField fun x => { x with ports := x.ports.put p (f (x.ports.getD p {})) }
def State.point (s : State) (i : Nat) : Point := s.field.points.getD i {}
def State.modPoint (s : State) (i : Nat) (f : Point → Point) : State :=
  s.modField fun x => { x with points := x.points.put i (f (x.points.getD i {})) }
def State.lte (s : State) (i : Nat) : Lte := s.ltes.getD i {}
def State.modLte (s : State) (i : Nat) (f : Lte → Lte) : State := { s with ltes := s.ltes.put i (f (s.lte i)) }

/-- A port's DOWN bit is set at a time in 0.4 ns (R356, R11). -/
def Port.goDown (x : Port) (now : Nat) : Port := { x with down := true, downAt := some now }

/-- A drop counter of a port rises (R383): 0 CRC, 1 FORMAT, 2 UNBOUND, 3 ORDER, 4 MACSEC, 5 OTHER. -/
def State.portDrop (s : State) (p k : Nat) : State := s.modPort p fun x => { x with drop := x.drop.put k (satAdd (x.drop.getD k 0) 1) }

/-- The partition that holds a field port (R43). -/
def State.portOwner (s : State) (port : Nat) : Option Nat :=
  (List.range Config.nParts).find? fun p => (s.part p).res.created && bit (s.part p).res.ports port

/-- The fields of a point table entry (R369). -/
def Point.f (x : Point) (hi lo : Nat) : Nat := bits (leNat x.raw) hi lo
def Point.valid? (x : Point) : Bool := x.f 0 0 == 1
def Point.output (x : Point) : Bool := x.f 1 1 == 1
def Point.src (x : Point) : Nat := x.f 3 2
def Point.port (x : Point) : Nat := x.f 6 4
def Point.sub (x : Point) : Nat := x.f 8 7
def Point.fmt (x : Point) : Nat := x.f 19 16
def Point.wfmt (x : Point) : Nat := x.f 23 20
def Point.vidx (x : Point) : Nat := x.f 31 24
def Point.stream (x : Point) : Nat := x.f 63 32
def Point.slot (x : Point) : Nat := x.f 79 64
def Point.elem (x : Point) : Nat := x.f 103 80
def Point.unit (x : Point) : Nat := x.f 111 104
def Point.cal (x : Point) : Nat := x.f 119 112
def Point.fbpol (x : Point) : Nat := x.f 121 120
def Point.msa (x : Point) : Nat := x.f 127 122
def Point.latepol (x : Point) : Bool := x.f 128 128 == 1
def Point.stale (x : Point) : Nat := x.f 191 160
def Point.min (x : Point) : Nat := x.f 223 192
def Point.max (x : Point) : Nat := x.f 255 224
def Point.rate (x : Point) : Nat := x.f 287 256
def Point.fbval (x : Point) : Nat := x.f 319 288

/-- The bound points of a partition, in ascending index. -/
def State.pointsOf (s : State) (p : Nat) (output : Bool) : List (Nat × Point) :=
  s.field.points.filter fun x => x.2.owned && x.2.part == p && x.2.valid? && x.2.output == output

/-! ### Launch table entries (R90) -/

def Lte.f (x : Lte) (hi lo : Nat) : Nat := bits (leNat x.raw) hi lo
def Lte.en (x : Lte) : Bool := x.f 0 0 == 1
def Lte.trig (x : Lte) : Nat := x.f 2 1
def Lte.once (x : Lte) : Bool := x.f 3 3 == 1
def Lte.ept (x : Lte) : Nat := x.f 13 8
def Lte.src (x : Lte) : Nat := x.f 22 16
def Lte.anchor (x : Lte) : Nat := timeOf (sub x.raw 4 12)
def Lte.period (x : Lte) : Nat := x.f 191 128
def Lte.phase (x : Lte) : Nat := x.f 223 192
def Lte.every (x : Lte) : Nat := x.f 239 224
def Lte.evtPoint (x : Lte) : Nat := x.f 255 240
def Lte.cutLead (x : Lte) : Nat := x.f 287 256
def Lte.emitOfs (x : Lte) : Nat := x.f 319 288
def Lte.deadlineOfs (x : Lte) : Nat := x.f 351 320

/-- C and L of a trigger instant (R91). -/
def Lte.cutAt (x : Lte) (t : Nat) : Nat := if x.trig = 2 then t else t - x.cutLead * 65536
def Lte.launchAt (x : Lte) (t : Nat) : Nat := if x.trig = 2 then t + x.cutLead * 65536 else t

/-- A partition state in which triggers act (R68). -/
def PState.triggers (x : PState) : Bool := x == .running || x == .held || x == .restarting || x == .faulted || x == .shadow

/-- LTE.ONCE clears LTE.EN at the entry's first trigger (R90). -/
def State.onceDone (s : State) (i : Nat) : State :=
  s.modLte i fun e => if e.once then { e with raw := e.raw.set 0 ((e.raw.getD 0 0) &&& 0xFE) } else e

/-- An event reaches the EVENT entries of a source (R90, R95): it is the trigger instant; one that arrives between an entry's cut and its launch is a
skipped launch. [DEDUCED log entry 81] -/
def State.eventTrigger (s : State) (src pt t : Nat) : State :=
  (s.ltes.filter fun e => e.2.owned && e.2.en && e.2.trig == 2 && e.2.src == src && (src == 0 || e.2.evtPoint == pt) &&
    decide (e.2.anchor ≤ t) && (s.part e.2.part).st.triggers && decide ((s.part e.2.part).ctl.startAt ≤ t)).foldl (fun z e =>
      if (z.part e.2.part).run.triggers.any (fun g => g.entry == e.1 && !g.suppressed) then
        z.modRun e.2.part fun r => { r with triggers := r.triggers ++ [⟨e.1, t, t, e.2.launchAt t, none, true, [], 0⟩] }
      else (z.modLte e.1 fun x => { x with evt := some t }).onceDone e.1) s

/-! ### Calibration (R394, R395) -/

/-- The identity record. -/
def calId : Bytes := [0, 0, 0x80, 0x3F, 0, 0, 0, 0, 0, 0, 0, 0, 0, 0, 0, 0]
def State.calFactory (s : State) (i : Nat) : Bytes := s.meas.factory.getD i calId
def State.calUser (s : State) (i : Nat) : Bytes := s.meas.user.getD i calId

/-- The calibrated value, formed exactly and rounded once (R395). -/
def calValue (f u : Bytes) (x : Val) : Nat :=
  let v := fun b o => decodeVal 8 (fld b o 4)
  let y := fmaExact [x, v f 0, v f 4] x (v f 0) (v f 4)
  (roundVal 8 true false (fmaExact [y, v u 0, v u 4] y (v u 0) (v u 4))).code

/-- D_f + D_u, in units of 1/256 ns. -/
def calDelay (f u : Bytes) : Int := toSigned 32 (fld f 12 4) + toSigned 32 (fld u 12 4)
/-- t_eff (R395). -/
def calStamp (f u : Bytes) (t : Nat) : Nat := ((t : Int) - 256 * calDelay f u).toNat

/-- The nearest integer to a / b, ties to even. -/
def rne (a : Int) (b : Nat) : Int :=
  let q := a / (b : Int)
  let r := a % (b : Int)
  if 2 * r < b then q else if (b : Int) < 2 * r then q + 1 else if q % 2 = 0 then q else q + 1

/-- φ_eff (R395), with the frequency in uHz: f D 2^32 turns, D in units of 1/256 ns. -/
def calPhase (f u : Bytes) (phase freq : Nat) : Nat :=
  let d := calDelay f u
  ofSigned 32 ((phase : Int) + rne ((freq : Int) * d * 4294967296) (256 * 1000000000 * 1000000) + toSigned 32 (fld f 8 4) + toSigned 32 (fld u 8 4))

/-! ### Accepting values (R366, R372) -/

/-- A value is accepted for a point (R372): it joins the two newest held, and PT.LASTVAL follows the newest. -/
def State.acceptValue (s : State) (i val stamp : Nat) (bad : Bool) : State :=
  s.modPoint i fun x =>
    let h : Held := ⟨val, stamp, s.now, bad⟩
    match x.held with
    | [] => { x with held := [h], lastVal := val, lastStamp := stamp }
    | a :: _ => if a.stamp ≤ stamp then { x with held := [h, a], lastVal := val, lastStamp := stamp } else x

/-- CRC-32C (R365), reflected: one bit, one byte, a run. -/
def crcBit (c : Nat) : Nat := if c % 2 = 1 then c / 2 ^^^ 0x82F63B78 else c / 2
def crcByte (c b : Nat) : Nat := crcBit (crcBit (crcBit (crcBit (crcBit (crcBit (crcBit (crcBit (c ^^^ b))))))))
def crc32c (bs : Bytes) : Nat := (bs.foldl (fun c b => crcByte c b.toNat) 0xFFFFFFFF) ^^^ 0xFFFFFFFF

/-- Bytes of the values of a frame, with the padding (R363, R365). -/
def haulmBody (fmt n : Nat) : Nat := if fmt = 15 then 8 * n else ceilDiv (fmtBytes fmt n) 4 * 4

/-- The checks of R366 common to field ports and Rachis: the counter of the first that fails. types: allowed TYPE codes. -/
def haulmCheck (f : Bytes) (types : List Nat) : Option Nat :=
  let n := f.length
  let count := fld f 32 2
  let fmt := fld f 34 1
  if n < 68 || fld f (n - 4) 4 != crc32c (f.take (n - 4)) then some 0
  else if fld f 0 4 != 0x4C554148 || fld f 4 1 != 1 || decide (16 ≤ fld f 6 1) || fld f 35 1 != 0 || fld f 38 2 != 0 || fld f 56 8 != 0 ||
     !types.contains (fld f 5 1) || decide (256 < count) || !(decide (fmt ≤ 10) || fmt == 15) || (fld f 5 1 == 1 && (count == 0 || fmt == 15)) ||
     n != 64 + haulmBody fmt count + 4 then some 1
  else none

/-- The input points of a stream on a port and sub-port. -/
def State.streamPoints (s : State) (port sub stream : Nat) : List (Nat × Point) :=
  s.field.points.filter fun x => x.2.owned && x.2.valid? && !x.2.output && x.2.src == 0 && x.2.port == port && x.2.sub == sub && x.2.stream == stream

/-- The PORT_CONFIG in force for a sub-port (R358, R382); before any, zeros with the default UDP port. -/
def Port.subCfg (x : Port) (sub : Nat) : Bytes := x.cfg.getD sub (zeros 4 ++ natLe 2 51700 ++ zeros 58)

/-- A port or sub-port is up (R354, R356). -/
def Port.isUp (x : Port) (sub : Nat) : Bool :=
  match x.mode with
  | 0 => false
  | 3 => bit x.lanes sub
  | 1 => sub == 0 && (x.lanes == 15 || (x.retired != 0 && (x.lanes % 4 == 3 || x.lanes / 4 % 4 == 3)))
  | _ => sub == 0 && x.lanes != 0

/-- HAULM_DATA_IN (R362, R366): a frame received on a port that is up, under MACsec association `msa` or 0; what a port that requires MACsec received
without is no frame of it (ETHERNET_FRAME drops it). Event entries see each point that takes a value. -/
def execHaulmDataIn (port sub msa : Nat) (frame : Bytes) (s : State) : Host.Outcome State Fault Refusal :=
  .next (
    if !(s.port port).isUp sub || ((s.port port).mode != 1 && msa == 0 && bit (fld ((s.port port).subCfg sub) 3 1) 0) then s else
    let s0 := if (s.port port).mode = 1 then s.modPort port fun x => { x with rx := satAdd x.rx 1 } else s
    match haulmCheck frame [1] with
    | some k => s0.portDrop port k
    | none =>
      let stream := fld frame 8 4
      let pts := s.streamPoints port sub stream
      let key := sub * 4294967296 + stream
      let seq := fld frame 12 8
      let stamp := timeOf (Sys2Proof.sub frame 20 12)
      if pts.isEmpty then s0.portDrop port 2
      else
        let old := (s.port port).last.get? key
        if (match old with | some (q, t) => decide (seq ≤ q) || decide (stamp < t) | none => false) then s0.portDrop port 3
        else
          let fmt := fld frame 34 1
          let count := fld frame 32 2
          let bad := bit (fld frame 6 1) 2
          let s1 := s0.modPort port fun x => { x with last := x.last.put key (seq, stamp) }
          pts.foldl (fun z e =>
            let x := e.2
            if count ≤ x.vidx then z
            else if x.wfmt != fmt || (x.msa != 0 && x.msa != msa) then z.modPoint e.1 fun y => { y with discards := satAdd y.discards 1 }
            else
              let i := 256 + x.cal
              let raw := elemAt fmt (frame.drop 64) x.vidx
              let id := x.cal = 0
              let v := if id then (convert fmt 8 true false raw).code else calValue (z.calFactory i) (z.calUser i) (decodeVal fmt raw)
              let t := if id then stamp else calStamp (z.calFactory i) (z.calUser i) stamp
              (z.acceptValue e.1 v t bad).eventTrigger 1 e.1 z.now) s1)

/-! ### Ethernet (R357 to R362) -/

/-- The solicited-node multicast MAC address of an IPv6 address. -/
def solicited (a : Bytes) : Bytes := [0x33, 0x33, 0xFF] ++ sub a 13 3

/-- The MACsec check of a received frame (R361, R362): the association it came under, or none where it is dropped. The receive SC accepts
every AN that holds a SAK; a PN below the replay window fails. -/
def State.secCheck (s : State) (port sub : Nat) (sec : SecTag) : Option Nat :=
  match sec with
  | .none => if bit (fld ((s.port port).subCfg sub) 3 1) 0 then none else some 0
  | .tagged i an pn ok =>
    match s.field.assocs.get? i with
    | none => none
    | some a =>
      if ok && a.port == port && a.sub == sub && !a.transmit && (a.saks.get? an).isSome && decide (a.rxPn.getD an 1 ≤ pn + a.window) then some i else none

/-- The association remembers the newest PN. -/
def State.notePn (s : State) (sec : SecTag) : State :=
  match sec with
  | .none => s
  | .tagged i an pn _ => match s.field.assocs.get? i with
    | none => s
    | some a => s.modField fun x => { x with assocs := x.assocs.put i { a with rxPn := a.rxPn.put an (max (a.rxPn.getD an 1) (pn + 1)) } }

/-- The class of a frame (R357): none where it is dropped as OTHER, otherwise its handling: 0 PTP, 1 sampled values, 2 Haulm over UDP, 3
Neighbor Solicitation. A frame has the destination of a subscribed stream when it comes from a subscription's source with its APPID (log
entry 40). [DESIGN CHOICE log entry 40] -/
def State.classify (s : State) (port sub : Nat) (f : Bytes) : Option Nat :=
  let cfg := (s.port port).subCfg sub
  let mac := Sys2Proof.sub cfg 8 6
  let glob := Sys2Proof.sub cfg 16 16
  let link := Sys2Proof.sub cfg 32 16
  let dst := Sys2Proof.sub f 0 6
  let ptpMac : List Bytes := [[0x01, 0x1B, 0x19, 0, 0, 0], [0x01, 0x80, 0xC2, 0, 0, 0x0E], [0x33, 0x33, 0, 0, 0x01, 0x81]]
  let et0 := leNat (Sys2Proof.sub f 12 2).reverse
  let tagged := et0 == 0x8100
  let et := if tagged then leNat (Sys2Proof.sub f 16 2).reverse else et0
  let o := if tagged then 18 else 14
  let vid := leNat (Sys2Proof.sub f 14 2).reverse % 4096
  let vlans := (List.range 8).map fun i => fld cfg (48 + 2 * i) 2
  let tagOk := if tagged then et != 0x8100 && vid != 0 && vlans.contains vid else bit (fld cfg 3 1) 3
  let sv := et == 0x88BA && s.field.subs.any fun x => bit (fld x.2.raw 1 1) 0 && fld x.2.raw 26 1 % 32 == port + 8 * sub &&
    Sys2Proof.sub x.2.raw 4 6 == Sys2Proof.sub f 6 6 && fld x.2.raw 10 2 == leNat (Sys2Proof.sub f o 2).reverse
  let udp := et == 0x86DD && fld f (o + 6) 1 == 17
  let dport := leNat (Sys2Proof.sub f (o + 42) 2).reverse
  let addr := Sys2Proof.sub f (o + 24) 16
  if !(dst == mac || dst == List.replicate 6 0xFF || dst == solicited glob || dst == solicited link || ptpMac.contains dst || sv) then none
  else if !tagOk then none
  else if et == 0x88F7 || (udp && (dport == 319 || dport == 320)) then some 0
  else if et == 0x88BA then some 1
  else if udp && dport == fld cfg 4 2 && (addr == glob || addr == link) then some 2
  else if et == 0x86DD && fld f (o + 6) 1 == 58 && fld f (o + 40) 1 == 135 && (Sys2Proof.sub f (o + 48) 16 == glob || Sys2Proof.sub f (o + 48) 16 == link) then some 3
  else none

/-- The sum of the 16-bit words of a byte run, folded to 16 bits. -/
def sum16 (b : Bytes) : Nat :=
  let x := (List.range (ceilDiv b.length 2)).foldl (fun z i => z + leNat (sub b (2 * i) 2).reverse) 0
  let fold := fun x => x % 65536 + x / 65536
  fold (fold (fold x))

/-- What the UDP checksum of an IPv6 datagram covers: both addresses, length, next header, then the datagram. -/
def udpPseudo (src dst udp : Bytes) : Bytes := src ++ dst ++ natBe 4 udp.length ++ [0, 0, 0, 17] ++ udp

/-- The UDP checksum of an IPv6 datagram at an offset is nonzero and right (R359). -/
def udpOk (f : Bytes) (o : Nat) : Bool :=
  fld f (o + 46) 2 != 0 && sum16 (udpPseudo (sub f (o + 8) 16) (sub f (o + 24) 16) (sub f (o + 40) (leNat (sub f (o + 44) 2).reverse))) == 65535

/-- Haulm over UDP (R358, R359): the Ethernet frame that carries a Haulm frame to a destination record. An address FE80::/10 or a multicast to the
link is sent from the link-local address. [DESIGN CHOICE log entry 40] -/
def udpFrame (cfg dest haulm : Bytes) : Bytes :=
  let dst := sub dest 16 16
  let local_ := (dst.getD 0 0 == 0xFE && (dst.getD 1 0).toNat / 64 == 2) || (dst.getD 0 0 == 0xFF && (dst.getD 1 0).toNat % 16 == 2)
  let src := if local_ then sub cfg 32 16 else sub cfg 16 16
  let head := natBe 2 (fld cfg 4 2) ++ natBe 2 (fld dest 32 2) ++ natBe 2 (haulm.length + 8)
  let x := 65535 - sum16 (udpPseudo src dst (head ++ [0, 0] ++ haulm))
  sub dest 8 6 ++ sub cfg 8 6 ++ (if bit (fld dest 2 1) 1 then [0x81, 0] ++ natBe 2 (fld dest 14 2) else []) ++ [0x86, 0xDD] ++
    natBe 4 (6 * 2 ^ 28 + fld dest 34 1 * 2 ^ 20) ++ natBe 2 (haulm.length + 8) ++ [17, 64] ++ src ++ dst ++ head ++ natBe 2 (if x = 0 then 65535 else x) ++ haulm

/-- ETHERNET_FRAME (R355, R357, R359): a received frame is counted, checked by MACsec and classified; what the port does not carry is
dropped. What it carries is handled by the command for it. The frame stands without its SecTAG and ICV, which count in its length.
[DESIGN CHOICE log entry 40] -/
def execEthernetFrame (port sub : Nat) (sec : SecTag) (frame : Bytes) (s : State) : Host.Outcome State Fault Refusal :=
  .next (
    if ((s.port port).mode != 2 && (s.port port).mode != 3) || !(s.port port).isUp sub then s else
    let s1 := s.modPort port fun x => { x with rx := satAdd x.rx 1 }
    match s.secCheck port sub sec with
    | none => s1.portDrop port 4
    | some _ =>
      let s2 := s1.notePn sec
      let n := frame.length + (match sec with | .none => 0 | .tagged _ _ _ _ => 32)
      if n < 64 || 1600 < n then s2.portDrop port 5 else
      match s.classify port sub frame with
      | none => s2.portDrop port 5
      | some 2 => if udpOk frame (if leNat (Sys2Proof.sub frame 12 2).reverse = 0x8100 then 18 else 14) then s2 else s2.portDrop port 0
      | some _ => s2)

/-- A port starts no other transmission: a partition that holds it is in an emission window (R381). -/
def State.inWindow (s : State) (port : Nat) : Bool :=
  match s.portOwner port with
  | some p => (s.part p).run.emits.any fun e => e.window && !e.emitted
  | none => false

/-- A frame leaves on a port (R356, R362, R383), under a transmit association where `msa` is not 0. It is counted as dropped when the
link is down or the PN is exhausted. chan: kind of the frame. -/
def State.send (s : State) (chan port sub msa : Nat) (data : Bytes) (late : Bool) : State :=
  let dropped := s.modPort port fun x => { x with txDrop := satAdd x.txDrop 1 }
  if !(s.port port).isUp sub then dropped else
  let out := fun (z : State) => (z.modPort port fun x => { x with tx := satAdd x.tx 1, txLate := if late then satAdd x.txLate 1 else x.txLate }).emit chan
    (port * 4 + sub) data
  if msa = 0 then out s else
  match s.field.assocs.get? msa with
  | none => dropped
  | some a =>
    let an := a.an.getD 0
    let pn := a.pns.getD an 1
    if a.an.isNone || decide (2 ^ 64 - 1 ≤ pn) then dropped else
    let warn := decide (2 ^ 63 < pn + 1) && !a.warned.contains an
    let s1 := s.modField fun x => { x with assocs := x.assocs.put msa { a with pns := a.pns.put an (pn + 1), warned := if warn then setIns a.warned an else a.warned } }
    out (if warn then s1.record 3 0x0030 0x05 port (natLe 1 msa) else s1)

/-- A frame that names no association of its own leaves on a port (R79, R361, R362): under the transmit SC where the port requires MACsec; one that has none
is not sent. [DEDUCED log entry 133] -/
def State.sendShared (s : State) (chan port sub : Nat) (data : Bytes) : State :=
  if !bit (fld ((s.port port).subCfg sub) 3 1) 0 then s.send chan port sub 0 data false else
  match s.field.assocs.find? fun a => a.2.transmit && a.2.port == port && a.2.sub == sub with
  | some a => s.send chan port sub a.1 data false
  | none => s.modPort port fun x => { x with txDrop := satAdd x.txDrop 1 }

/-- NEIGHBOR_SOLICITATION (R357): answered with a Neighbor Advertisement, outside an emission window. -/
def execNeighborSolicitation (port sub : Nat) (target source : Bytes) (s : State) : Host.Outcome State Fault Refusal :=
  .next (
    let cfg := (s.port port).subCfg sub
    let mine := (target == Sys2Proof.sub cfg 16 16 || target == Sys2Proof.sub cfg 32 16)
    if mine && ((s.port port).mode == 2 || (s.port port).mode == 3) && !s.inWindow port then
      s.sendShared 3 port sub (source ++ target ++ Sys2Proof.sub cfg 8 6)
    else s)

/-- PORT_LINK_UP (R354, R37): lanes aligned, or sub-ports up, as a mask; none on a lane reference out of limits. -/
def execPortLinkUp (port lanes : Nat) (s : State) : Host.Outcome State Fault Refusal :=
  .next (if (s.port port).mode = 0 || s.board.laneRefBad then s else s.modPort port fun x => { x with lanes := x.lanes ||| lanes % 16 })

/-- PORT_LINK_DOWN (R356): the lanes or sub-ports of the mask are lost; DOWN is set and a warning recorded. -/
def execPortLinkDown (port lanes : Nat) (s : State) : Host.Outcome State Fault Refusal :=
  .next (if (s.port port).lanes &&& lanes = 0 then s else
    (s.modPort port fun x => ({ x with lanes := x.lanes &&& (15 - lanes % 16) }).goDown s.opTicks).record 3 0x0030 0x05 port (natLe 1 lanes))

/-! ### Sampled values and the tracker's points -/

/-- The points that name a quantity of a tracker source (R388). -/
def State.trackerPoints (s : State) (src : Nat) : List (Nat × Point) :=
  s.field.points.filter fun x => x.2.owned && x.2.valid? && !x.2.output && x.2.src == 2 && x.2.stream == src

/-! ### The input cut (R373 to R375) -/

/-- An element of a packed byte run is written (R178). -/
def putElem (f : Nat) (bs : Bytes) (base i code : Nat) : Bytes :=
  if fmtBits f = 4 then
    let a := base + i / 2
    let old := (bs.getD a 0).toNat
    bs.set a (BitVec.ofNat 8 (if i % 2 = 0 then old / 16 * 16 + code % 16 else code % 16 * 16 + old % 16))
  else
    let n := fmtBits f / 8
    bs.take (base + i * n) ++ natLe n code ++ bs.drop (base + i * n + n)

/-- The input part with every element at its model default and every mask byte 0 (R375). [DEDUCED log entry 59] -/
def defaultInputs (g : Image) : Bytes :=
  (g.slots.filter fun x => !x.output).foldl (fun bs x =>
    (List.range x.elems).foldl (fun b i => putElem x.fmt b x.offset i (x.dflt.getD i 0)) bs) (zeros g.slotsIn)

/-- The candidate of a point at a cut (R373). -/
def Point.candidate (x : Point) (cut : Nat) : Option Held := x.held.find? fun h => decide (h.stamp ≤ cut) && decide (h.arrived ≤ cut)

/-- binary32 order on values that are not NaN. -/
def f32Le (a b : Nat) : Bool := decide (codeKey 8 a ≤ codeKey 8 b)

/-- Invalid candidate (R373): none, stale, marked, a NaN, out of range. The second says that lack or staleness is the cause. -/
def Point.cutBad (x : Point) (cut : Nat) : Bool × Bool :=
  match x.candidate cut with
  | none => (true, true)
  | some h =>
    if x.stale != 0 && decide (h.stamp + x.stale * 65536000 < cut) then (true, true)
    else (h.bad || codeNan 8 h.val || !f32Le x.min h.val || !f32Le h.val x.max, false)

/-- The model default of an element (R374). -/
def dfltOf (g : Image) (x : Point) : Nat := match g.slots[x.slot]? with | some t => t.dflt.getD x.elem 0 | none => 0

/-- What a cut writes for a point: the element code, the mask byte, the changed point (R373, R374). -/
def Point.cutInput (x : Point) (g : Image) (cut : Nat) : Nat × Nat × Point :=
  let bad := x.cutBad cut
  if bad.1 then
    let v := match x.fbpol with
      | 0 => x.valid.getD (dfltOf g x)
      | 1 => (convert 8 x.fmt true true x.fbval).code
      | _ => dfltOf g x
    (v, 0, if bad.2 then { x with staleCnt := satInc 16 x.staleCnt } else x)
  else
    let v := (convert 8 x.fmt true true (match x.candidate cut with | some h => h.val | none => 0)).code
    (v, 1, { x with valid := some v })

/-- Pending point changes of a partition take effect at its input cut (R371): for the cut, and for the emission of its frame at an instant, so an emission of an
earlier frame goes by the entry as it was. -/
def State.applyPoints (s : State) (p emitT : Nat) : State :=
  (s.field.points.filter fun x => x.2.owned && x.2.part == p && x.2.pend.isSome).foldl (fun z x =>
    z.modPoint x.1 fun y => match y.pend with
      | some r => if y.output then { y with pend := none, nexts := y.nexts ++ [(emitT, r)] } else { y with raw := r, pend := none }
      | none => y) s

/-- The changes of output points that govern the emission at an instant (R371, R378). -/
def State.applyOutputs (s : State) (p emitT : Nat) : State :=
  (s.field.points.filter fun x => x.2.owned && x.2.part == p && x.2.nexts.any fun n => decide (n.1 ≤ emitT)).foldl (fun z x =>
    z.modPoint x.1 fun y => { y with
      raw := (y.nexts.filter fun n => decide (n.1 ≤ emitT)).foldl (fun _ n => n.2) y.raw
      nexts := y.nexts.filter fun n => !decide (n.1 ≤ emitT), hasL := false }) s

/-- The assembly of the input part at a cut (R373 to R375). -/
def State.assemble (s : State) (p cut : Nat) : Bytes × State :=
  match (s.part p).img.image with
  | none => ([], s)
  | some g =>
    (s.pointsOf p false).foldl (fun z x =>
      let r := x.2.cutInput g cut
      match g.slots[x.2.slot]? with
      | none => z
      | some t => (putElem 5 (putElem t.fmt z.1 t.offset x.2.elem r.1) t.mask x.2.elem r.2.1, z.2.modPoint x.1 fun _ => r.2.2)) (defaultInputs g, s)

/-! ### The guard (R377 to R380) -/

/-- Addition of binary32 codes, rounded once (R183). -/
def f32Add (a b : Nat) : Nat := (roundVal 8 true false ((decodeVal 8 a).add (decodeVal 8 b))).code
def f32Sub (a b : Nat) : Nat := (roundVal 8 true false ((decodeVal 8 a).add (decodeVal 8 b).negate)).code

/-- A value held within two bounds; a bound that is a NaN, as L - PT.RATE of two infinities, bounds nothing. [DESIGN CHOICE log entry 80] -/
def f32Clamp (lo hi v : Nat) : Nat :=
  if !codeNan 8 lo && decide (codeKey 8 v < codeKey 8 lo) then lo else if !codeNan 8 hi && decide (codeKey 8 hi < codeKey 8 v) then hi else v

/-- The fallback value of an output point as binary32 (R379). l: the last emitted value. -/
def Point.outFallback (x : Point) (g : Option Image) (l : Option Nat) : Nat :=
  let d := match g with | some g => (convert x.fmt 8 true false (dfltOf g x)).code | none => 0
  match x.fbpol with
  | 0 => l.getD d
  | 1 => x.fbval
  | _ => d

/-- The guard's result for one output point (R378, R379): the wire code; a fallback; changed by the guard. elem: the element taken, or none
for a fallback at the instant. -/
def Point.guard (x : Point) (g : Option Image) (l : Option Nat) (elem : Option Nat) : Nat × Bool × Bool :=
  let wire := fun v => (convert 8 x.wfmt true true v).code
  let fb := wire (f32Clamp x.min x.max (x.outFallback g l))
  match elem with
  | none => (fb, true, f32Clamp x.min x.max (x.outFallback g l) != x.outFallback g l)
  | some e =>
    let v := (convert x.fmt 8 true false e).code
    if codeNan 8 v then (fb, true, true) else
    let v3 := match l with | some l => f32Clamp (f32Sub l x.rate) (f32Add l x.rate) v | none => v
    let v4 := f32Clamp x.min x.max v3
    (wire v4, false, v3 != v || v4 != v3)

/-- The output streams of a partition with their points, by the lowest point index (R377). [DEDUCED log entry 80] -/
def groupPoints : List (Nat × Point) → List ((Nat × Nat × Nat) × List (Nat × Point))
  | [] => []
  | x :: t =>
    let k := (x.2.port, x.2.sub, x.2.stream)
    let r := groupPoints t
    match r.find? fun g => g.1 == k with
    | some g => (k, x :: g.2) :: r.filter fun y => y.1 != k
    | none => (k, [x]) :: r

/-- A Haulm frame (R363, R365). -/
def haulmFrame (typ flags role stream seq stamp count fmt source step bir : Nat) (body : Bytes) : Bytes :=
  let h := natLe 4 0x4C554148 ++ [1] ++ natLe 1 typ ++ natLe 1 flags ++ natLe 1 role ++ natLe 4 stream ++ natLe 8 seq ++ timeBytes stamp ++
    natLe 2 count ++ natLe 1 fmt ++ [0] ++ natLe 2 source ++ [0, 0] ++ natLe 8 step ++ natLe 8 bir ++ zeros 8
  let b := h ++ fit (ceilDiv body.length 4 * 4) body
  b ++ natLe 4 (crc32c b)

/-- The valid destination record of a stream on a port and sub-port (R382, R425). [DESIGN CHOICE log entry 40] -/
def State.destOf (s : State) (stream port sub : Nat) : Bytes :=
  match s.field.dests.find? fun d => bit (fld d.2 2 1) 0 && fld d.2 4 4 == stream && fld d.2 3 1 % 32 == port + 8 * sub with
  | some d => d.2
  | none => []

/-- What the guard does with one stream at an emission (R377, R378): the frame leaves; for a frame at E every point takes its last
emitted value. late: the last emitted values that the frame's emission saw (R380); a point that discards late values keeps in the late frame the
value emitted at E. Answers also whether a value fell back. [DESIGN CHOICE log entry 80] -/
def State.emitStream (s : State) (p : Nat) (e : Emit) (vals : Option Bytes) (late : Option (List (Nat × Option Nat)))
    (k : Nat × Nat × Nat) (pts : List (Nat × Point)) : State × Bool :=
  let q := s.part p
  let g := q.img.image
  let rs := pts.map fun x =>
    let l := match late with
      | none => if x.2.hasL then some x.2.lastVal else none
      | some ls => match ls.find? fun y => y.1 == x.1 with | some y => y.2 | none => none
    let el := match vals, g with
      | some v, some g => (g.slots[x.2.slot]?).map fun t => elemAt t.fmt (v.drop t.offset) x.2.elem
      | _, _ => none
    (x.1, x.2, if late.isSome && !x.2.latepol then ((convert 8 x.2.wfmt true true x.2.lastVal).code, true, false) else x.2.guard g l el)
  let fmt := match pts with | x :: _ => x.2.wfmt | [] => 8
  let n := pts.length
  let codes := (List.range n).map fun i => match rs.find? fun r => r.2.1.vidx == i with | some r => r.2.2.1 | none => 0
  let fb := rs.any fun r => r.2.2.2.1
  let cl := rs.any fun r => r.2.2.2.2
  let flags := b2n late.isSome + 2 * b2n fb + 8 * b2n cl
  let cfg := (s.port k.1).subCfg k.2.1
  let frame := haulmFrame 2 flags q.twin.role k.2.2 e.seq e.emitT n fmt (fld cfg 6 2) e.step (fld q.cnt.bir 0 8) (packElems fmt codes)
  let msa := match pts with | x :: _ => x.2.msa | [] => 0
  let s1 := rs.foldl (fun z r => z.modPoint r.1 fun x =>
    let x1 := if r.2.2.2.2 then { x with guardCnt := satInc 16 x.guardCnt } else x
    if late.isSome then x1 else
      { x1 with lastVal := (convert r.2.1.wfmt 8 true false r.2.2.1).code, lastStamp := e.emitT, hasL := true }) s
  let dest := s.destOf k.2.2 k.1 k.2.1
  if (s.port k.1).mode = 1 then (s1.send 1 k.1 k.2.1 msa frame late.isSome, fb)
  else if dest.isEmpty then (s1.modPort k.1 fun x => { x with txDrop := satAdd x.txDrop 1 }, fb)
  else (s1.send 2 k.1 k.2.1 msa (udpFrame cfg dest frame) late.isSome, fb)

/-- A partition's output streams, each as one frame. -/
def State.emitAll (s : State) (p : Nat) (e : Emit) (vals : Option Bytes) (late : Option (List (Nat × Option Nat)))
    (keep : List (Nat × Point) → Bool) : State × Bool :=
  ((groupPoints (s.pointsOf p true)).filter fun g => keep g.2).foldl (fun z g =>
    let r := z.1.emitStream p e vals late g.1 g.2
    (r.1, z.2 || r.2)) (s, false)

/-- Late values (R380): the streams with a point that sends them, against the last values of the frame's own emission. [DESIGN CHOICE log entry 80] -/
def State.emitLate (s : State) (p : Nat) (e : Emit) (vals : Bytes) : State :=
  (s.emitAll p e (some vals) (some e.lasts) fun pts => pts.any fun x => x.2.latepol).1

/-- The output part of a partition's tensor slots as it stands in HBM. -/
def State.outputPart (s : State) (p : Nat) : Bytes :=
  let q := s.part p
  match q.img.image with
  | none => []
  | some g => memRead q.img.hbm (s.regionOff q 2 + g.slotsIn) g.slotsOut

/-- DIGEST_FRAME_SEND (R364, R381): the next DIGEST frame goes to the field ports of the partition that ask for it, after the emission
window. -/
def execDigestFrameSend (p : Nat) (s : State) : Host.Outcome State Fault Refusal :=
  .next (match (s.part p).run.digests with
  | [] => s
  | d :: rest =>
    let q := s.part p
    if q.run.emits.any fun e => e.window && !e.emitted then s else
    let s1 := s.modRun p fun r => { r with digests := rest }
    ((List.range 8).filter fun i => bit q.res.ports i).foldl (fun z i =>
      (List.range (if (z.port i).mode = 3 then 4 else 1)).foldl (fun y sb =>
        let cfg := (y.port i).subCfg sb
        if bit (fld cfg 3 1) 2 then
          y.sendShared 4 i sb (haulmFrame 4 0 q.twin.role p d.1 d.2.2.1 32 5 (fld cfg 6 2) d.2.1 (fld q.cnt.bir 0 8) d.2.2.2)
        else y) z) s1)

/-- TIME_FRAME_SEND (R368): at each whole second of module time, once, after any emission window. [DESIGN CHOICE log entry 20] -/
def execTimeFrameSend (port : Nat) (s : State) : Host.Outcome State Fault Refusal :=
  .next (
    let x := s.port port
    let sec := s.now / Config.tSec
    if x.mode == 1 && bit (fld (x.subCfg 0) 3 1) 1 && s.time.runs && x.timeSec != some sec && !s.inWindow port then
      (s.modPort port fun y => { y with timeSec := some sec }).send 5 port 0 0 (haulmFrame 5 0 0 0 0 s.now 0 8 (fld (x.subCfg 0) 6 2) 0 0 []) false
    else s)

end Sys2Proof.Machine
end

