-- ==== Sys2Proof/Machine/Measure.lean ====
section
/-! DEFINITION. Awn inputs, the phase tracker, virtual sources, eye margins and temperatures (13), with sampled values (R360). -/

namespace Sys2Proof.Machine

def State.modMeas (s : State) (f : Measure → Measure) : State := { s with meas := f s.meas }
def State.awn (s : State) (i : Nat) : Awn := s.meas.awn.getD i {}
def State.modAwn (s : State) (i : Nat) (f : Awn → Awn) : State := s.modMeas fun m => { m with awn := m.awn.put i (f (m.awn.getD i {})) }
def State.lane (s : State) (i : Nat) : Lane := s.meas.lanes.getD i {}
def State.modLane (s : State) (i : Nat) (f : Lane → Lane) : State := s.modMeas fun m => { m with lanes := m.lanes.put i (f (m.lanes.getD i {})) }

/-! ### Phase and frequency -/

/-- The advance of a phase over a time in units of 1/65,536 ns at a frequency in uHz (R89), rounded to the nearest unit of 2^-32 turn. -/
def phaseAdvance (freq : Nat) (dt : Int) : Int := rne ((freq : Int) * dt * 4294967296) (1000000 * Config.tSec)

/-- An estimate extrapolated linearly to an instant (R89, R94). -/
def Estimate.at (x : Estimate) (t : Nat) : Estimate :=
  { x with phase := ofSigned 32 ((x.phase : Int) + phaseAdvance x.freq ((t : Int) - x.stamp)), stamp := t }

/-- One cycle of the fundamental in units of 1/65,536 ns. -/
def cycleTime (freq : Nat) : Nat := if freq = 0 then 0 else 1000000 * Config.tSec / freq

/-- The first instant at or after t at which an extrapolated phase equals an angle (R88, R89). -/
def Estimate.next (x : Estimate) (angle t : Nat) : Nat :=
  if x.freq = 0 then t else
  t + ceilDiv (ofSigned 32 ((angle : Int) - (x.at t).phase) * (1000000 * Config.tSec)) (4294967296 * x.freq)

/-- The estimate that phase triggers run on (R94): the newest in LOCKED, otherwise the flywheel. -/
def Awn.drive (a : Awn) : Option Estimate := if a.state = 2 then a.est else a.base

/-- Tracking range (R387), in uHz. -/
def Awn.inRange (a : Awn) (f : Nat) : Bool :=
  if a.nom then decide (51000000 ≤ f ∧ f ≤ 69000000) else decide (42500000 ≤ f ∧ f ≤ 57500000)

/-- A phase without lock for 2 s (R94). -/
def State.noLock (s : State) (src : Nat) : Bool :=
  let a := s.awn src
  a.state != 2 && (a.state != 3 || decide (a.flySince + 5000000000 ≤ s.opTicks))

/-- An enabled PHASE entry names the source. -/
def State.phaseUse (s : State) (src : Nat) : Bool := s.ltes.any fun e => e.2.owned && e.2.en && e.2.trig == 1 && e.2.src == src

/-- A source enters FLYWHEEL (R387): it is counted, and a warning recorded where a PHASE entry uses it (R94). -/
def State.toFlywheel (s : State) (src : Nat) : State :=
  let s1 := s.modAwn src fun a => { a with state := 3, lockCnt := satAdd a.lockCnt 1, good := 0, low := 0, flySince := s.opTicks, flyTold := false }
  if s.phaseUse src then s1.record 3 0x0013 0x06 src [] else s1

/-- The tracker's state after an estimate (R387). dev is in units of 10^-4 degree, rms in uV. -/
def State.trackState (s : State) (src : Nat) (x : Track) : State :=
  let a := s.awn src
  if !a.en then s.modAwn src fun a => { a with state := 0, good := 0, low := 0 } else
  let ok := decide (x.dev ≤ 500)
  match a.state with
  | 0 => if decide (35000 ≤ x.rms) && a.inRange x.freq then s.modAwn src fun a => { a with state := 1, good := 0 } else s
  | 1 =>
    if !x.cycleEnd then s else
    let g := if ok then a.good + 1 else 0
    s.modAwn src fun a => if 10 ≤ g then { a with state := 2, good := 0, low := 0 } else { a with good := g }
  | 2 =>
    let low := if x.cycleEnd then (if x.rms < 14000 then a.low + 1 else 0) else a.low
    if decide (2 ≤ low) || !a.inRange x.freq || decide (100000 < x.dev) then s.toFlywheel src
    else s.modAwn src fun a => { a with low := low }
  | _ =>
    if !x.cycleEnd then s else
    let g := if ok then a.good + 1 else 0
    s.modAwn src fun a => if 3 ≤ g then { a with state := 2, good := 0, low := 0 } else { a with good := g }

/-! ### Quantities (R388) -/

/-- A quotient of integers as a value, exact but for a sticky bit. -/
def ratVal (neg : Bool) (n d : Nat) : Val := .fin neg (n * 2 ^ 96 / d) (-96) (n * 2 ^ 96 % d != 0)

/-- 2π in units of 2^-128. -/
def twoPi128 : Nat := 2138057168129933495719360746323741566601

/-- MAINS_PHASE × 2π / 2^32, rounded once. -/
def phaseRad (ph : Nat) : Nat := (roundVal 8 true false (.fin false (ph * twoPi128) (-160) (ph != 0))).code

/-- Codes 0, 1, 2 and 7, which follow from the estimate and the state. -/
def quantity (a : Awn) (x : Estimate) (code : Nat) : Nat :=
  let nom := if a.nom then 60000000 else 50000000
  match code with
  | 0 => (roundVal 8 true false (ratVal false x.freq 1000000)).code
  | 1 => (roundVal 8 true false (ratVal (x.freq < nom) (x.freq - nom + (nom - x.freq)) 1000000)).code
  | 2 => phaseRad x.phase
  | 7 => (roundVal 8 true false (Val.ofInt (a.state + 4 * b2n x.past))).code
  | _ => x.q.getD code 0

/-- An estimate becomes the newest of its source, and its quantities go to the points that name them (R388): the harmonics once per
cycle; marked invalid outside LOCKED, code 7 excepted, and above the order limit of a virtual source (R391). In FLYWHEEL the tracker
extrapolates (R94). -/
def State.giveEstimate (s : State) (src : Nat) (x : Estimate) (cycleEnd : Bool) (limit : Nat) : State :=
  let a := s.awn src
  let e := if a.state = 3 then (match a.base with | some b => { b.at x.stamp with past := x.past } | none => x) else x
  let s1 := s.modAwn src fun a => { a with est := some e, base := if a.state = 2 then some e else a.base }
  (s1.trackerPoints src).foldl (fun z p =>
    let code := p.2.vidx
    if code < 8 || cycleEnd then
      let bad := (a.state != 2 && code != 7) || (decide (64 ≤ code) && decide (limit ≤ code % 64))
      z.acceptValue p.1 (quantity a e code) e.stamp bad
    else z) s1

/-- The first instant and its number of a PHASE entry from its source's estimate (R93): the first match at or after the anchor is number 0;
one that has passed when the entry takes effect is counted on the present estimate (log entry 45). -/
def Lte.firstPhase (e : Lte) (x : Estimate) : Nat × Nat :=
  let t := x.next e.phase (e.since + 1)
  if e.anchor = 0 then (t, 0) else
  let a := x.next e.phase e.anchor
  if t ≤ a then (a, 0) else (t, (t - a + cycleTime x.freq / 2) / max 1 (cycleTime x.freq))

/-- A phase match of a PHASE entry at or after an instant, half a cycle or more after the last one counted, and its number (R93, R94): the cycles that the
estimate runs through in between. [DEDUCED log entry 45] -/
def Lte.nextPhase (e : Lte) (x : Estimate) (from_ : Nat) : Nat × Nat :=
  match e.lastT with
  | none => e.firstPhase x
  | some t =>
    let c := max 1 (cycleTime x.freq)
    let m := x.next e.phase (max (t + c / 2) from_)
    (m, e.cyc + ((m - t + c / 2) / c - 1))

/-- PHASE entries of a source number the instants up to t (R93, R94), those of a gap without samples included. [DEDUCED log entry 45] -/
def State.numberPhases (s : State) (src t : Nat) : State :=
  match (s.awn src).drive with
  | none => s
  | some x =>
    if x.freq = 0 then s else
    (s.ltes.filter fun e => e.2.owned && e.2.en && e.2.trig == 1 && e.2.src == src).foldl (fun z e =>
      let n := e.2.nextPhase x (t + 1 - cycleTime x.freq)
      if n.1 ≤ t then z.modLte e.1 fun y => { y with lastT := some n.1, cyc := n.2 + 1 } else z) s

/-- One tracker estimate of a source at a raw stamp (R387 to R389, R395): the calibration record i is applied to stamp and phase. A source whose tracking is
disabled gives none (R397). -/
def State.track (s : State) (src i t : Nat) (past : Bool) (x : Track) (limit : Nat) : State :=
  let s1 := s.trackState src x
  if !(s.awn src).en then s1 else
  let f := s.calFactory i
  let u := s.calUser i
  let q := x.q.foldl (fun (z : Tbl Nat) y => z.put y.1 y.2) []
  (s1.giveEstimate src ⟨x.freq, calPhase f u x.phase x.freq, calStamp f u t, past, q⟩ x.cycleEnd limit).numberPhases src (calStamp f u t)

/-- OVER_RANGE (R386): flag, count, at most one warning a second. [DEDUCED log entry 123] -/
def State.overRange (s : State) (ch t : Nat) : State :=
  let a := s.awn ch
  let tell := match a.warned with | none => true | some w => decide (w + 1000 ≤ s.opMs)
  let s1 := s.modAwn ch fun a => { a with ovr := true, ovrSet := some s.opTicks, ovrCnt := satAdd a.ovrCnt 1, ovrAt := some t, warned := if tell then some s.opMs else a.warned }
  if tell then s1.record 3 0x0030 0x06 ch [] else s1

/-- One sample of a channel (R385 to R388). -/
def State.awnOne (s : State) (t : Nat) (x : Nat × Int × Track) : State :=
  if 12 ≤ x.1 then s else
  let s1 := if 8388607 ≤ x.2.1 || x.2.1 ≤ -8388608 then s.overRange x.1 t else s
  let past := match (s1.awn x.1).ovrAt with | some o => decide (t < o + cycleTime x.2.2.freq) || o == t | none => false
  s1.track x.1 x.1 t past x.2.2 64

/-- AWN_SAMPLE (R385): the 12 converters sample at an instant of the grid of 3,906.25 ns; the tracker gives its estimates. What the
measurement gives is the command's (log entry 3). -/
def execAwnSample (samples : List (Nat × Int × Track)) (s : State) : Host.Outcome State Fault Refusal :=
  .next (if !s.time.runs then s else
    let t := s.now / 256000000 * 256000000
    samples.foldl (fun z x => z.awnOne t x) s)

/-! ### Sampled values (R360, R390) -/

/-- A quotient rounded to nearest, ties to even (R183). -/
def nearestDiv (a b : Nat) : Nat := let q := a / b; let r := a % b; if 2 * r < b || (2 * r == b && q % 2 == 0) then q else q + 1

/-- The stamp of an ASDU (R360): from smpCnt where it counts as synchronised, otherwise the arrival less the delay. [DESIGN CHOICE log entry 88] -/
def svStamp (raw : Bytes) (now smpCnt smpSynch : Nat) : Nat :=
  let base := now - fld raw 22 4 * 65536
  let rate := fld raw 12 2
  if (smpSynch = 2 || (smpSynch = 1 && bit (fld raw 1 1) 1)) && rate != 0 then
    let o := nearestDiv (smpCnt * Config.tSec) rate
    (((base : Int) - o + Config.tSec / 2) / (Config.tSec : Int)).toNat * Config.tSec + o
  else base

/-- SV_ASDU (R360, R366, R390), on a port in Ethernet mode that is up: each value of an ASDU of subscription v, with its quality word, goes to the points that name it, and the
tracked value to virtual source 64 + v. track: what the tracker makes of it (log entry 3). [DESIGN CHOICE log entry 40] -/
def execSvAsdu (v smpCnt confRev smpSynch : Nat) (values : List (Nat × Nat)) (track : Option Track) (s : State) : Host.Outcome State Fault Refusal :=
  .next (match s.field.subs.get? v with
  | none => s
  | some sb =>
    let raw := sb.raw
    if !bit (fld raw 1 1) 0 then s else
    let port := fld raw 26 1 % 8
    if !(((s.port port).mode == 2 || (s.port port).mode == 3) && (s.port port).isUp (fld raw 26 1 / 8 % 4)) then s else
    let t := svStamp raw s.now smpCnt smpSynch
    let f := s.calFactory (64 + v)
    let u := s.calUser (64 + v)
    let bad := fun (q : Nat) => q % 4 != 0 || bit q 11 || confRev != fld raw 14 4
    let s1 := s.modField fun x => { x with subs := x.subs.put v { sb with count := sb.count + 1 } }
    let pts := s1.field.points.filter fun x => x.2.owned && x.2.valid? && !x.2.output && x.2.src == 1 && x.2.stream == v
    let key := 2 ^ 40 + v
    let old := (s.port port).last.get? key
    let late := match old with | some (_, o) => decide (t < o) | none => false
    let s2 :=
      if pts.isEmpty then s1.portDrop port 2
      else if late then s1.portDrop port 3
      else pts.foldl (fun z p => match values[p.2.vidx]? with
        | none => z
        | some (x, q) =>
          let y := calValue f u ((Val.ofInt (toSigned 32 x)).mul (decodeVal 8 (fld raw 18 4)))
          (z.acceptValue p.1 y (calStamp f u t) (bad q)).eventTrigger 1 p.1 z.now)
        (s1.modPort port fun y => { y with last := y.last.put key (sb.count + 1, t) })
    match values[fld raw 2 1]?, track with
    | some (_, q), some x =>
      if bad q || late then s2 else
      let f1 := if x.freq = 0 then 0 else ceilDiv (fld raw 12 2 * 1000000) (3 * x.freq)
      s2.track (64 + v) (64 + v) t false x f1
    | _, _ => s2)

/-- VIRTUAL_SOURCE_GAP (R390): more than 4 samples are missing. -/
def execVirtualSourceGap (v : Nat) (s : State) : Host.Outcome State Fault Refusal :=
  .next (if (s.awn (64 + v)).state = 2 && decide (v < 64) then s.toFlywheel (64 + v) else s)

/-- FLYWHEEL_TIMEOUT (R94, R387): 2 s without lock; an error is recorded once where a PHASE entry uses the source. -/
def execFlywheelTimeout (src : Nat) (s : State) : Host.Outcome State Fault Refusal :=
  .next (
    let a := s.awn src
    if a.state = 3 && decide (a.flySince + 5000000000 ≤ s.opTicks) then
      let s1 := s.modAwn src fun a => { a with state := 0, good := 0, low := 0, flyTold := true }
      if s.phaseUse src && !a.flyTold then s1.record 4 0x0013 0x06 src [] else s1
    else s)

/-! ### Lanes and temperatures -/

/-- LANE_EYE_MEASUREMENT (R393): margins in units of 0.1 mV and 1/1,024 UI. [DEDUCED log entry 123] -/
def execLaneEyeMeasurement (lane vmin hmin : Nat) (s : State) : Host.Outcome State Fault Refusal :=
  .next (if !s.alive || 48 ≤ lane then s else
    let x := s.lane lane
    let lowNow := vmin < 80 || 20 * hmin < 1024
    let run := if lowNow then x.lowRun + 1 else 0
    let set := decide (10 ≤ run)
    let tell := set && (match x.warned with | none => true | some w => decide (w + 3600000 ≤ s.opMs))
    let s1 := s.modLane lane fun x => { x with
      vmin := vmin % 65536, hmin := hmin % 65536, updates := satAdd x.updates 1, lowRun := run, low := x.low || set, lowSet := if set then some s.opTicks else x.lowSet
      lowSince := if set && !x.low then s.opMs else x.lowSince, warned := if tell then some s.opMs else x.warned }
    if tell then s1.record 3 0x0030 0x04 lane [] else s1)

/-- A retired lane narrows its link (R505): a Rachis lane leaves the twin link; a field lane takes itself, or a single-link Ethernet port,
down. -/
def State.laneRetired (s : State) (lane : Nat) : State :=
  if lane < 16 then (s.modTwin fun t => { t with retired := t.retired ||| 2 ^ lane }).rachisLost (2 ^ lane)
  else
    let p := (lane - 16) / 4
    let b := 2 ^ ((lane - 16) % 4)
    let x := s.port p
    let up := x.isUp ((lane - 16) % 4)
    let y := { x with retired := x.retired ||| b, lanes := if x.mode = 2 then 0 else x.lanes &&& (15 - b) }
    let s1 := s.modPort p fun _ => y
    if up && !y.isUp ((lane - 16) % 4) then (s1.modPort p fun x => x.goDown s.opTicks).record 3 0x0030 0x05 p (natLe 1 b) else s1

/-- LANE_CHARGE (R504): the lane lost alignment while the rest of its link stays up, or LOW has stayed set for a further operating hour. -/
def execLaneCharge (lane : Nat) (lost : Bool) (s : State) : Host.Outcome State Fault Refusal :=
  .next (if !s.alive || 48 ≤ lane || s.disabled 4 lane then s else
    let x := s.lane lane
    let hour := x.low && decide (x.lowSince + 3600000 ≤ s.opMs)
    if !lost && !hour then s else
    let s1 := if lost then s else s.modLane lane fun x => { x with lowSince := x.lowSince + 3600000 }
    let s2 := (s1.record 3 0x0030 0x04 lane []).charge 4 lane
    if s2.disabled 4 lane then s2.laneRetired lane else s2)

/-- TEMPERATURE_SAMPLE (R392, R398): readings in units of 0.125 degrees C, of compute-die sensors, stacks, the root die and edge dies. [DESIGN CHOICE log entry 61] -/
def execTemperatureSample (dies : List (Nat × Nat × Int)) (stks root edge : List (Nat × Int)) (s : State) : Host.Outcome State Fault Refusal :=
  .next (
    if !s.alive then s else
    let s1 := dies.foldl (fun z x => if x.1 < Config.nDies ∧ x.2.1 < 4 then
      { z with
        dies := z.dies.put x.1 { (z.dies.getD x.1 {}) with temp := (z.dies.getD x.1 {}).temp.put x.2.1 x.2.2 }
        board := { z.board with jMax := match z.board.jMax with | some m => some (max m x.2.2) | none => some x.2.2 } } else z) s
    let s2 := stks.foldl (fun z x => if x.1 < z.stacks then { z with hbm := { z.hbm with temp := z.hbm.temp.put x.1 x.2 } } else z) s1
    let s3 := root.foldl (fun z x => if x.1 < 16 then z.modMeas fun m => { m with root := m.root.put x.1 x.2 } else z) s2
    edge.foldl (fun z x => if x.1 < 16 then z.modMeas fun m => { m with edge := m.edge.put x.1 x.2 } else z) s3)

end Sys2Proof.Machine
end

