-- ==== Sys2Proof/Machine/Tick.lean ====
section
/-! DEFINITION. One cycle of the compute clock, which passes when no command waits (R7, R76, R112, R309, R439; log entry 1). -/

namespace Sys2Proof.Machine

/-- A held cycle of a frame (R105, R317): of its inference step, or of an update step. [DESIGN CHOICE log entry 1, DEDUCED log entry 99] -/
def Frame.heldCycle (f : Frame) : Frame := if f.idx = 0 then { f with heldInf := f.heldInf + 1 } else { f with heldUpd := f.heldUpd + 1 }

/-- The running part of a partition over one cycle (R309, R310): the logical cycle and the step cycle of a step stand still while a hold is in
effect; with no step running every cycle counts. A held cycle counts for the frame, one that has not begun included. [DESIGN CHOICE log entry 1] -/
def PRun.tick (r : PRun) : PRun :=
  if r.held then { r with logical := if r.stepRun then r.logical else r.logical + 1, frame := r.frame.map Frame.heldCycle }
  else { r with logical := r.logical + 1, stepCyc := if r.stepRun then r.stepCyc + 1 else r.stepCyc }

/-- The most that the hardware steers (R77), in units of the counter per cc: 50 ppm of the increment to track the source, and 50 ppm beyond it to slew. -/
def trackMax : Int := 5629499534
def slewMax : Nat := 5629499534

/-- What one cycle takes off the offset that is being slewed (R77, R83). -/
def Time.slewStep (t : Time) : Int := let k := min t.left.natAbs slewMax; if t.left < 0 then k else -(k : Int)

/-- 10 MHz in may serve: within its limits and enabled (R36, R80, R86). -/
def Time.tenOn (t : Time) : Bool := t.tenMhz && bit (fld t.cfg 6 1) 1

/-- Module time over one cycle of the oscillator (R76, R77, R81, R82, R83). [DESIGN CHOICE log entry 7] -/
def Time.tick (t : Time) : Time :=
  if !t.runs then t else
  { t with
    count := ((t.count + Config.incNominal : Int) + max (-trackMax) (min trackMax t.track) + t.slewStep).toNat
    left := t.left + t.slewStep
    holdErr := if t.state = 3 then t.holdErr + (if t.tenOn then 1 else 20) else t.holdErr }

/-- The clocks over one cycle: the cycle count, the operating time, module time where it runs (R76, R81), the cycles of the partitions, and
the physical cycles spent held (R331). -/
def State.clock (s : State) : State :=
  { s with
    cc := if 2 ≤ s.ctl.mstate then s.cc + 1 else s.cc
    opTicks := s.opTicks + 1
    time := s.time.tick
    hbm := if 2 ≤ s.ctl.mstate then s.hbm.tick s.cc else s.hbm
    parts := s.parts.map fun x => (x.1, { x.2 with
      run := x.2.run.tick
      cnt := if x.2.run.held then { x.2.cnt with holdCc := satAdd x.2.cnt.holdCc 1 } else x.2.cnt }) }

/-- A flit that its source injects in this cycle takes its bytes from the scratchpad (R289, R297, R298), with their poison. -/
def Flit.fill (f : Flit) (m : CoreSp) : Flit :=
  match f.pull with
  | none => f
  | some (o, a, n) =>
    let us := unitsOf a n
    { f with
      data := f.data.take o ++ memRead m.mem a n ++ f.data.drop (o + n), poison := f.poison || m.poisoned us, pull := none,
      psrc := if f.poison then f.psrc else m.srcIn us }

/-- Injection of a partition's flits at their logical cycles (R289, R298): one whose read fails its detection code raises SP_ERROR (R243). -/
def State.injectDue (s : State) (p : Nat) : State :=
  let q := s.part p
  let now := q.run.stepCyc
  if !q.run.stepRun || q.run.held then s else
  let due := fun (f : Flit) => f.pull.isSome && decide (f.at_ ≤ now)
  let core := fun (f : Flit) => q.res.place.getD f.src 0
  if !q.run.net.any due then s else
  let s1 := s.modRun p fun r => { r with net := r.net.map fun f => if due f then f.fill ((s.core (core f)).sp.seen s.cc) else f }
  (q.run.net.filter due).foldl (fun t f => match f.pull with
    | some (_, a, n) => match ((s.core (core f)).sp.seen s.cc).badIn a n with
      | some w =>
        let tag := if f.kind = 5 then 0 else match (s.core (core f)).flightOf 5 f.num with | some g => wTag g.word | none => 0
        t.spErrorAt (core f) 5 tag (if f.kind = 5 then now else placeAfter q f.num) w
      | none => t
    | none => t) s1

/-- The STS instructions of a core whose write is due (R126): the words are merged and written (R239). -/
def Core.landSts (k : Core) (cc now : Nat) : Core :=
  let due := fun (f : Flight) => f.eng == 6 && f.writes.any fun w => decide (w.cycle ≤ now)
  if !k.flights.any due then k else
  let ws := (k.flights.filter due).flatMap Flight.writes
  let k1 := ws.foldl (fun k w => k.land cc w) k
  { k1 with flights := k1.flights.map fun f => if due f then { f with writes := [] } else f }

/-- What happens in a core at the start of a cycle of its step: reads that fail their detection code (R243), the writes of STS (R126). -/
def State.coreTick (s : State) (c : Nat) : State :=
  match s.liveCycle c with
  | none => s
  | some (p, _, now) =>
    let k := s.core c
    let bad := k.flights.flatMap fun f => if (k.eng.getD f.eng {}).stopped then [] else (f.errs.filter fun x => x.1 == now).map fun x => (f, x.2)
    let s1 := bad.foldl (fun t x => t.spErrorAt c x.1.eng (wTag x.1.word) (placeAfter (s.part p) x.1.issueNo) x.2) s
    if k.flights.any fun f => f.eng == 6 && !f.writes.isEmpty then s1.modCore c fun k => k.landSts s.cc now else s1

/-- One cycle on an empty queue (log entry 1): the networks do their work of the cycle, the clocks move, and what the cores and interfaces do of themselves in
the new cycle is done. [DESIGN CHOICE log entry 7] -/
def State.tick (s : State) : State :=
  if !s.board.input then s else
  let s1 := ((List.range Config.nParts).foldl State.injectDue s).routers.memNet.clock
  (s1.cores.map Prod.fst).foldl State.coreTick s1

end Sys2Proof.Machine
end

