-- ==== Sys2Proof/Machine/Discipline.lean ====
section
/-! DEFINITION. Module time: the timing inputs, 1PPS, PTP, the choice of source, steps and slews (R36, R37, R75 to R87, R441). -/

namespace Sys2Proof.Machine

def nsT : Nat := 65536
def usT : Nat := 65536000
def msT : Nat := 65536000000

def State.ptp (s : State) (port : Nat) : Ptp := s.time.ports.getD port {}
def State.modPtp (s : State) (port : Nat) (f : Ptp → Ptp) : State := s.modTime fun t => { t with ports := t.ports.put port (f (t.ports.getD port {})) }

/-- TIME_CONFIG in force (R86, R543). -/
def Time.primary (t : Time) : Nat := fld t.cfg 0 1
def Time.secondary (t : Time) : Nat := fld t.cfg 1 1
def Time.peerMode (t : Time) : Bool := fld t.cfg 2 1 == 1
def Time.domain (t : Time) : Nat := fld t.cfg 4 1
def Time.ppsOn (t : Time) : Bool := bit (fld t.cfg 6 1) 0

/-! ### Records (R441) -/

/-- TIME_MARK: module time, then the time state. -/
def State.timeMark (s : State) : State := s.record 1 0x0004 0 0 (timeBytes s.now ++ natLe 1 s.time.state)
/-- TIME: the offset as a signed 64-bit count. -/
def State.timeRecord (s : State) (sev : Nat) (off : Int) : State := s.record sev 0x0005 0 0 (natLe 8 (ofSigned 64 off))

/-! ### Steps and slews (R77, R83) -/

/-- A step is allowed: no partition is RUNNING, HELD, RESTARTING or SHADOW. -/
def State.mayStep (s : State) : Bool :=
  (List.range Config.nParts).all fun p => let x := (s.part p).st; !(x == .running || x == .held || x == .restarting || x == .shadow)

/-- Module time moves by a step (R83): TIME entries go on at the first instant after it; estimates and instants of the phase keep their place; whole seconds are marked anew (R36, R368). -/
def State.stepTime (s : State) (d : Int) : State :=
  let mv := fun (t : Nat) => ((t : Int) + d).toNat
  let s1 := s.modTime fun t => { t with count := ((t.count : Int) + d * 4294967296).toNat, left := 0, ppsSec := none }
  let s1 := s1.modField fun f => { f with ports := f.ports.map fun x => (x.1, { x.2 with timeSec := none }) }
  let est := fun (e : Estimate) => { e with stamp := mv e.stamp }
  let s2 := s1.modMeas fun m => { m with awn := m.awn.map fun a => (a.1, { a.2 with est := a.2.est.map est, base := a.2.base.map est }) }
  let put := fun (e : Nat × Lte) => (e.1, if e.2.trig = 0 then { e.2 with since := s2.now, lastT := none }
    else if e.2.trig = 1 then { e.2 with since := mv e.2.since, lastT := e.2.lastT.map mv } else e.2)
  ({ s2 with ltes := s2.ltes.map put }).timeMark

/-- The servo sets the rate that tracks the frequency source (R77, R80): its law is open, a free value that the hardware clamps. [DESIGN CHOICE log entry 48] -/
def State.steer (s : State) : State :=
  let x : Int := (s.fresh 40 : Int) - 549755813888
  (s.modTime fun t => { t with track := max (-trackMax) (min trackMax x) }).bumpFree

/-- The offset of the source in use is taken off (R83), by a step where the source first locks (`first`), otherwise by a slew; one above 10 ms that comes
to be slewed is an error. The rate follows the source where it gives the frequency. Offsets are module time less source time. -/
def State.correct (s : State) (off : Int) (first : Bool) : State :=
  let s1 := s.modTime fun t => { t with offset := off }
  let s2 := if first && decide (msT < off.natAbs) && s1.mayStep then s1.stepTime (-off)
    else
      let big := decide (10 * msT < off.natAbs) && decide (s.time.left.natAbs ≤ 10 * msT * 4294967296)
      (if big then s1.timeRecord 4 off else s1).modTime fun t => { t with left := off * 4294967296 }
  if s.time.freq = s.time.source then s2.steer else s2

/-! ### Sources (R80, R81) -/

/-- A PTP port is in use and locked. [DESIGN CHOICE log entry 49] -/
def State.ptpLocked (s : State) (port : Nat) : Bool := decide (port < 8) && (s.ptp port).locked

/-- The source in use: 0 none, 1 PTP primary, 2 PTP secondary, 3 1PPS. -/
def State.chooseSource (s : State) : Nat :=
  let t := s.time
  let ptp := if s.ptpLocked t.primary then 1 else if s.ptpLocked t.secondary then 2 else 0
  let pps := if t.ppsOn && t.ppsIn && t.known && t.ppsLocked then 3 else 0
  if fld t.cfg 5 1 = 1 then (if pps = 3 then 3 else ptp) else if ptp != 0 then ptp else pps

/-- The frequency source (R80): 10 MHz in whenever it may serve, otherwise the phase source in use. -/
def State.chooseFreq (s : State) : Nat := if s.time.tenOn then 4 else s.chooseSource

/-- The sources and the time state follow what is locked and present; a change of state is marked (R81, R409, R441), and a new frequency source sets the
rate anew. -/
def State.reselect (s : State) : State :=
  let src := s.chooseSource
  let st := match src with | 1 => 1 | 2 => 1 | 3 => 2 | _ => if s.time.known then 3 else 0
  let s1 := s.modTime fun t => { t with
    source := src, freq := s.chooseFreq, holdErr := if st = 3 && t.state != 3 then 0 else t.holdErr, state := st }
  let s2 := if s1.time.freq = s.time.freq || s1.time.freq = 0 then s1 else s1.steer
  if st = s.time.state then s2 else s2.timeMark.event 8

/-! ### 1PPS (R80, R84, R95) -/

/-- The nearest whole second of an instant. -/
def nearestSec (t : Nat) : Nat := (t + Config.tSec / 2) / Config.tSec * Config.tSec

/-- PPS_IN_EDGE (R80, R95): an EVENT trigger; the phase source; a comparison while PTP is in use. The spec gives 1PPS no criterion of lock: it is locked by
the first edge within 100 ms of a whole second. An edge is an EVENT trigger while TIME_CONFIG enables the input, out of its limits included. [DESIGN CHOICE log entry 129, DESIGN CHOICE log entry 130] -/
def execPpsInEdge (s : State) : Host.Outcome State Fault Refusal :=
  .next (
    if !s.time.runs || !s.time.ppsOn then s else
    let now := s.now
    let off : Int := (now : Int) - nearestSec now
    let s1 := s.eventTrigger 0 0 now
    if !s.time.ppsIn then s1 else
    let s2 := s1.modTime fun t => { t with ppsLast := some now }
    if !s.time.known then s2 else
    let refused := decide (100 * msT < off.natAbs)
    let s3 := (s2.modTime fun t => { t with ppsLocked := !refused })
    let s4 := if refused then s3.timeRecord 3 off else s3
    if s.time.source = 1 || s.time.source = 2 then
      let tell := decide (usT < off.natAbs) && (match s.time.lastDisagree with | none => true | some x => decide (x + 150000000000 ≤ s.opTicks))
      (if tell then (s4.modTime fun t => { t with lastDisagree := some s.opTicks }).timeRecord 3 off else s4).reselect
    else
      let s5 := s4.reselect
      if s5.time.source = 3 then s5.correct off (!s.time.ppsLocked) else s5)

/-- PPS_OUT_MARK (R36, R84): each whole second of module time is marked once, within 2 ns of it. Out channel 10. -/
def execPpsOutMark (s : State) : Host.Outcome State Fault Refusal :=
  .next (
    let sec := s.now / Config.tSec
    if s.time.runs && decide (s.now % Config.tSec ≤ 2 * nsT) && s.time.ppsSec != some sec then
      (s.modTime fun t => { t with ppsSec := some sec }).emit 10 sec [] else s)

/-- TIME_MARK (R441): every 10 minutes. -/
def execTimeMark (s : State) : Host.Outcome State Fault Refusal :=
  .next (if s.time.runs && decide (s.time.lastMark + 1500000000000 ≤ s.opTicks) then
    (s.modTime fun t => { t with lastMark := s.opTicks }).timeMark else s)

/-! ### PTP (R78 to R80) -/

/-- A port runs PTP: it is named by TIME_CONFIG and in Ethernet mode (R78). -/
def State.ptpHere (s : State) (port : Nat) : Bool :=
  (port == s.time.primary || port == s.time.secondary) && decide (port < 8) && decide (2 ≤ (s.port port).mode) && s.time.runs

/-- The transport and the tag of TIME_CONFIG (R78, R86): UDP over IPv6, and the tag control information where there is one. -/
def Time.udp (t : Time) : Bool := fld t.cfg 3 1 == 1
def Time.tag (t : Time) : Option Nat := if fld t.cfg 7 1 = 1 then some (fld t.cfg 8 2) else none

/-- A port takes a PTP message (R78, R79, R86): the port runs PTP, the message's domain, transport and VLAN are those configured, and MACsec passes it. [DEDUCED log entry 132] -/
def State.ptpPort (s : State) (port : Nat) (via : PtpVia) (domain : Nat) : Bool :=
  s.ptpHere port && domain == s.time.domain && via.udp == s.time.udp && via.tag.map (· % 4096) == s.time.tag.map (· % 4096) &&
  (s.secCheck port 0 via.sec).isSome

/-- Order of the default best master algorithm: a data set before another. [PRESUMED log entry 50] -/
def dsBetter (a b : Dataset) : Bool :=
  let key := fun (x : Dataset) => [x.prio1, x.cls, x.acc, x.var, x.prio2, x.gm]
  if a.gm = b.gm then decide (a.steps < b.steps) else decide (key a < key b)

/-- A Sync measurement is complete (R80): the offset estimate, the lock of the port, the correction. Before lock an estimate counts when it stays
within 250 ns of the one that began the run; after lock an offset above 10 us that is not being slewed away unlocks (log entry 49). -/
def State.syncDone (s : State) (port t1 t2 : Nat) (corr : Int) : State :=
  let p := s.ptp port
  let off : Int := (t2 : Int) - t1 - corr - p.delay
  let near := decide ((off - p.ref).natAbs ≤ 250 * nsT)
  let run := if p.locked || (near && p.run != 0) then p.run + 1 else 1
  let ref := if p.locked || (near && p.run != 0) then p.ref else off
  let out := p.locked && !p.slew && decide (10 * usT < off.natAbs)
  let lockNow := !p.locked && decide (16 ≤ run)
  let s1 := s.modPtp port fun p => { p with
    offset := off, t1 := t1, t2 := t2, lastSync := s.opTicks, run := if out then 0 else run, ref := ref
    locked := (p.locked || lockNow) && !out, slew := (p.slew || (lockNow && decide (10 * usT < off.natAbs))) && decide (10 * usT < off.natAbs) }
  let s2 := (if lockNow then s1.modTime fun t => { t with known := true } else s1).reselect
  let mine := (s2.time.source == 1 && port == s2.time.primary) || (s2.time.source == 2 && port == s2.time.secondary)
  if !mine then s2 else
  let s3 := s2.correct off (lockNow || s.time.source != s2.time.source)
  if s3.time.count = s2.time.count then s3 else s3.modPtp port fun p => { p with ref := 0, slew := false, offset := 0 }

/-- PTP_SYNC (R78, R80): from the best master. origin: the time stamp it carries, one step; interval in ticks of 0.4 ns. -/
def execPtpSync (port : Nat) (via : PtpVia) (ident domain seq : Nat) (twoStep : Bool) (origin : Nat) (corr : Int) (interval : Nat) (s : State) : Host.Outcome State Fault Refusal :=
  .next (
    let p := s.ptp port
    if !s.ptpPort port via domain || p.best != some ident || interval < 19531250 || 5000000000 < interval then s else
    let s1 := s.modPtp port fun p => { p with interval := interval, lastSync := if twoStep then p.lastSync else s.opTicks }
    if twoStep then s1.modPtp port fun p => { p with pending := some seq, pendT := s.now, pendC := corr }
    else s1.syncDone port origin s.now corr)

/-- PTP_FOLLOW_UP (R78): completes the two-step Sync of its sequence number. -/
def execPtpFollowUp (port : Nat) (via : PtpVia) (ident domain seq origin : Nat) (corr : Int) (s : State) : Host.Outcome State Fault Refusal :=
  .next (
    let p := s.ptp port
    if s.ptpPort port via domain && p.best == some ident && p.pending == some seq then
      (s.modPtp port fun p => { p with pending := none }).syncDone port origin p.pendT (p.pendC + corr)
    else s)

/-- PTP_ANNOUNCE (R78): best master selection over at most 16 foreign masters. A master unheard for three Announce intervals is forgotten. [PRESUMED log entry 50] -/
def execPtpAnnounce (port : Nat) (via : PtpVia) (ident domain : Nat) (ds : Dataset) (interval : Nat) (utc : Option Int) (s : State) : Host.Outcome State Fault Refusal :=
  .next (
    if !s.ptpPort port via domain then s else
    let p := s.ptp port
    let kept := p.masters.filter fun m => m.ident != ident && decide (s.opTicks ≤ m.last + 3 * interval)
    let ms := if kept.length < 16 then kept ++ [⟨ident, ds, s.opTicks⟩] else kept
    let best := ms.foldl (fun (b : Option Master) m => match b with | none => some m | some x => if dsBetter m.ds x.ds then some m else some x) none
    let changed := best.map (·.ident) != p.best
    let s1 := s.modPtp port fun p => { p with
      masters := ms, best := best.map (·.ident), run := if changed then 0 else p.run, locked := p.locked && !changed, pending := if changed then none else p.pending }
    let s2 := match utc with | some u => if best.map (·.ident) == some ident then s1.modTime fun t => { t with utc := u } else s1 | none => s1
    if changed && p.locked then s2.reselect else s2)

/-- PTP_DELAY_RESP (R78): end to end; the mean of the two directions. -/
def execPtpDelayResp (port : Nat) (via : PtpVia) (ident domain seq receipt : Nat) (corr : Int) (s : State) : Host.Outcome State Fault Refusal :=
  .next (
    let p := s.ptp port
    if !s.ptpPort port via domain || s.time.peerMode || p.best != some ident || !p.asked || p.reqSeq != seq || p.t2 = 0 then s else
    let d : Int := (((p.t2 : Int) - p.t1) + ((receipt : Int) - p.reqT) - corr) / 2
    s.modPtp port fun p => { p with asked := false, delay := d })

/-- A PTP message leaves on a port, outside an emission window (R381), on the transport and with the tag configured (R78, R86). Out channel 11: transport,
tag present, tag, message type, domain, sequence number, time stamp. [DEDUCED log entry 132, DEDUCED log entry 133] -/
def State.sendPtp (s : State) (port kind seq stamp : Nat) : State :=
  s.sendShared 11 port 0 (natLe 1 (b2n s.time.udp) ++ natLe 1 (b2n s.time.tag.isSome) ++ natLe 2 (s.time.tag.getD 0) ++ natLe 1 kind ++
    natLe 1 s.time.domain ++ natLe 2 seq ++ timeBytes stamp)

/-- PTP_PDELAY_REQ (R78): in the power utility profile answered with Pdelay_Resp and Pdelay_Resp_Follow_Up; one that arrives in an emission window stays
unanswered. [DESIGN CHOICE log entry 131] -/
def execPtpPdelayReq (port : Nat) (via : PtpVia) (domain seq : Nat) (s : State) : Host.Outcome State Fault Refusal :=
  .next (if s.ptpPort port via domain && s.time.peerMode && !s.inWindow port then (s.sendPtp port 3 seq s.now).sendPtp port 10 seq s.now else s)

/-- PTP_PDELAY_RESP (R78): a response, or its follow-up, completes a peer delay measurement. followUp with its time stamp; one step carries the
turnaround in the correction. -/
def execPtpPdelayResp (port : Nat) (via : PtpVia) (domain seq : Nat) (followUp oneStep : Bool) (stamp : Nat) (corr : Int) (s : State) : Host.Outcome State Fault Refusal :=
  .next (
    let p := s.ptp port
    if !s.ptpPort port via domain || !s.time.peerMode || !p.asked || p.reqSeq != seq then s
    else if !followUp then
      if oneStep then s.modPtp port fun p => { p with asked := false, peer := none, delay := ((s.now : Int) - p.reqT - corr) / 2 }
      else s.modPtp port fun p => { p with peer := some (stamp, s.now) }
    else match p.peer with
      | some (t2, t4) => s.modPtp port fun p => { p with asked := false, peer := none, delay := (((t4 : Int) - p.reqT) - ((stamp : Int) - t2) - corr) / 2 }
      | none => s)

/-- PTP_DELAY_REQ_SEND (R78): Delay_Req, or Pdelay_Req in the power utility profile. -/
def execPtpDelayReqSend (port : Nat) (s : State) : Host.Outcome State Fault Refusal :=
  .next (
    if !s.ptpHere port || s.inWindow port then s else
    let seq := ((s.ptp port).reqSeq + 1) % 65536
    (s.modPtp port fun p => { p with asked := true, reqSeq := seq, reqT := s.now, peer := none }).sendPtp port (if s.time.peerMode then 2 else 1) seq 0)

/-- PTP_SYNC_TIMEOUT (R80): no valid Sync for 4 intervals or 2 s, whichever is longer. -/
def execPtpSyncTimeout (port : Nat) (s : State) : Host.Outcome State Fault Refusal :=
  .next (
    let p := s.ptp port
    if p.locked && decide (p.lastSync + max (4 * p.interval) 5000000000 ≤ s.opTicks) then
      (s.modPtp port fun p => { p with locked := false, run := 0 }).reselect
    else s)

end Sys2Proof.Machine
end

