-- ==== Sys2Proof/Machine/Log.lean ====
section
/-! DEFINITION. Stook and the OTP store (15): entry of records, the critical summary, freeze and thaw, generations, working copies. -/

namespace Sys2Proof.Machine

/-! ### Records (R439, R444, R445) -/

/-- The 32 bytes of a record (R439). -/
def Rec.bytes (r : Rec) : Bytes :=
  natLe 5 r.time ++ natLe 3 r.pcycle ++ natLe 1 (r.sev + 8 * b2n r.summary + 16 * b2n r.merged) ++ natLe 1 r.cls ++ natLe 2 r.idx ++ natLe 2 r.code ++
  natLe 2 r.seq ++ fit 16 r.data

/-- The 16 bytes of its summary entry (R445). -/
def Rec.summaryBytes (r : Rec) : Bytes :=
  natLe 5 r.time ++ natLe 3 r.pcycle ++ natLe 1 r.sev ++ natLe 1 r.cls ++ natLe 2 r.idx ++ natLe 2 r.code ++ fit 1 r.data ++ [0xC3]

/-- The record with the lowest acceptance number among those of a severity or less (R444). -/
def oldestUpTo (l : List Rec) (sev : Nat) : Option Rec :=
  l.foldl (fun m r => if sev < r.sev then m else match m with | some x => if r.acc < x.acc then some r else m | none => some r) none

/-- A record enters a log of a size (R444): the log after, and the record that it replaced, or itself where it was dropped. -/
def logEnter (size : Nat) (l : List Rec) (r : Rec) : List Rec × Option Rec × Bool :=
  if l.length < size then (l ++ [r], none, false) else
  match oldestUpTo l r.sev with
  | some x => (l.filter (fun y => y.acc != x.acc) ++ [r], some x, false)
  | none => (l, none, true)

def State.modStook (s : State) (f : Stook → Stook) : State := { s with stook := f s.stook }

/-- A record enters the main log (R444). -/
def State.mainEnter (s : State) (r : Rec) : State :=
  let x := logEnter Config.logSize s.stook.log r
  if x.2.2 then (s.modStook fun k => { k with dropped := k.dropped.put r.sev (satAdd (k.dropped.getD r.sev 0) 1) }).event 10
  else s.modStook fun k => { k with log := x.1 }

/-- A record enters the side buffer (R447): one replaced or dropped there is missed. [DESIGN CHOICE log entry 122] -/
def State.sideEnter (s : State) (r : Rec) : State :=
  let x := logEnter Config.sideSize s.stook.side r
  let miss := fun (z : State) (sev : Nat) => z.modStook fun k => { k with missed := k.missed.put sev (satAdd (k.missed.getD sev 0) 1) }
  if x.2.2 then (miss s r.sev).event 10
  else
    let s1 := s.modStook fun k => { k with side := x.1 }
    match x.2.1 with | some y => miss s1 y.sev | none => s1

/-- The EVT_SUM bit of a severity (R409). -/
def sevEvent (sev : Nat) : Option Nat := if sev = 4 then some 5 else if sev = 5 then some 4 else if sev = 6 then some 0 else if sev = 7 then some 1 else none

/-- STOOK_RECORD_ENTRY (R442, R444, R447, R39): the record at the head of the ingress queue is accepted. -/
def execStookRecordEntry (s : State) : Host.Outcome State Fault Refusal :=
  .next (match s.stook.ingress with
  | [] => s
  | r :: rest =>
    let frozen := s.stook.frozen.isSome
    let r1 : Rec := { r with acc := s.stook.next, merged := frozen }
    let s1 := s.modStook fun k => { k with
      ingress := rest, next := k.next + 1, toSum := if 6 ≤ r.sev && !r.summary && !s.otp.sumFull then k.toSum ++ [r1] else k.toSum }
    let s2 := if frozen then s1.sideEnter r1 else s1.mainEnter r1
    let s3 := match sevEvent r.sev with | some k => s2.event k | none => s2
    if 6 ≤ r.sev then { s3 with board := { s3.board with alert := true } } else s3)

/-! ### The critical summary (R445, R446) -/

def State.modOtp (s : State) (f : Otp → Otp) : State := { s with otp := f s.otp }

/-- A summary entry is committed; the last one makes the summary full, which is recorded. -/
def State.summaryCommit (s : State) (r : Rec) : State :=
  if 512 ≤ s.otp.summary.length then s else
  let full := decide (512 ≤ s.otp.summary.length + 1)
  let s1 := s.modOtp fun o => { o with summary := o.summary ++ [r.summaryBytes], sumFull := full }
  if full then s1.record 6 0x0060 0 0 [] else s1

/-- SUMMARY_ENTRY_WRITE (R445): the oldest record that waits for its entry. -/
def execSummaryEntryWrite (s : State) : Host.Outcome State Fault Refusal :=
  .next (match s.stook.toSum with
  | [] => s
  | r :: rest =>
    if s.otp.sumFull then s.modStook fun k => { k with toSum := [] } else
    let mark := fun (x : Rec) => if x.acc == r.acc then { x with summary := true } else x
    (s.modStook fun k => { k with toSum := rest, log := k.log.map mark, side := k.side.map mark }).summaryCommit r)

/-! ### Freeze, read and thaw (R447 to R450) -/

/-- The eight counters of a table, 4 bytes each. -/
def sevCounters (t : Tbl Nat) : Bytes := (List.range 8).flatMap fun i => natLe 4 (t.getD i 0)

/-- The side buffer is merged and the log is no longer frozen (R448). -/
def State.thaw (s : State) : State :=
  (s.stook.side.foldl State.mainEnter s).modStook fun k => { k with side := [], frozen := none }

/-- LOG_FREEZE_EXPIRY (R447). -/
def execLogFreezeExpiry (s : State) : Host.Outcome State Fault Refusal :=
  .next (match s.stook.frozen with
  | some t => if t + 150000000000 ≤ s.opTicks then s.thaw.record 2 0x0061 0 0 [] else s
  | none => s)

def locked4 : List Nat := [2, 3, 4, 5]
def locked5 : List Nat := [2, 3, 4, 5, 6]

/-- LOG_FREEZE (R447, R449, R450). -/
def execLogFreeze (slot : Nat) (s : State) : Host.Outcome State Fault Refusal :=
  .next (s.command slot 0x0501 locked4 false anyForm anyForm none fun _ _ z =>
    if z.stook.frozen.isSome then refuse z stState else
    okReply (z.modStook fun k => { k with frozen := some z.opTicks, side := [], missed := [] })
      (natLe 4 z.stook.log.length ++ sevCounters z.stook.dropped))

/-- LOG_READ (R449, R450): records of the frozen main log from an ordinal, of a severity or more, inline or into an output area. [DESIGN CHOICE log entry 122] -/
def execLogRead (slot : Nat) (s : State) : Host.Outcome State Fault Refusal :=
  .next (s.command slot 0x0502 locked4 false anyForm anyForm none fun _ b z =>
    let first := fld b 0 4
    let want := fld b 4 4
    let off := fld b 16 8
    if z.stook.frozen.isNone then refuse z stState
    else if !payOk b 24 [(9, 7)] || decide (7 < fld b 8 1) || (off != 0 && !z.outputOk off (32 * want)) then refuse z stArg
    else
      let n := z.stook.log.length
      let all := ((List.range n).zip z.stook.log).filter fun x => decide (first ≤ x.1) && decide (fld b 8 1 ≤ x.2.sev)
      let l := all.take (if off = 0 then min want 6 else want)
      let next := match l.getLast? with | some x => x.1 + 1 | none => first
      let d := l.flatMap fun x => x.2.bytes
      let head := natLe 4 l.length ++ natLe 4 n ++ natLe 4 next ++ zeros 20
      if off = 0 then okReply z (head ++ d) else okReply (z.winWrite off d) head)

/-- LOG_THAW (R448, R449, R450). -/
def execLogThaw (slot : Nat) (s : State) : Host.Outcome State Fault Refusal :=
  .next (s.command slot 0x0503 locked4 false anyForm anyForm none fun _ _ z =>
    if z.stook.frozen.isNone then refuse z stState
    else okReply z.thaw (natLe 4 z.stook.side.length ++ sevCounters z.stook.missed))

/-! ### Generations and working copies (R430 to R435) -/

/-- The factory policy (R483). -/
def factoryPolicy : Bytes := fit 64 (natLe 4 0 ++ [7, 0, 0, 0] ++ natLe 4 86400 ++ natLe 4 3600 ++ natLe 4 0)

/-- Indexes of the calibration records (R394). -/
def calIndexes : List Nat := span 0 11 ++ span 64 127 ++ span 257 511

/-- The identity record of R394. -/
def calIdentity : Bytes := natLe 4 0x3F800000 ++ zeros 12

/-- The content of a user calibration block: its records in ascending index (log entry 52). -/
def calContent (u : Tbl Bytes) : Bytes := calIndexes.flatMap fun i => u.getD i calIdentity

/-- The user records of a content. [DESIGN CHOICE log entry 52] -/
def calRecords (b : Bytes) : Tbl Bytes :=
  (((List.range calIndexes.length).map fun i => (calIndexes.getD i 0, sub b (16 * i) 16))).filter fun x => x.2 != calIdentity

/-- Content of generation 0 (R432). -/
def factoryContent (blk : Nat) : Bytes := if blk = 4 then factoryPolicy else if blk = 6 then calContent [] else []

/-- The spent generations of a block. -/
def Otp.generations (o : Otp) (blk : Nat) : List Gen := o.gens.getD blk [⟨some (factoryContent blk), 0⟩]

/-- Spare generations of a block. -/
def Otp.spares (o : Otp) (blk : Nat) : Nat := 8 - (o.generations blk).length

/-- The index of the generation in force: the highest valid one (R431). -/
def Otp.forceIdx (o : Otp) (blk : Nat) : Nat :=
  let l := o.generations blk
  (List.range l.length).foldl (fun m i => if ((l[i]?).map fun g => g.content.isSome) == some true then i else m) 0

/-- The content of the generation in force. -/
def Otp.inForce (o : Otp) (blk : Nat) : Bytes := match (o.generations blk)[o.forceIdx blk]? with | some g => g.content.getD [] | none => []

/-- The working copy of a block (R433). That of block 6 is the table of user records. -/
def State.working (s : State) (blk : Nat) : Bytes :=
  if blk = 6 then calContent s.meas.user else (s.otp.work.get? blk).getD (s.otp.inForce blk)

/-- The security policy in force while the module runs (R483). -/
def State.policy (s : State) : Bytes := s.working 4
def State.sessionIdleMs (s : State) : Nat := fld s.policy 12 4 * 1000

/-- A block runs on its volatile overlay (R435, R451). -/
def State.onOverlay (s : State) (blk : Nat) : Bool :=
  (s.otp.past.get? blk).isSome || (blk != 7 && s.otp.spares blk == 0 && s.working blk != s.otp.inForce blk)

/-- Some block runs on its overlay. -/
def State.anyOverlay (s : State) : Bool := [4, 5, 6, 7].any s.onOverlay

/-- The stored commands that set the configuration in force (R434): PORT_CONFIG of each sub-port that was configured, TIME_CONFIG, SET_CAP. [DESIGN CHOICE log entry 52] -/
def State.captured (s : State) : Bytes :=
  (s.field.ports.flatMap fun x => x.2.cfg.flatMap fun c => natLe 2 0x0201 ++ natLe 2 c.2.length ++ c.2) ++
  natLe 2 0x0210 ++ natLe 2 s.time.cfg.length ++ s.time.cfg ++ natLe 2 0x0601 ++ natLe 2 8 ++ fit 8 (natLe 2 s.gran.cap)

/-- OTP_COMMIT (R431, R433, R435, R450): without a spare generation the working copy, a captured one included, stays in force. [DESIGN CHOICE log entry 122] -/
def execOtpCommit (slot : Nat) (s : State) : Host.Outcome State Fault Refusal :=
  .next (s.command slot 0x0401 [4] true anyForm anyForm none fun _ b z =>
    let blk := fld b 0 1
    let cap := fld b 1 1
    if !payOk b 40 [(2, 6)] || !(4 ≤ blk && blk ≤ 6) || decide (1 < cap) || (cap == 1 && blk != 5) then refuse z stArg else
    let w := if cap = 1 then z.captured else z.working blk
    if Config.shake w 32 != sub b 8 32 then refuse z stIntegrity else
    let z1 := if cap = 1 then z.modOtp fun o => { o with work := o.work.put 5 w } else z
    if w == z.otp.inForce blk then okReply z1 (natLe 1 (z.otp.forceIdx blk) ++ natLe 1 (z.otp.spares blk))
    else if z.otp.spares blk = 0 then refuse z1 stResource
    else
      let l := z.otp.generations blk
      let z2 := (z1.modOtp fun o => { o with gens := o.gens.put blk (l ++ [⟨some w, z.opMs⟩]) }).record 2 0x0060 0 0 (natLe 1 blk ++ natLe 1 l.length)
      okReply z2 (natLe 1 l.length ++ natLe 1 (7 - l.length)))

/-- A record that CAL_SET takes (R394): a finite, nonzero GAIN, a finite OFFSET, PHASE 0 for point records; for Awn channels GAIN in
[0.9, 1.1], compared as binary32 codes, and DELAY of at most 100 us. -/
def calOk (i : Nat) (r : Bytes) : Bool :=
  let g := fld r 0 4
  let d := toSigned 32 (fld r 12 4)
  decide (g % 2147483648 < 0x7F800000) && g % 2147483648 != 0 && decide (fld r 4 4 % 2147483648 < 0x7F800000) &&
  (!decide (256 ≤ i) || fld r 8 4 == 0) &&
  (decide (12 ≤ i) || (decide (0x3F666666 < g) && decide (g < 0x3F8CCCCD) && decide (d.natAbs ≤ 25600000)))

/-- CAL_SET (R394, R396, R450, R464). -/
def execCalSet (slot : Nat) (s : State) : Host.Outcome State Fault Refusal :=
  .next (s.command slot 0x0402 [3, 4, 5] true anyForm anyForm none fun _ b z =>
    let i := fld b 0 2
    let r := sub b 4 16
    if !payOk b 20 [(2, 2)] || !calIndexes.contains i || !calOk i r then refuse z stArg else
    let z1 : State := { z with meas := { z.meas with user := z.meas.user.put i r } }
    okReply (z1.extend 5 8 (Config.shake (calContent z1.meas.user) 64)) [])

/-- OTP_STATUS (R451). -/
def execOtpStatus (slot : Nat) (s : State) : Host.Outcome State Fault Refusal :=
  .next (s.command slot 0x0403 locked5 false anyForm anyForm none fun _ _ z =>
    let past := [4, 5, 6, 7]
    okReply z ([4, 5, 6].flatMap (fun k => natLe 1 (z.otp.forceIdx k)) ++ [4, 5, 6].flatMap (fun k => natLe 1 (z.otp.spares k)) ++
      natLe 1 (b2n (z.onOverlay 4) + 2 * b2n (z.onOverlay 5) + 4 * b2n (z.onOverlay 6) + 8 * b2n (z.onOverlay 7)) ++ zeros 1 ++
      natLe 2 z.units.recs.length ++ natLe 2 (z.units.extra.filter fun r => !z.units.overlay.contains (r.cls, r.idx)).length ++
      natLe 2 z.otp.summary.length ++ natLe 1 (b2n z.otp.sumFull) ++ zeros 1 ++
      past.flatMap (fun k => natLe 8 ((z.otp.past.get? k).elim 0 Overlay.seq)) ++
      (past.flatMap fun k => match z.otp.past.get? k with | some x => Config.shake x.content 4 | none => (zeros 4))))

end Sys2Proof.Machine
end

