-- ==== Sys2Proof/Machine/Flags.lean ====
section
/-! DEFINITION. Every flag computation: the counts that a wait sees (R117), a change of a producer count (R118, R119) and its range
(R120). -/

namespace Sys2Proof.Machine

/-- FCNT[n] at the end of the previous cycle (R117). -/
def Core.fcntSeen (k : Core) (n now : Nat) : Nat :=
  match k.fold.get? n with
  | some f => if f.cycle = now then f.old else k.fcnt.getD n 0
  | none => k.fcnt.getD n 0

/-- Signals counted on flag n in the present cycle (R119). -/
def Core.sigsNow (k : Core) (n now : Nat) : Nat :=
  match k.fold.get? n with
  | some f => if f.cycle = now then f.sigs else 0
  | none => 0

/-- Of the instruction of an engine that changes flag n and those that have changed it in this cycle, the one of the lowest engine (R120): engine, TAG, issue
count. -/
def Core.changer (k : Core) (n now e tag issueNo : Nat) : Nat × Nat × Nat :=
  match k.fold.get? n with
  | some f => if f.cycle = now ∧ f.eng < e then (f.eng, f.tag, f.issueNo) else (e, tag, issueNo)
  | none => (e, tag, issueNo)

/-- The difference of R117 for a producer and a consumer count, as a signed 32-bit value. -/
def flagDiff (f c : Nat) : Int := toSigned 32 ((f + 4294967296 - c % 4294967296) % 4294967296)

/-- A wait of engine e on flag n is satisfied (R117). -/
def Core.waitOk (k : Core) (e n now : Nat) : Bool := decide (1 ≤ flagDiff (k.fcntSeen n now) ((k.eng.getD e {}).ccnt.getD n 0))

/-- FCNT[n] becomes v in the present cycle by an instruction (engine, TAG, issue count); sig: the change is a signal. -/
def Core.setFlag (k : Core) (n v now : Nat) (by_ : Nat × Nat × Nat) (sig : Bool) : Core :=
  { k with
    fold := k.fold.put n ⟨now, k.fcntSeen n now, k.sigsNow n now + b2n sig, by_.1, by_.2.1, by_.2.2⟩
    fcnt := k.fcnt.put n (v % 4294967296) }

/-- After a change, the difference of R117 lies in 0 to 2^31 - 1 for every engine (R120). -/
def Core.flagInRange (k : Core) (n : Nat) : Bool :=
  (List.range 7).all fun e => decide (0 ≤ flagDiff (k.fcnt.getD n 0) ((k.eng.getD e {}).ccnt.getD n 0))

/-- The count that FLAG_SET leaves (R119): its operand plus the signals of the same cycle. -/
def Core.flagSetTo (k : Core) (n v now : Nat) : Nat := v % 4294967296 + k.sigsNow n now

/-- A change of flag n made by an instruction of engine e; out of range it raises FLAG_RANGE, 0x08, which names the
instruction of the lowest engine that changed the flag in the cycle (R120, R318). -/
def State.changeFlag (s : State) (c e tag issueNo n v : Nat) (sig : Bool) : State :=
  match s.owner c with
  | none => s
  | some (p, _) =>
    let q := s.part p
    let w := (s.core c).changer n q.run.stepCyc e tag issueNo
    let k := (s.core c).setFlag n v q.run.stepCyc w sig
    let s1 := s.setCore c k
    if k.flagInRange n then s1 else s1.coreFault c w.1 w.2.1 0x08 (placeAfter q w.2.2)

/-- A signal adds 1 to FCNT[n] (R118). -/
def State.signal (s : State) (c e tag issueNo n : Nat) : State :=
  s.changeFlag c e tag issueNo n ((s.core c).fcnt.getD n 0 + 1) true

end Sys2Proof.Machine
end

