-- ==== Sys2Proof/Machine/Issue.lean ====
section
/-! DEFINITION. Issue of an engine instruction, written once for the seven engines: stamp cycles (R112, R113), readiness (R114), the
order of causes (R542), the range scoreboard (R250 to R252), breaks (R139). -/

namespace Sys2Proof.Machine

/-- What is known of an instruction at the cycle of its issue. -/
structure Ctx where
  p : Nat
  l : Nat
  c : Nat
  e : Nat
  now : Nat
  word : IWord
  /-- the issue count it takes (R318) -/
  issueNo : Nat
  /-- the core and the partition before the issue -/
  k : Core
  q : Part
  /-- its scratchpad as a read in this cycle sees it (R239) -/
  m : CoreSp
  deriving DecidableEq, Repr

/-- What an instruction asks of the issue, in the order of R542. -/
structure Req where
  /-- a sequencer register that it uses is poisoned (R131) -/
  regPoison : Bool := false
  illegal : Bool := false
  /-- smallest STAMP where the opcode changes it (R160) -/
  minStamp : Option Nat := none
  late : Bool := false
  /-- cause of a readiness condition of its own that is not met (R114, R300) -/
  notReady : Option Nat := none
  /-- the first word of its descriptor or shape record that fails its detection code (R243) -/
  badRead : Option Nat := none
  /-- cause of order 6 -/
  chk : Option Nat := none
  /-- the unit that poisoned what it uses (R246) -/
  src : Option (Nat × Nat) := none
  /-- ranges checked, in units (R250) -/
  reads : List (Nat × Nat) := []
  writes : List (Nat × Nat) := []
  /-- entries taken (R248): first, last, kind, release cycle -/
  takes : List (Nat × Nat × Nat × Option Nat) := []
  occ : Nat := 1
  /-- ring and peer for CH_FAULT (R303) -/
  mark : Option (Nat × Nat) := none
  deriving DecidableEq, Repr

/-- The instruction at the head of an engine's queue: for the sequencer, the one at its position in the code region (R123). [DEDUCED log entry 67] -/
def Core.head (k : Core) (e : Nat) : Option QEntry :=
  if e = 6 then
    if k.seq.pos < k.seq.len ∧ k.seq.ended = none then
      some (k.codeAt k.seq.pos)
    else none
  else (k.eng.getD e {}).queue.head?

/-- The occupancy that the next instruction of an engine must wait out (R113): 32 for the first sequencer instruction of a step. -/
def Core.minStamp (k : Core) (e : Nat) : Nat :=
  let g := k.eng.getD e {}
  match g.last with
  | some _ => g.occ
  | none => if e = 6 then 32 else 0

/-- The stamp cycle of an instruction (R112, R113): from the previous issue of its engine, or from step cycle 0. With STAMP = 0 in a
queued partition it is the cycle at which the occupancy has ended. -/
def Core.stampCycle (k : Core) (e stamp need : Nat) (queued : Bool) : Nat :=
  let b := (k.eng.getD e {}).last.getD 0
  if queued && stamp == 0 then b + need else b + stamp

/-- The scoreboard entries held at a cycle that an issue of engine e sees (R249, R250). -/
def Core.sbSeen (k : Core) (e now : Nat) : List SbEntry :=
  k.sp.sb.filter fun x => (match x.release with | none => true | some r => decide (now ≤ r)) &&
    (decide (x.created < now) || (x.created == now && decide (x.eng < e)))

/-- The scoreboard entries in use at a cycle. -/
def sbHeld (l : List SbEntry) (now : Nat) : List SbEntry :=
  l.filter fun x => match x.release with | none => true | some r => decide (now ≤ r)

def overlaps (a b : Nat × Nat) : Bool := decide (a.1 ≤ b.2 ∧ b.1 ≤ a.2)

/-- The entry that blocks (R250, R252): of those in conflict, the one created earliest, of the lower engine index among equals. -/
def blocker (seen : List SbEntry) (rd wr : List (Nat × Nat)) : Option SbEntry :=
  let bad := seen.filter fun x =>
    (x.kind == 1 && rd.any fun r => overlaps r (x.first, x.last)) || wr.any fun r => overlaps r (x.first, x.last)
  bad.foldl (fun best x => match best with
    | none => some x
    | some b => if x.created < b.created ∨ (x.created = b.created ∧ x.eng < b.eng) then some x else some b) none

/-- The unit range of a receive ring (R285), if it is in use. -/
def Ring.range (r : Ring) : Option (Nat × Nat) := if r.log2 = 0 then none else some (unitsOf r.base (2 ^ r.log2))

/-- The resident range that a write conflicts with (R250, R252): its index in the resident table, or 16 + r for ring r, which blocks
every engine but CH (R285). -/
def Core.residentHit (k : Core) (e : Nat) (wr : List (Nat × Nat)) : Option Nat :=
  match k.sp.resident.findIdx? fun x => wr.any fun r => overlaps r x with
  | some i => some i
  | none =>
    if e = 5 then none else
    (List.range 32).findSome? fun r => match (k.ch.rings.getD r {}).range with
      | some x => if wr.any fun y => overlaps y x then some (16 + r) else none
      | none => none

/-- The outcome of the scoreboard check (R250 to R252). -/
inductive SbOut where
  | free
  /-- SB_CONFLICT with an entry -/
  | entry (x : SbEntry)
  /-- SB_CONFLICT with a resident range or a ring -/
  | resident (i : Nat)
  /-- SB_FULL -/
  | full
  deriving DecidableEq, Repr

def Core.sbCheck (k : Core) (e now : Nat) (r : Req) : SbOut :=
  match blocker (k.sbSeen e now) r.reads r.writes with
  | some x => .entry x
  | none =>
    match k.residentHit e r.writes with
    | some i => .resident i
    | none => if (sbHeld k.sp.sb now).length + r.takes.length ≤ 64 then .free else .full

/-- SB_FAULT (R252, R270). -/
def CoreSp.noteSb (m : CoreSp) (e : Nat) : SbOut → CoreSp
  | .entry x => { m with fEng := e, fOwner := x.eng, fKind := x.kind, fTag := x.tag }
  | .resident i => { m with fEng := e, fOwner := 7, fKind := 0, fTag := i }
  | _ => { m with fEng := e, fOwner := 0, fKind := 0, fTag := 0 }

/-- What the checks of R542 decide for an instruction at its cycle. -/
inductive Verdict where
  | fault (cause : Nat)
  | wait
  | sbFault (cause : Nat) (o : SbOut)
  | ok
  deriving DecidableEq, Repr

/-- A sequencer instruction whose words fail their detection code (R243): the word. [DEDUCED log entry 143] -/
def Ctx.codeBad (x : Ctx) : Option Nat := if x.e = 6 then x.k.sp.bad.find? fun w => decide ((x.k.seq.base + 16 * x.k.seq.pos) / 8 ≤ w ∧ w ≤ (x.k.seq.base + 16 * x.k.seq.pos + 15) / 8) else none

/-- The checks of orders 1 to 7 of R542, after the read of a sequencer instruction (R243). A wait or a condition not met faults in slotted mode and delays in queued mode or in debug
stall mode (R114); a scoreboard conflict with entries alone delays in debug stall mode only, one with a resident range never (R252). [DEDUCED log entry 143] -/
def verdict (x : Ctx) (h : QEntry) (r : Req) : Verdict :=
  let stall := x.q.ctl.stall
  let strict := x.q.slotted && !stall
  let need := r.minStamp.getD (x.k.minStamp x.e)
  if x.codeBad.isSome then .fault 0x16
  else if h.poison || r.regPoison then .fault 0x0C
  else if r.illegal || wRsv x.word != 0 then .fault 0x06
  else if decide (wStamp x.word < need) && !(!x.q.slotted && wStamp x.word == 0) then .fault 0x01
  else if r.late then .fault 0x07
  else if wWen x.word && !x.k.waitOk x.e (wWflag x.word) x.now then (if strict then .fault 0x02 else .wait)
  else match r.notReady with
  | some c => if strict then .fault c else .wait
  | none =>
    match (if r.badRead.isSome then some 0x16 else r.chk) with
    | some c => .fault c
    | none =>
      match x.k.sbCheck x.e x.now r with
      | .free => .ok
      | .resident i => .sbFault 0x14 (.resident i)
      | .entry y => if !stall then .sbFault 0x14 (.entry y) else match x.k.residentHit x.e r.writes with
        | some i => .sbFault 0x14 (.resident i)
        | none => .wait
      | .full => if stall then .wait else .sbFault 0x15 .full

/-- The entries that an issue takes (R247, R248). -/
def newEntries (x : Ctx) (r : Req) : List SbEntry :=
  r.takes.map fun t => ⟨t.1, t.2.1, t.2.2.1, x.e, wTag x.word, x.issueNo, x.now, t.2.2.2⟩

/-- The core after an issue: the instruction has left the queue (R108), counts and stamps move (R112, R113, R117), the entries are
taken, CORE_WSTALL counts a delay (R114). -/
def Core.afterIssue (x : Ctx) (r : Req) (delayed : Bool) : Core :=
  let k := x.k
  let g := k.eng.getD x.e {}
  let n := wWflag x.word
  let sb := sbHeld k.sp.sb x.now ++ newEntries x r
  { k with
    eng := k.eng.put x.e { g with
      queue := if x.e = 6 then g.queue else g.queue.tail
      issued := g.issued + 1
      last := some x.now
      occ := r.occ
      prevOp := wOp x.word
      ccnt := if wWen x.word then g.ccnt.put n ((g.ccnt.getD n 0 + 1) % 4294967296) else g.ccnt }
    seq := { k.seq with pos := if x.e = 6 then k.seq.pos + 1 else k.seq.pos }
    flt := if delayed then { k.flt with wstall := satAdd k.flt.wstall 1 } else k.flt
    sp := { k.sp with sb := sb, hwm := max k.sp.hwm sb.length } }

/-- An issue matches an armed break (R139). -/
def CoreFlt.brkMatch (f : CoreFlt) (e tag issued : Nat) : Bool :=
  f.brkEn && f.brkEng == e &&
  (if f.brkMode then f.brkCount != 0 && issued == f.brkCount else (tag ^^^ f.brkTag) &&& f.brkMask == 0)

/-- A break (R139): HIT, a DEBUG hold, the snapshot, a notice. -/
def State.breakHit (s : State) (x : Ctx) : State :=
  let k := s.core x.c
  if k.flt.brkMatch x.e (wTag x.word) (k.eng.getD x.e {}).issued then
    let s1 := s.setCore x.c { k with flt := { k.flt with brkHit := true, hitAt := some s.opTicks } }
    ((s1.snap x.p x.c x.now).announce x.p 6 (some (x.c, x.e, x.issueNo))).record 2 0x0071 0x01 x.c []
  else s

/-- The unit that poisoned the instruction at the head of an engine's queue (R246). [DEDUCED log entry 79] -/
def Core.headSrc (k : Core) (e : Nat) : Option (Nat × Nat) :=
  if e = 6 then k.sp.src.get? ((k.seq.base + 16 * k.seq.pos) / 64) else k.seq.qsrc.get? e

/-- A fetched instruction that carries poison faults when it reaches the head of its queue (R131). [DEDUCED log entry 79] -/
def State.headPoison (s : State) (x : Ctx) : State :=
  let k := s.core x.c
  match (if x.e = 6 then none else (k.eng.getD x.e {}).queue.head?) with
  | some h => if h.poison then s.coreFault x.c x.e (wTag h.word) 0x0C (faultPlace x.q k x.e) (k.headSrc x.e) else s
  | none => s

/-- The balanceable region whose code holds a sequencer position (R328, log entry 141): its number and itself. -/
def balanceAt (g : Image) (pos : Nat) : Option (Nat × BalRegion) :=
  (List.range g.balance.length).findSome? fun i => match g.balance[i]? with
    | some r => if r.first ≤ pos ∧ pos < r.last then some (i, r) else none
    | none => none

/-- The work item that a core of a queued partition takes as its sequencer begins one (R329): the next unclaimed item of the region while DLB_EN is set,
otherwise its next item of the static assignment. Past the last there is none. [DESIGN CHOICE log entry 141] -/
def State.takeItem (s : State) (x : Ctx) : State :=
  match x.q.img.image with
  | none => s
  | some g =>
    let k := s.core x.c
    let base := (List.range 7).map fun e => (x.k.eng.getD e {}).issued
    match (if x.e = 6 && !x.q.slotted then balanceAt g x.k.seq.pos else none) with
    | none => if x.e = 6 && k.item.isSome then s.setCore x.c { k with item := none } else s
    | some (i, r) =>
      if x.k.seq.pos ≠ r.first then s else
      let key := if x.q.ctl.dlb then i else 1024 * (i + 1) + x.l
      let n := (s.part x.p).run.claims.getD key 0
      let it := if x.q.ctl.dlb then (if n < (r.assign.map List.length).sum then some n else none) else (r.assign.getD x.l [])[n]?
      (s.setCore x.c { k with item := it.map fun n => ⟨i, n, base⟩ }).modRun x.p fun z => { z with claims := z.claims.put key (n + 1) }

/-- What an instruction needs to be considered for issue: its context, if the engine can issue at all (R112, R310, R315). -/
def State.issueCtx (s : State) (c e : Nat) : Option (Ctx × QEntry) :=
  match s.owner c with
  | none => none
  | some (p, l) =>
    let q := s.part p
    let k := s.core c
    match k.head e with
    | none => none
    | some h =>
      if q.run.stepRun && !q.run.held && !(k.eng.getD e {}).stopped then
        some (⟨p, l, c, e, q.run.stepCyc, h.word, (k.eng.getD e {}).issued + 1, k, q, k.sp.seen s.cc⟩, h)
      else none

/-- The stamp cycle has come (R112, R114): in slotted mode the present cycle is the stamp cycle itself; in queued mode or debug stall
mode it may lie earlier. The instruction was in the queue before this cycle. [DESIGN CHOICE log entry 2] -/
def dueNow (x : Ctx) (h : QEntry) (r : Req) : Bool :=
  let t := x.k.stampCycle x.e (wStamp x.word) (r.minStamp.getD (x.k.minStamp x.e)) (!x.q.slotted)
  (if x.q.slotted && !x.q.ctl.stall then x.now == t else decide (t ≤ x.now)) && (decide (h.arrived < x.now) || x.e == 6)

/-- An instruction was delayed beyond its stamp cycle (R114). -/
def delayed (x : Ctx) (r : Req) : Bool :=
  decide (x.k.stampCycle x.e (wStamp x.word) (r.minStamp.getD (x.k.minStamp x.e)) (!x.q.slotted) < x.now)

/-- The issue of the instruction at the head of an engine's queue: nothing before its cycle (log entry 2); a fault; a wait; or the
issue, then its effect, the break, and the poison of what has come to the head of the queue (R131). -/
def State.issueWith (s : State) (x : Ctx) (h : QEntry) (r : Req) (eff : Ctx → State → State) : State :=
  if dueNow x h r then
    match verdict x h r with
    | .wait => s
    | .fault cause =>
      let s1 := match r.mark with
        | some (ring, peer) => if cause = 0x18 ∨ cause = 0x1A then s.modCh x.c fun ch => { ch with fRing := ring, fPeer := peer } else s
        | none => match (if cause = 0x16 then x.codeBad.orElse fun _ => r.badRead else none) with
          | some w => s.modSp x.c fun m => m.noteErr w
          | none => s
      s1.coreFault x.c x.e (wTag x.word) cause (faultPlace x.q x.k x.e)
        (if cause = 0x0C then (if h.poison then x.k.headSrc x.e else r.src) else none)
    | .sbFault cause o =>
      (s.modSp x.c fun m => m.noteSb x.e o).coreFault x.c x.e (wTag x.word) cause (faultPlace x.q x.k x.e)
    | .ok =>
      let d := delayed x r
      let s1 := s.setCore x.c (Core.afterIssue x r d)
      let s2 := if d && x.q.ctl.stall then s1.record 0 0x0070 0x01 x.c (natLe 1 x.e ++ natLe 2 (wTag x.word)) else s1
      ((eff x (s2.takeItem x)).breakHit x).headPoison x
  else s

/-- The issue event of a row: the head of the engine's queue holds the row's opcode, or an opcode that the engine does not define,
which is illegal (R111). Nothing else is at the head for this event. -/
def State.issueRow (s : State) (c e op : Nat) (prep : Ctx → Req) (eff : Ctx → State → State) : State :=
  match s.issueCtx c e with
  | none => s
  | some (x, h) =>
    if wOp h.word = op then s.issueWith x h (prep x) eff
    else if (engineOps e).contains (wOp h.word) then s
    else s.issueWith x h { illegal := true } eff

/-- An instruction in flight with nothing left but its signal (R118). -/
def Ctx.flight (x : Ctx) (sig last : Option Nat) : Flight :=
  { eng := x.e, op := wOp x.word, issueNo := x.issueNo, issue := x.now, word := x.word, sig := sig, last := last, signalled := false,
    done := 0, total := 0, writes := [], recd := [], a := [], b := [], pa := [], pb := [], nums := [] }

/-- The rows, groups or units that the signal point waits for are done: the signal points of MM and LOAD_ACC mark the end of their reads
and do not wait for what lands in the array (R159). -/
def Flight.effectsIn (f : Flight) : Bool := (f.eng == 0 && (f.op == 1 || f.op == 3)) || decide (f.total ≤ f.done)

/-- An instruction has passed its signal point and its last effect by a cycle (R135). -/
def Flight.past (f : Flight) (now : Nat) : Bool :=
  (if wSen f.word then f.signalled else true) && f.writes.isEmpty && f.effectsIn &&
  (match f.last with | some t => decide (t ≤ now) | none => false)

/-- Nothing of an instruction is left to do at a cycle. -/
def Flight.gone (f : Flight) (now : Nat) : Bool := f.past now && decide (f.total ≤ f.done)

/-- The core with an instruction in flight added; those whose effects are all done are no longer in flight. -/
def State.addFlight (s : State) (c : Nat) (f : Flight) : State :=
  s.modCore c fun k => { k with flights := (k.flights.filter fun g => !g.gone f.issue) ++ [f] }

/-- Update of the first flight that meets a condition. -/
def modFirst (l : List Flight) (pr : Flight → Bool) (f : Flight → Flight) : List Flight :=
  match l with
  | [] => []
  | x :: t => if pr x then f x :: t else x :: modFirst t pr f

/-- The unit range of n bytes at a byte address, and the READ or WRITE entry for it. -/
def readTake (a n : Nat) (rel : Option Nat) : Nat × Nat × Nat × Option Nat := let u := unitsOf a n; (u.1, u.2, 0, rel)
def writeTake (a n : Nat) (rel : Option Nat) : Nat × Nat × Nat × Option Nat := let u := unitsOf a n; (u.1, u.2, 1, rel)

/-- The first word that fails its detection code in each of a list of reads: byte, length, step cycle (R243). -/
def CoreSp.readErrs (m : CoreSp) (l : List (Nat × Nat × Nat)) : List (Nat × Nat) := l.filterMap fun r => (m.badIn r.1 r.2.1).map fun w => (r.2.2, w)

/-- The poisoned units of a byte run, counted from its first unit. -/
def CoreSp.poisonOf (m : CoreSp) (a n : Nat) : List Nat :=
  let r := unitsOf a n
  (m.poison.filter fun u => decide (r.1 ≤ u ∧ u ≤ r.2)).map fun u => u - r.1

end Sys2Proof.Machine
end

