-- ==== Sys2Proof/Machine/Sequencer.lean ====
section
/-! DEFINITION. The sequencer's instructions (R125 to R135), NOP on every engine (R111), fetch delivery, signals and the events of a
step on one core. -/

namespace Sys2Proof.Machine

/-! ### Operands and checks -/

/-- The fields of R125 that an instruction uses (R126, R128), as a mask over bits [127:64]; every other bit must be 0. Of SB and IMM32 it uses the one that
IMM_SEL selects. -/
def sqMask (op m : Nat) (immSel : Bool) : Nat :=
  let sd := 31
  let sa := 31 <<< 5
  let sb := 31 <<< 10
  let isel := 1 <<< 15
  let aux (m : Nat) := m <<< 16
  let imm := 0xFFFFFFFF <<< 32
  let b := isel + if immSel then imm else sb
  match op with
  | 0x01 => sa + aux 0xFFEF + imm
  | 0x02 => aux 7 + imm
  | 0x10 => sd + sa + imm
  | 0x11 => sa + sb + imm
  | 0x20 => if m = 0xE then sd + imm else sd + (if m = 0xD then 0 else sa) + b
  | 0x21 => sd + aux 0xFFFF
  | 0x30 => sa + b + aux 0xFFFF
  | 0x40 | 0x41 => b + aux 63
  | 0x50 => sa + imm
  | 0x70 | 0x7F => aux 0xFFFF
  | _ => 0

/-- The MOD values that an instruction allows (R125, R126, R130). -/
def sqModOk (op m : Nat) : Bool :=
  match op with
  | 0x10 => m < 8
  | 0x11 => m < 4
  | 0x20 => true
  | 0x30 => m < 10
  | _ => m = 0

/-- An unused field or MOD bit is not 0 (R125). -/
def sqIllegal (w : IWord) : Bool := (wbits w 127 64) &&& (18446744073709551615 - sqMask (wOp w) (wMod w) (sqImmSel w)) != 0 || !sqModOk (wOp w) (wMod w)

/-- S[SA] + IMM32 modulo 2^64 (R126). -/
def sqAddr (x : Ctx) : Nat := ((x.k.seq.reg (sqSa x.word) x.now).1 + sqImm64 x.word) % 18446744073709551616

/-- Access width of LDS and STS (R126). -/
def sqWidth (w : IWord) : Nat := 2 ^ (wMod w % 4)

/-- LDS and STS addresses must be aligned to the width and lie below 0x0180_0000 (R126). -/
def addrBad (a w : Nat) : Bool := a % w != 0 || decide (Config.spBytes < a + w)

/-- The request common to the sequencer's instructions: registers that fault when poisoned (R131), late registers (R127). -/
def sqReq (x : Ctx) (illegal : Bool) : Req :=
  let rs := sqReads x.word
  { regPoison := wOp x.word != 0x20 && rs.any fun r => (x.k.seq.reg r x.now).2
    illegal := sqIllegal x.word || illegal
    late := rs.any fun r => x.k.seq.late r x.now
    src := x.k.seq.srcOf rs x.now }

/-- An instruction in flight whose signal point is known. -/
def flyTo (t : Nat) (x : Ctx) (s : State) : State := s.addFlight x.c (x.flight (some t) (some t))

/-! ### NOP -/

/-- A NOP must have MOD 0 on the stream and channel engines (R255, R294); on the sequencer and the vector engine, which define no field
for it, MOD and operands are 0 (R125, R204). -/
def nopReq (x : Ctx) : Req :=
  { illegal := if x.e = 6 then sqIllegal x.word else if x.e = 1 then wbits x.word 127 60 != 0 else decide (2 ≤ x.e) && wMod x.word != 0 }

/-- NOP (R111): occupancy 1, its signal point is its issue cycle. -/
def execNop (c e : Nat) (s : State) : Host.Outcome State Fault Refusal :=
  .next (s.issueRow c e 0 nopReq fun x => flyTo x.now x)

/-! ### FETCH and delivery (R132, R133) -/

/-- Instructions of issued fetches to a queue not yet delivered: CORE_Qn.PEND before saturation. -/
def CoreSeq.pendTo (q : CoreSeq) (n : Nat) : Nat := ((q.fetches.filter fun f => f.queue == n).map fun f => f.count - f.delivered).sum

/-- QFREE (R133), which may be negative. -/
def Core.qfree (k : Core) (n : Nat) : Int := 256 - ((k.eng.getD n {}).queue.length : Int) - (k.seq.pendTo n : Int)

/-- The instructions of a block with their poison: from the core-streams section, whose poison counts at arrival, or from scratchpad. [DEDUCED log entry 67] [DESIGN CHOICE log entry 140] -/
def blockWords (m : CoreSp) (img : Option Image) (src a n : Nat) : List (IWord × Bool) :=
  (List.range n).map fun i =>
    if src = 0 then (BitVec.ofNat 128 (fld (match img with | some g => g.streams | none => []) (a + 16 * i) 16), false)
    else (BitVec.ofNat 128 (leNat (memRead m.mem (a + 16 * i) 16)), m.poison.contains ((a + 16 * i) / 64))

/-- A fetch of n instructions from byte a of a source, due at a cycle. -/
def mkFetch (k : Core) (img : Option Image) (queue src a n due issueNo : Nat) : Fetch :=
  { queue := queue, src := src, addr := a, count := n, due := due, start := none, delivered := 0, data := false,
    checked := false, late := false, issueNo := issueNo, words := blockWords k.sp img src a n }

def fetchSrc (w : IWord) : Nat := sqAux w / 8 % 2
def fetchCount (w : IWord) : Nat := sqAux w / 32 + 1

/-- FETCH (R132): queue 0 to 5, a block wholly within its source, at most 16 outstanding. -/
def fetchReq (x : Ctx) : Req :=
  let a := sqAddr x * 64
  let n := fetchCount x.word
  let size := if fetchSrc x.word = 0 then (match x.q.img.image with | some g => g.streams.length | none => 0) else Config.spBytes
  let r := unitsOf a (16 * n)
  let sp := fetchSrc x.word = 1
  { sqReq x (decide (6 ≤ sqAux x.word % 8) || decide (size < a + 16 * n)) with
    notReady := if 16 ≤ x.k.seq.fetches.length then some 0x05 else none
    reads := if sp then [r] else []
    takes := if sp then [(r.1, r.2, 0, none)] else [] }

def fetchEff (x : Ctx) (s : State) : State :=
  let src := fetchSrc x.word
  let f := mkFetch x.k x.q.img.image (sqAux x.word % 8) src (sqAddr x * 64) (fetchCount x.word)
    (x.now + if src = 0 then 1200 else 16) x.issueNo
  (s.modSeq x.c fun q => { q with fetches := q.fetches ++ [f] }).addFlight x.c { x.flight none none with total := 1 }

def execFetch (c : Nat) (s : State) : Host.Outcome State Fault Refusal := .next (s.issueRow c 6 0x01 fetchReq fetchEff)

/-- Fetches that deliver now (R132). [DEDUCED log entry 66] -/
def delivering (l : List Fetch) : Nat := (l.filter fun f => f.start.isSome).length

/-- Delivery slots taken in a cycle (R132): a fetch keeps its slot through the cycle of its last instruction. -/
def CoreSeq.slotsTaken (q : CoreSeq) (now : Nat) : Nat := delivering q.fetches + if q.freedAt = now then q.freed else 0

/-- Start of the first fetch, in order of issue, that is due and has its data (R132, R134), when fewer than two deliver. [DEDUCED log entry 66] -/
def startFetch (now : Nat) : List Fetch → List Fetch
  | [] => []
  | f :: t => if f.start.isNone && decide (f.due ≤ now) && (f.src == 1 || f.data) then { f with start := some now } :: t else f :: startFetch now t

/-- FETCH_DELIVERY_START (R132). -/
def execFetchDeliveryStart (c : Nat) (s : State) : Host.Outcome State Fault Refusal :=
  .next (match s.liveCycle c with
  | none => s
  | some (_, _, now) =>
    if (s.core c).seq.slotsTaken now < 2 then s.modSeq c fun q => { q with fetches := startFetch now q.fetches } else s)

/-- The started fetch whose next instruction is due to arrive (R132): instruction k at a + k / 4. -/
def arriving (now : Nat) (f : Fetch) : Bool :=
  match f.start with
  | some a => decide (f.delivered < f.count) && decide (a + f.delivered / 4 ≤ now)
  | none => false

/-- The fetches after one instruction of the first arriving one has been delivered. A fetch that has delivered its last is no longer
outstanding. -/
def takeOne (now : Nat) : List Fetch → List Fetch
  | [] => []
  | f :: t => if arriving now f then
      if f.delivered + 1 = f.count then t else { f with delivered := f.delivered + 1 } :: t
    else f :: takeOne now t

/-- The last instruction of a FETCH has entered its queue (R126): its signal point, and the end of its READ entry (R248). -/
def Core.fetchDone (k : Core) (n now : Nat) : Core :=
  { k with
    flights := modFirst k.flights (fun f => f.eng == 6 && f.issueNo == n && f.sig.isNone) fun f =>
      { f with sig := some now, last := some now, done := 1 }
    sp := { k.sp with sb := k.sp.sb.map fun x => if x.eng == 6 && x.issueNo == n && x.release.isNone then { x with release := some now } else x } }

/-- FETCH_INSTRUCTION_ARRIVAL (R132, R133): one instruction enters its queue; a full queue raises QUEUE_OVERFLOW, 0x04; in slotted
mode an instruction at the head whose stamp cycle has come raises QUEUE_LATE, 0x03; one with poison that comes to the head raises POISON (R131). -/
def execFetchInstructionArrival (c : Nat) (s : State) : Host.Outcome State Fault Refusal :=
  .next (match s.liveCycle c with
  | none => s
  | some (p, _, now) =>
    let k := s.core c
    match k.seq.fetches.find? (arriving now) with
    | none => s
    | some f =>
      let w0 := f.words.getD f.delivered (0, false)
      let wp := (w0.1, w0.2 || (f.src == 0 && (s.part p).img.streamsPoison.contains ((f.addr + 16 * f.delivered) / 64)))
      let e := f.queue
      let g := k.eng.getD e {}
      let q := s.part p
      let last := f.delivered + 1 == f.count
      let k1 := { k with seq := { k.seq with
        fetches := takeOne now k.seq.fetches
        freedAt := if last then now else k.seq.freedAt
        freed := if last then (if k.seq.freedAt = now then k.seq.freed + 1 else 1) else k.seq.freed } }
      let k2 := if last then k1.fetchDone f.issueNo now else k1
      let tag := wTag wp.1
      let src := if f.src = 1 then k.sp.srcIn ((f.addr + 16 * f.delivered) / 64, (f.addr + 16 * f.delivered) / 64)
        else (s.pcOf q (s.streamsOff q + f.addr + 16 * f.delivered)).map fun x => (3, x.1)
      match (if f.src = 1 then k.sp.badIn (f.addr + 16 * f.delivered) 16 else none) with
      | some w => (s.setCore c k2).spErrorAt c 6 0 (placeAfter q f.issueNo) w
      | none =>
        if 256 ≤ g.queue.length then (s.setCore c k2).coreFault c e tag 0x04 (faultPlace q k e)
        else
          let qsrc := match src with
            | some u => if wp.2 && !(g.queue.any QEntry.poison) then k2.seq.qsrc.put e u else k2.seq.qsrc
            | none => k2.seq.qsrc
          let k3 := { k2 with eng := k2.eng.put e { g with queue := g.queue ++ [⟨wp.1, wp.2, now⟩] }, seq := { k2.seq with qsrc := qsrc } }
          let t := k.stampCycle e (wStamp wp.1) (k.minStamp e) (!q.slotted)
          if q.slotted && !q.ctl.stall && g.queue.isEmpty && decide (t ≤ now) then
            (s.setCore c k2).coreFault c e tag 0x03 (faultPlace q k e)
          else if wp.2 && g.queue.isEmpty then (s.setCore c k3).coreFault c e tag 0x0C (faultPlace q k e) src
          else s.setCore c k3)

/-- Kind of a hold for missing data (R308). -/
def lateKind (corrected retried : Bool) : Nat := if retried then 3 else if corrected then 1 else 0

/-- FETCH_CHECK (R134): 96 cc before its due cycle a fetch from HBM whose data is incomplete announces a hold. -/
def execFetchCheck (c : Nat) (corrected retried : Bool) (s : State) : Host.Outcome State Fault Refusal :=
  .next (match s.liveCycle c with
  | none => s
  | some (p, _, now) =>
    match ((s.core c).seq.fetches.find? fun f => f.src == 0 && !f.checked && decide (f.due ≤ now + Config.horizon)) with
    | none => s
    | some f =>
      let s1 := s.modSeq c fun q => { q with fetches := q.fetches.map fun g => if g.issueNo = f.issueNo ∧ g.queue = f.queue then { g with checked := true, late := !g.data } else g }
      if f.data then s1
      else (s1.modSp c fun m => { m with lateCnt := satAdd m.lateCnt 1 }).announce p (lateKind corrected retried) (some (c, 6, f.issueNo * 8 + f.queue)))

/-! ### QWAIT, LDS, STS -/

/-- QWAIT (R126): ready when QFREE of the queue is at least IMM32. -/
def qwaitReq (x : Ctx) : Req :=
  let n := sqAux x.word % 8
  let v := sqImm x.word
  { sqReq x (decide (6 ≤ n) || v == 0 || decide (256 < v)) with notReady := if (v : Int) ≤ x.k.qfree n then none else some 0x02 }

def execQwait (c : Nat) (s : State) : Host.Outcome State Fault Refusal := .next (s.issueRow c 6 0x02 qwaitReq fun x => flyTo x.now x)

/-- LDS (R126): a read of its unit for the scoreboard, no entry. -/
def ldsReq (x : Ctx) : Req :=
  let a := sqAddr x
  let w := sqWidth x.word
  { sqReq x false with
    chk := if addrBad a w then some 0x0D else none
    reads := [unitsOf a w] }

/-- A failed detection code at a read in the cycle of the issue (R243): SP_ERR, and SP_ERROR, 0x16. -/
def State.spError (s : State) (x : Ctx) (w : Nat) : State := s.spErrorAt x.c x.e (wTag x.word) (placeAfter x.q x.issueNo) w

/-- The value that LDS loads: zero- or sign-extended by MOD[2] (R126). -/
def ldsValue (w : IWord) (raw : Nat) : Nat :=
  if wMod w / 4 % 2 = 1 then ofSigned 64 (toSigned (8 * sqWidth w) raw) else raw

def ldsEff (x : Ctx) (s : State) : State :=
  let a := sqAddr x
  let w := sqWidth x.word
  let v := ldsValue x.word (leNat (memRead x.m.mem a w))
  let s1 := (s.modSeq x.c fun q => q.write (sqSd x.word) v (x.m.poison.contains (a / 64)) (x.now + 8) (x.m.srcIn (a / 64, a / 64))).addFlight x.c
    (x.flight (some (x.now + 7)) (some (x.now + 7)))
  match x.m.badIn a w with
  | some b => s1.spError x b
  | none => s1

def execLds (c : Nat) (s : State) : Host.Outcome State Fault Refusal := .next (s.issueRow c 6 0x10 ldsReq ldsEff)

/-- STS (R126, R131, R248): a WRITE entry on its unit to issue + 3. -/
def stsReq (x : Ctx) : Req :=
  let a := sqAddr x
  let w := sqWidth x.word
  let u := unitsOf a w
  { sqReq x false with
    chk := if addrBad a w then some 0x0D else none
    writes := [u]
    takes := [(u.1, u.2, 1, some (x.now + 3))] }

/-- The store: its word is read, merged and written at issue + 3, visible to every read from issue + 4 (R126, R239); a store of fewer than 8 bytes whose read
fails its detection code writes nothing (R243). [DEDUCED log entry 13] -/
def stsEff (x : Ctx) (s : State) : State :=
  let a := sqAddr x
  let d := natLe (sqWidth x.word) (x.k.seq.reg (sqSb x.word) x.now).1
  let f := x.flight (some (x.now + 3)) (some (x.now + 3))
  s.addFlight x.c (match (if sqWidth x.word < 8 then x.m.badIn a d.length else none) with
    | some w => { f with errs := [(x.now + 3, w)] }
    | none => { f with writes := [⟨x.now + 3, a, d, [false], [], none⟩] })

def execSts (c : Nat) (s : State) : Host.Outcome State Fault Refusal := .next (s.issueRow c 6 0x11 stsReq stsEff)

/-! ### ALU, SYSR, BR -/

/-- The ALU operation of R128 on 64-bit values: a is S[SA], b is B, d the old S[SD], imm IMM32. -/
def aluOp (m a b d imm : Nat) : Nat :=
  let w := 18446744073709551616
  let sa := toSigned 64 a
  let sb := toSigned 64 b
  match m with
  | 0x0 => (a + b) % w
  | 0x1 => (a + w - b % w) % w
  | 0x2 => a &&& b
  | 0x3 => a ||| b
  | 0x4 => a ^^^ b
  | 0x5 => a * 2 ^ (b % 64) % w
  | 0x6 => a / 2 ^ (b % 64)
  | 0x7 => ofSigned 64 (sa / (2 ^ (b % 64) : Nat))
  | 0x8 => a * b % w
  | 0x9 => if sa ≤ sb then a else b
  | 0xA => if sa ≤ sb then b else a
  | 0xB => min a b
  | 0xC => max a b
  | 0xD => b
  | 0xE => imm * 4294967296 + d % 4294967296
  | _ => if sa < sb then 1 else 0

/-- Result latency of ALU (R126). -/
def aluLat (m : Nat) : Nat := if m = 8 then 4 else 1

def aluEff (x : Ctx) (s : State) : State :=
  let q := x.k.seq
  let m := wMod x.word
  let a := q.reg (sqSa x.word) x.now
  let b := q.opB x.word x.now
  let d := q.reg (sqSd x.word) x.now
  let poison := (sqReads x.word).any fun r => (q.reg r x.now).2
  flyTo x.now x (s.modSeq x.c fun q' => q'.write (sqSd x.word) (aluOp m a.1 b.1 d.1 (sqImm x.word)) poison (x.now + aluLat m)
    (q.srcOf (sqReads x.word) x.now))

/-- ALU (R128). -/
def execAlu (c : Nat) (s : State) : Host.Outcome State Fault Refusal := .next (s.issueRow c 6 0x20 (fun x => sqReq x false) aluEff)

/-- The step values of R129. Floor is the partition's, of CREATE, while the fallback image of R74 runs too. [DESIGN CHOICE log entry 144] -/
def sysrValue (q : Part) (l sel : Nat) : Nat :=
  match sel with
  | 0 => q.ctl.stepCount
  | 1 => l
  | 2 => q.res.floor
  | 3 => match q.run.frame with | some f => f.ept | none => 0
  | 4 => match q.run.frame with | some f => b2n f.learn | none => 0
  | _ => match q.run.frame with | some f => f.idx | none => 0

/-- SYSR (R129): other selectors are illegal. -/
def execSysr (c : Nat) (s : State) : Host.Outcome State Fault Refusal :=
  .next (s.issueRow c 6 0x21 (fun x => sqReq x (decide (5 < sqAux x.word))) fun x s' =>
    flyTo x.now x (s'.modSeq x.c fun q => q.write (sqSd x.word) (sysrValue x.q x.l (sqAux x.word)) false (x.now + 2)))

/-- A binary32 code as an ordered number; both zeros are 0. -/
def f32Key (x : Nat) : Int := if bit x 31 then -((x % 2147483648 : Nat) : Int) else ((x % 2147483648 : Nat) : Int)
/-- A binary32 code is a NaN. -/
def f32Nan (x : Nat) : Bool := decide (0x7F800000 < x % 2147483648)

/-- The branch conditions of R130. -/
def brCond (m a b : Nat) : Bool :=
  let nan := f32Nan a || f32Nan b
  match m with
  | 0x0 => true
  | 0x1 => a == b
  | 0x2 => a != b
  | 0x3 => decide (toSigned 64 a < toSigned 64 b)
  | 0x4 => decide (toSigned 64 b ≤ toSigned 64 a)
  | 0x5 => decide (a < b)
  | 0x6 => decide (b ≤ a)
  | 0x7 => !nan && decide (f32Key a < f32Key b)
  | 0x8 => !nan && decide (f32Key b ≤ f32Key a)
  | _ => nan

/-- BR (R130): occupancy 32 on both paths. -/
def execBr (c : Nat) (s : State) : Host.Outcome State Fault Refusal :=
  .next (s.issueRow c 6 0x30 (fun x => { sqReq x false with occ := 32 }) fun x s' =>
    let q := x.k.seq
    flyTo x.now x (if brCond (wMod x.word) (q.reg (sqSa x.word) x.now).1 (q.opB x.word x.now).1
      then s'.modSeq x.c fun q' => { q' with pos := sqAux x.word } else s'))

/-! ### FLAG_SET, FLAG_ADD, WAITC, STEP_END, FAULT -/

/-- FLAG_SET (R119). -/
def execFlagSet (c : Nat) (s : State) : Host.Outcome State Fault Refusal :=
  .next (s.issueRow c 6 0x40 (fun x => sqReq x false) fun x s' =>
    let n := sqAux x.word % 64
    flyTo x.now x (s'.changeFlag x.c 6 (wTag x.word) x.issueNo n ((s'.core x.c).flagSetTo n (x.k.seq.opB x.word x.now).1 x.now) false))

/-- FLAG_ADD (R119). -/
def execFlagAdd (c : Nat) (s : State) : Host.Outcome State Fault Refusal :=
  .next (s.issueRow c 6 0x41 (fun x => sqReq x false) fun x s' =>
    let n := sqAux x.word % 64
    flyTo x.now x (s'.changeFlag x.c 6 (wTag x.word) x.issueNo n ((s'.core x.c).fcnt.getD n 0 + (x.k.seq.opB x.word x.now).1 % 4294967296) false))

/-- WAITC (R126): the occupancy is S[SA] + IMM32, from 1 to 2^32 - 1. -/
def execWaitc (c : Nat) (s : State) : Host.Outcome State Fault Refusal :=
  .next (s.issueRow c 6 0x50 (fun x => { sqReq x (sqAddr x == 0 || decide (4294967295 < sqAddr x)) with occ := sqAddr x }) fun x => flyTo x.now x)

/-- STEP_END issues (R135): it names the next step's first position; nothing issues on the sequencer after it in this step. -/
def execStepEnd (c : Nat) (s : State) : Host.Outcome State Fault Refusal :=
  .next (s.issueRow c 6 0x70 (fun x => sqReq x false) fun x s' =>
    flyTo x.now x (s'.modSeq x.c fun q => { q with ended := some (x.now, sqAux x.word), endTag := wTag x.word }))

/-- FAULT (R126): cause ASSERT, 0x0B, code AUX16; it does not issue (R315). -/
def execFault (c : Nat) (s : State) : Host.Outcome State Fault Refusal :=
  .next (match s.issueCtx c 6 with
  | none => s
  | some (x, h) =>
    if wOp h.word = 0x7F then
      let r : Req := { sqReq x false with chk := some 0x0B }
      let s1 := if dueNow x h r && verdict x h r == .fault 0x0B then s.modCore c fun k => { k with flt := { k.flt with code := sqAux x.word } } else s
      s1.issueWith x h r fun _ s' => s'
    else s)

/-! ### Events of the core -/

/-- SCALAR_RESULT (R126): results whose latency has passed are in their registers. -/
def execScalarResult (c : Nat) (s : State) : Host.Outcome State Fault Refusal :=
  .next (match s.liveCycle c with
  | none => s
  | some (_, _, now) => s.modSeq c fun q => q.commit now)

/-- SCOREBOARD_RELEASE (R249): entries whose release cycle has ended are gone. -/
def execScoreboardRelease (c : Nat) (s : State) : Host.Outcome State Fault Refusal :=
  .next (match s.liveCycle c with
  | none => s
  | some (_, _, now) => s.modSp c fun m => { m with sb := sbHeld m.sb now })

/-- A flight has reached its signal point, with its writes made. -/
def Flight.signalDue (f : Flight) (now : Nat) : Bool :=
  wSen f.word && !f.signalled && f.writes.isEmpty && f.effectsIn && (match f.sig with | some t => decide (t ≤ now) | none => false)

/-- The write range of an instruction as the scoreboard holds it (R332), with the bytes as they stand. -/
def Core.capture (k : Core) (f : Flight) : Bytes :=
  (k.sp.sb.filter fun x => x.kind == 1 && x.eng == f.eng && x.issueNo == f.issueNo).flatMap fun x =>
    memRead k.sp.mem (x.first * 64) ((x.last + 1 - x.first) * 64)

/-- REPLAY_CAPTURE (R333): the write range of a captured instruction is copied to the fault area as it stands at its signal point. -/
def State.replayCapture (s : State) (p l c : Nat) (fs : List Flight) : State :=
  s.modImg p fun m => { m with fault := { m.fault with captures := m.fault.captures.map fun x =>
    match (fs.find? fun f => x.1 == l && x.2.1 == f.eng && x.2.2.1 == f.issueNo) with
    | some f => (x.1, x.2.1, x.2.2.1, (s.core c).capture f)
    | none => x } }

/-- INSTRUCTION_SIGNAL_POINT (R118, R120): every instruction of the core with SEN that has reached its signal point signals, in the
order of engine index. -/
def execInstructionSignalPoint (c : Nat) (s : State) : Host.Outcome State Fault Refusal :=
  .next (match s.liveCycle c with
  | none => s
  | some (p, l, now) =>
    let k := s.core c
    let fs := (List.range 7).flatMap fun e => k.flights.filter fun f => f.eng == e && f.signalDue now
    let at_ := k.flights.filter fun f => match f.sig with | some t => t == now | none => false
    let s1 := s.setCore c { k with
      flights := k.flights.map fun f => if f.signalDue now then { f with signalled := true } else f }
    let q := s.part p
    let s2 := if (match q.ck.replay with | some r => r.target == q.ctl.stepCount && !r.ended | none => false) then s1.replayCapture p l c at_ else s1
    fs.foldl (fun t f => t.signal c f.eng (wTag f.word) f.issueNo (wSflag f.word)) s2)

/-- An engine's head is held by an unsatisfied wait or QWAIT (R121). -/
def Core.waitingOn (k : Core) (e now : Nat) (queued : Bool) : Option (Option Nat × Nat) :=
  match k.head e with
  | none => none
  | some h =>
    let t := k.stampCycle e (wStamp h.word) (k.minStamp e) queued
    if now < t then none
    else if wWen h.word && !k.waitOk e (wWflag h.word) now then some (some (wWflag h.word), t)
    else if e == 6 && wOp h.word == 2 && decide (k.qfree (sqAux h.word % 8) < (sqImm h.word : Int)) then some (none, t)
    else none

/-- An engine is idle (R121). -/
def Core.idle (k : Core) (e now : Nat) : Bool :=
  if e = 6 then k.seq.ended.isSome
  else (k.eng.getD e {}).queue.isEmpty && !(k.flights.any fun f => f.eng == e && !f.past now) && !(k.seq.fetches.any fun f => f.queue == e)

/-- The flags that arrivals signal (R121, R284). -/
def Core.arrivalFlags (k : Core) : List Nat := (k.ch.rings.filter fun r => r.2.aflagEn && r.2.log2 != 0).map fun r => r.2.aflag

/-- The cycle from which an engine has been waiting or idle without a break (R121): a head since its stamp cycle, or since the cycle after its arrival; an
empty queue since the cycle after the engine's last issue, and since the last effect of what it issued. -/
def Core.quietSince (k : Core) (e now : Nat) (queued : Bool) : Nat :=
  match k.waitingOn e now queued with
  | some w => max w.2 (match k.head e with | some h => if e = 6 then 0 else h.arrived + 1 | none => 0)
  | none => ((k.flights.filter fun f => f.eng == e).filterMap fun f => f.last).foldl max (match (k.eng.getD e {}).last with | some t => t + 1 | none => 0)

/-- The condition of R121 holds at a cycle; the answer is the first cycle from which it has held: every engine quiet, and the last instruction that signalled
an awaited flag no longer in flight. -/
def Core.deadlockFrom (k : Core) (now : Nat) (queued : Bool) : Option Nat :=
  let ws := (List.range 7).filterMap fun e => k.waitingOn e now queued
  let flags := ws.filterMap fun w => w.1
  let all := (List.range 7).all fun e => (k.waitingOn e now queued).isSome || k.idle e now
  let soon := k.flights.any fun f => !f.signalled && wSen f.word && flags.contains (wSflag f.word)
  let arr := flags.any fun n => k.arrivalFlags.contains n
  if all && !ws.isEmpty && !soon && !arr then
    let sigs := (k.flights.filter fun f => wSen f.word && flags.contains (wSflag f.word)).filterMap fun f => f.last
    some ((List.range 7).foldl (fun a e => max a (k.quietSince e now queued)) (sigs.foldl max 0))
  else none

/-- The waiting engine of lowest index, and the TAG of its head. [DEDUCED log entry 14] -/
def Core.firstWaiting (k : Core) (now : Nat) (queued : Bool) : Nat × Nat :=
  match ((List.range 7).find? fun e => (k.waitingOn e now queued).isSome) with
  | some e => (e, match k.head e with | some h => wTag h.word | none => 0)
  | none => (6, 0)

/-- FLAG_DEADLOCK (R121): the condition has held for 4,096 consecutive logical cycles. The fault names the waiting engine of lowest
index (log entry 14). -/
def execFlagDeadlock (c : Nat) (s : State) : Host.Outcome State Fault Refusal :=
  .next (match s.liveCycle c with
  | none => s
  | some (p, _, now) =>
    let q := s.part p
    let k := s.core c
    match k.deadlockFrom now (!q.slotted) with
    | some t =>
      if t + 4095 ≤ now then
        let w := k.firstWaiting now (!q.slotted)
        s.coreFault c w.1 w.2 0x09 (faultPlace q k w.1)
      else s
    | none => s)

/-- STEP_TIMEOUT (R137): the core has not completed STEP_END within twice the step's cycle count. -/
def execStepTimeout (c : Nat) (s : State) : Host.Outcome State Fault Refusal :=
  .next (match s.liveCycle c with
  | none => s
  | some (p, _, now) =>
    let q := s.part p
    let k := s.core c
    match q.run.frame with
    | none => s
    | some f =>
      if k.seq.complete.isNone && decide (2 * f.cycles.getD f.idx 0 ≤ now) then
        let tag := match k.seq.ended with
          | some _ => k.seq.endTag
          | none => match k.head 6 with | some h => wTag h.word | none => 0
        s.coreFault c 6 tag 0x0A (if q.slotted then now else (k.eng.getD 6 {}).issued)
      else s)

/-- SEQUENCER_REGION_OVERRUN (R123): the position lies past the region at the cycle at which the next instruction could first issue:
ILLEGAL_INSTRUCTION, TAG 0. -/
def execSequencerRegionOverrun (c : Nat) (s : State) : Host.Outcome State Fault Refusal :=
  .next (match s.liveCycle c with
  | none => s
  | some (p, _, now) =>
    let k := s.core c
    let g := k.eng.getD 6 {}
    if k.seq.len ≤ k.seq.pos && k.seq.ended.isNone && !g.stopped && decide (g.last.getD 0 + k.minStamp 6 ≤ now) then
      s.coreFault c 6 0 0x06 (faultPlace (s.part p) k 6)
    else s)

/-- STEP_END has completed on a core (R135): every other queue is empty, nothing is left to deliver, every instruction has had its
last effect. -/
def Core.stepEndDone (k : Core) (now : Nat) : Bool :=
  k.seq.ended.isSome && (List.range 6).all (fun e => (k.eng.getD e {}).queue.isEmpty) && k.seq.fetches.isEmpty &&
  k.flights.all (fun f => f.past now)

/-- STEP_END_COMPLETE (R135). -/
def execStepEndComplete (c : Nat) (s : State) : Host.Outcome State Fault Refusal :=
  .next (match s.liveCycle c with
  | none => s
  | some (_, _, now) =>
    let k := s.core c
    if k.seq.complete.isNone && k.stepEndDone now then s.modSeq c fun q => { q with complete := some now } else s)

end Sys2Proof.Machine
end

