-- ==== Sys2Proof/Machine/Matrix.lean ====
section
/-! DEFINITION. The matrix array (05): MM, DRAIN, LOAD_ACC and the events in their rows. Every contribution of an MM to one row lands in one
event, within the window of R145 (log entry 15). -/

namespace Sys2Proof.Machine

/-! ### Operands -/

def mxA (w : IWord) : Nat := wbits w 83 64
def mxB (w : IWord) : Nat := wbits w 103 84
def mxStride (w : IWord) : Nat := wbits w 119 104
def mxK (w : IWord) : Nat := wbits w 119 104 + 1
def mxFa (w : IWord) : Nat := wbits w 123 120
def mxFb (w : IWord) : Nat := wbits w 127 124
def mxBit (w : IWord) (i : Nat) : Bool := bit (wMod w) i

def is4 (f : Nat) : Bool := f ≤ 1
def is8 (f : Nat) : Bool := decide (2 ≤ f ∧ f ≤ 5)
def isFp8 (f : Nat) : Bool := f == 2 || f == 3

/-- The combinations of R153: kind, occupancy, VA, VB. -/
def mmCombo (fa fb : Nat) (cx : Bool) (k : Nat) : Option (Nat × Nat × Nat × Nat) :=
  if cx then (if isFp8 fa && isFp8 fb then some (1, 2 * k, 256, 128) else none)
  else if is4 fa && is4 fb then (if k % 2 = 0 then some (1, k / 2, 64, 64) else none)
  else if is4 fa && is8 fb then some (1, k, 64, 128)
  else if is8 fa && is4 fb then some (1, k, 128, 64)
  else if is8 fa && is8 fb then some (1, k, 128, 128)
  else if fa = 9 ∧ fb = 9 then some (1, 4 * k, 256, 256)
  else if fa = 6 ∧ fb = 6 then some (2, 4 * k, 256, 256)
  else if fa = 7 ∧ fb = 7 then some (2, 8 * k, 256, 256)
  else if fa = 8 ∧ fb = 8 then some (2, 64 * k, 512, 512)
  else none

/-- The combination of an MM word. -/
def mmOf (w : IWord) : Option (Nat × Nat × Nat × Nat) := mmCombo (mxFa w) (mxFb w) (mxBit w 1) (mxK w)

/-- A byte run lies wholly in the scratchpad. -/
def inSp (a n : Nat) : Bool := decide (a + n ≤ Config.spBytes)

/-- The smallest STAMP of a matrix instruction (R160): LOAD_ACC after an MM needs 128 cc more. -/
def mxMinStamp (x : Ctx) : Option Nat :=
  let g := x.k.eng.getD 0 {}
  match g.last with
  | some _ => some (if wOp x.word = 3 ∧ g.prevOp = 1 then g.occ + 128 else g.occ)
  | none => none

/-! ### MM -/

def mmReq (x : Ctx) : Req :=
  let w := x.word
  match mmOf w with
  | none => { illegal := true, minStamp := mxMinStamp x }
  | some (kind, o, va, vb) =>
    let a := mxA w * 64
    let b := mxB w * 64
    let na := mxK w * va
    let nb := mxK w * vb
    { illegal := decide (4 ≤ wMod w) || !inSp a na || !inSp b nb || decide (Config.spUnits ≤ mxA w) || decide (Config.spUnits ≤ mxB w)
      minStamp := mxMinStamp x
      chk := if x.k.mx.kind != 0 && x.k.mx.kind != kind then some 0x11 else none
      reads := [unitsOf a na, unitsOf b nb]
      takes := [readTake a na (some (x.now + o + 3)), readTake b nb (some (x.now + o + 3))]
      occ := o }

/-- The scratchpad reads of an MM of occupancy o that issues at a cycle (R153, R159): in pass cycle c the operand bytes of that cycle, byte, length, cycle. -/
def mmReads (w : IWord) (o va vb now : Nat) : List (Nat × Nat × Nat) :=
  let pa := mxK w * va / o
  let pb := mxK w * vb / o
  (List.range o).flatMap fun c => [(mxA w * 64 + c * pa, pa, now + c), (mxB w * 64 + c * pb, pb, now + c)]

/-- Of reads that fail, the word of the first in the present cycle, and those of later cycles (R243). -/
def errNow (now : Nat) (l : List (Nat × Nat)) : Option Nat := (l.find? fun e => decide (e.1 ≤ now)).map Prod.snd
def laterErrs (now : Nat) (l : List (Nat × Nat)) : List (Nat × Nat) := l.filter fun e => decide (now < e.1)

/-- The issue of an MM (R147, R156, R159): the kind is set. The operand bytes are taken; those that the network writes before their read cycle are taken
again then (Flight.patch). [DEDUCED log entry 16] -/
def mmEff (x : Ctx) (s : State) : State :=
  match mmOf x.word with
  | none => s
  | some (kind, o, va, vb) =>
    let a := mxA x.word * 64
    let b := mxB x.word * 64
    let na := mxK x.word * va
    let nb := mxK x.word * vb
    let m := x.m
    let f := { x.flight (some (x.now + o + 3)) (some (x.now + o + 3)) with
               total := 128, a := memRead m.mem a na, b := memRead m.mem b nb, pa := m.poisonOf a na, pb := m.poisonOf b nb, nums := [0, 0, o, va, vb, kind],
               src := (m.srcIn (unitsOf a na)).orElse fun _ => m.srcIn (unitsOf b nb), errs := laterErrs x.now (m.readErrs (mmReads x.word o va vb x.now)) }
    let s1 := (s.modCore x.c fun k => { k with mx := { k.mx with kind := kind } }).addFlight x.c f
    match errNow x.now (m.readErrs (mmReads x.word o va vb x.now)) with
    | some w => s1.spError x w
    | none => s1

/-- MM (R156). [DEDUCED log entry 15] -/
def execMm (c : Nat) (s : State) : Host.Outcome State Fault Refusal := .next (s.issueRow c 0 1 mmReq mmEff)

/-! ### Contributions -/

/-- Element i of vector k of a tile, and its element number n within a complex pair. -/
def tileElem (f : Nat) (bs : Bytes) (v k i : Nat) : Nat := elemAt f (sub bs (k * v) v) i

/-- The parity of a binary32 code (R173). -/
def parity (v : Nat) : Nat := ((List.range 32).filter (bit v)).length % 2

/-- The check of a cell as a kind reads it (R173): the residue of V modulo 3, or the parity of the code. -/
def Acc.check (kind : Nat) (c : Acc) : Nat := if kind = 2 then parity c.v else c.v % 3

/-- An addition modulo 2^96 into an EXACT cell (R148), with its residue kept in step, wrap included: 2^96 is 1 modulo 3 (R173). -/
def Acc.addV (c : Acc) (x : Nat) : Acc := { c with v := (c.v + x) % 2 ^ 96, res := (c.res + x % 3 + if 2 ^ 96 ≤ c.v + x then 2 else 0) % 3 }

/-- A new code in a BINARY32 cell, with its parity bit kept in step (R173). -/
def Acc.setF32 (c : Acc) (x : Nat) : Acc := { c with v := x, res := (c.res + parity c.v + parity x) % 2 }

/-- One product into an EXACT cell (R148, R150): value times 2^32, or a special bit. sgn: the product is negated first (R164). -/
def Acc.addProd (c : Acc) (x y : Val) (minus : Bool) : Acc :=
  if x.isNan || y.isNan then { c with sn := true }
  else match (if minus then (x.mul y).negate else x.mul y) with
  | .nan _ _ => { c with sn := true }
  | .inf n => if n then { c with sm := true } else { c with spos := true }
  | .fin n m e _ =>
    let p := m * 2 ^ (e + 32).toNat % 2 ^ 96
    c.addV (if n then (2 ^ 96 - p) % 2 ^ 96 else p)

/-- One contribution to a BINARY32 cell (R151). -/
def Acc.addF32 (c : Acc) (x y : Val) (strict : Bool) : Acc :=
  let a := decodeVal 8 c.v
  c.setF32 (roundVal 8 strict false (fmaExact [a, x, y] x y a)).code

/-- What an MM adds to one cell, in increasing k order (R145, R162 to R165). [DEDUCED log entry 15] -/
def mmCell (w : IWord) (f : Flight) (i j : Nat) (c : Acc) : Acc :=
  let fa := mxFa w
  let fb := mxFb w
  let va := f.nums.getD 3 0
  let vb := f.nums.getD 4 0
  (List.range (mxK w)).foldl (fun c k =>
    if mxBit w 1 then
      let ar := decodeVal fa (tileElem fa f.a va k (2 * i))
      let ai := decodeVal fa (tileElem fa f.a va k (2 * i + 1))
      let br := decodeVal fb (tileElem fb f.b vb k (j / 2 * 2))
      let bi := decodeVal fb (tileElem fb f.b vb k (j / 2 * 2 + 1))
      if j % 2 = 0 then (c.addProd ar br false).addProd ai bi true else (c.addProd ar bi false).addProd ai br false
    else
      let x := decodeVal fa (tileElem fa f.a va k i)
      let y := decodeVal fb (tileElem fb f.b vb k j)
      if f.nums.getD 5 0 = 2 then c.addF32 x y (mxBit w 0) else c.addProd x y false) c

/-- Bytes that element i of a vector takes: offset and length within the vector. -/
def elemSpan (f : Nat) (cx : Bool) (i : Nat) : Nat × Nat :=
  if cx then (2 * i, 2) else if fmtBits f = 4 then (i / 2, 1) else (i * (fmtBits f / 8), fmtBits f / 8)

/-- A poisoned unit of any vector of a tile holds element i (R172). -/
def tilePoison (units : List Nat) (v k f : Nat) (cx : Bool) (i : Nat) : Bool :=
  let e := elemSpan f cx i
  (List.range k).any fun n => units.contains ((n * v + e.1) / 64)

/-- Row i after the contributions of an MM (R145, R172). [DEDUCED log entry 15] -/
def mmRow (w : IWord) (f : Flight) (i : Nat) (acc : Tbl Acc) : Tbl Acc :=
  let cx := mxBit w 1
  let pa := tilePoison f.pa (f.nums.getD 3 0) (mxK w) (mxFa w) cx i
  (List.range 128).foldl (fun t j =>
    let c := mmCell w f i j (t.getD (128 * i + j) {})
    let pb := tilePoison f.pb (f.nums.getD 4 0) (mxK w) (mxFb w) cx (if cx then j / 2 else j)
    t.put (128 * i + j) { c with poison := c.poison || pa || pb, src := if c.poison then c.src else if pa || pb then f.src else none }) acc

/-- Bytes of a packed row of 128 elements (R155). -/
def rowBytes (f : Nat) : Nat := 16 * fmtBits f

/-- Bytes from row to row (R155). -/
def mxPitch (w : IWord) (f : Nat) : Nat := if mxStride w = 0 then rowBytes f else mxStride w * 64

/-- The operand bytes from byte `base` that a network write of d at byte a in a cycle changes: those read after that cycle (R159, R239). -/
def patchRun (read : Nat → Nat) (base : Nat) (bs : Bytes) (now a : Nat) (d : Bytes) : Bytes :=
  (List.range bs.length).map fun n => if a ≤ base + n ∧ base + n < a + d.length ∧ now < read n then d.getD (base + n - a) 0 else bs.getD n 0

/-- The same for the poisoned units of the run, of which the write covers unit a / 64: set while any byte of it is still to be read, cleared while all are. -/
def patchPoison (read : Nat → Nat) (base n : Nat) (ps : List Nat) (now a : Nat) (p : Bool) : List Nat :=
  let u := a / 64 - base / 64
  if base / 64 ≤ a / 64 ∧ u * 64 < n then
    (if p then (if now < read (min n (u * 64 + 64) - 1) then setIns ps u else ps) else if now < read (u * 64) then setDel ps u else ps)
  else ps

/-- A matrix instruction in flight after the network has written a unit in a cycle (R159). [DEDUCED log entry 16] -/
def Flight.patch (f : Flight) (now a : Nat) (d : Bytes) (p : Bool) (src : Option (Nat × Nat)) : Flight :=
  let w := f.word
  let go := fun (ra rb : Nat → Nat) =>
    let pa := patchPoison ra (mxA w * 64) f.a.length f.pa now a p
    let pb := patchPoison rb (mxB w * 64) f.b.length f.pb now a p
    { f with
      a := patchRun ra (mxA w * 64) f.a now a d, b := patchRun rb (mxB w * 64) f.b now a d, pa := pa, pb := pb
      src := if p && f.src.isNone && (pa != f.pa || pb != f.pb) then src else f.src
      errs := f.errs.filter fun e => !(decide (a / 8 ≤ e.2 ∧ e.2 < (a + d.length) / 8 ∧ now < e.1)) }
  if f.eng ≠ 0 then f
  else if f.op = 1 then let o := f.nums.getD 2 0; go (fun n => f.issue + n * o / f.a.length) (fun n => f.issue + n * o / f.b.length)
  else if f.op = 3 then go (fun n => f.issue + n / mxPitch w (mxFa w)) (fun _ => 0)
  else f

/-- Rows that a matrix instruction has finished in the array: for a DRAIN, rows read. -/
def Flight.mxRows (f : Flight) : Nat := if f.op = 2 then f.nums.getD 4 0 else f.done

/-- The first matrix instruction in flight of a kind of opcode that a condition admits, with every earlier matrix instruction finished
in its next row (R145, R160, R161). -/
def mxNext (row : Flight → Nat) (want : Flight → Bool) : List Flight → List Flight → Option Flight
  | _, [] => none
  | before, f :: t =>
    if f.eng == 0 && want f then
      if before.all fun g => decide (row f < g.mxRows) || g.mxRows == 128 then some f else none
    else mxNext row want (if f.eng = 0 ∧ f.op ≠ 0 then before ++ [f] else before) t

/-- Update of the flight with an engine and an issue count. -/
def Core.modFlight (k : Core) (e n : Nat) (g : Flight → Flight) : Core :=
  { k with flights := k.flights.map fun f => if f.eng = e ∧ f.issueNo = n then g f else f }

/-- MM_CONTRIBUTION (R145): the contributions of the oldest MM that is not done land in its next row i, from cycle m + 8 + i. [DEDUCED log entry 15] -/
def execMmContribution (c : Nat) (s : State) : Host.Outcome State Fault Refusal :=
  .next (match s.liveCycle c with
  | none => s
  | some (_, _, now) =>
    let k := s.core c
    match mxNext Flight.done (fun f => f.op == 1 && decide (f.done < 128)) [] k.flights with
    | none => s
    | some f =>
      if f.issue + 8 + f.done ≤ now then
        s.setCore c ({ k with mx := { k.mx with acc := mmRow f.word f f.done k.mx.acc } }.modFlight 0 f.issueNo fun g => { g with done := g.done + 1 })
      else s)

/-! ### DRAIN -/

def drainReq (x : Ctx) : Req :=
  let w := x.word
  let f := mxFa w
  let discard := mxBit w 2
  let o := mxA w * 64
  let pa := mxB w * 64
  let n := 127 * mxPitch w f + rowBytes f
  let bad := bit (wMod w) 3 || mxFb w != 0 ||
    (if discard then mxA w != 0 || mxB w != 0 || mxStride w != 0 || f != 0
     else decide (12 ≤ f) || decide (Config.spUnits ≤ mxA w) || decide (Config.spUnits ≤ mxB w) ||
       (mxStride w != 0 && decide (mxStride w * 64 < rowBytes f)) || !inSp o n || (if f = 11 then mxB w != 0 else !inSp pa 2048))
  let usesP := !discard && f != 11
  { illegal := bad
    minStamp := mxMinStamp x
    chk := if !discard && f == 11 && x.k.mx.kind == 2 then some 0x11 else none
    reads := if usesP then [unitsOf pa 2048] else []
    writes := if discard then [] else [unitsOf o n]
    takes := (if usesP then [readTake pa 2048 (some (x.now + 263))] else []) ++ (if discard then [] else [writeTake o n (some (x.now + 272))])
    occ := 128 }

/-- The issue of a DRAIN (R147, R157): from now the kind is EMPTY for the next block. nums: write range, the kind drained, rows of
parameters read, rows read. [DEDUCED log entry 16] -/
def drainEff (x : Ctx) (s : State) : State :=
  let w := x.word
  let discard := mxBit w 2
  let f := mxFa w
  let t := if discard then x.now + 264 else x.now + 272
  let n := if discard then 0 else 127 * mxPitch w f + rowBytes f
  (s.modCore x.c fun k => { k with mx := { k.mx with kind := 0 } }).addFlight x.c
    { x.flight (some t) (some t) with total := 128, nums := [mxA w * 64, n, x.k.mx.kind, 0, 0] }

/-- DRAIN (R157). -/
def execDrain (c : Nat) (s : State) : Host.Outcome State Fault Refusal := .next (s.issueRow c 0 2 drainReq drainEff)

/-- A DRAIN or XCVT parameter record breaks R166, or its bounds for the format break R169. -/
def paramBad (f : Nat) (r : Bytes) : Bool :=
  let lo := fld r 8 4
  let hi := fld r 12 4
  f32Nan lo || f32Nan hi || decide (f32Key hi < f32Key lo) || decide (codeKey f (clipBound f hi true) < codeKey f (clipBound f lo false))

/-- The DRAIN reads drain parameters. -/
def Flight.drainsParams (f : Flight) : Bool := f.op == 2 && !mxBit f.word 2 && mxFa f.word != 11

/-- DRAIN_PARAM_READ (R157, R159, R166): record i is read at d + 132 + i. -/
def execDrainParamRead (c : Nat) (s : State) : Host.Outcome State Fault Refusal :=
  .next (match s.liveCycle c with
  | none => s
  | some (p, _, now) =>
    let k := s.core c
    match (k.flights.find? fun f => f.eng == 0 && f.drainsParams && decide (f.nums.getD 3 0 < 128)) with
    | none => s
    | some f =>
      let i := f.nums.getD 3 0
      if f.issue + 132 + i ≤ now then
        let a := mxB f.word * 64 + 16 * i
        let m := k.sp.seen s.cc
        let r := memRead m.mem a 16
        let s1 := s.setCore c (k.modFlight 0 f.issueNo fun g =>
          { g with
            recd := g.recd ++ r, pa := if m.poison.contains (a / 64) then g.pa ++ [i] else g.pa, nums := g.nums.set 3 (i + 1)
            src := g.src.orElse fun _ => m.srcIn (a / 64, a / 64) })
        match m.badIn a 16 with
        | some w => s1.spErrorAt c 0 (wTag f.word) (placeAfter (s.part p) f.issueNo) w
        | none => if paramBad (mxFa f.word) r then s1.coreFault c 0 (wTag f.word) 0x10 (placeAfter (s.part p) f.issueNo) else s1
      else s)

/-- The operand X of R167 for a cell of a block of a kind. -/
def drainX (kind : Nat) (c : Acc) : Val :=
  if kind = 2 then decodeVal 8 c.v
  else if c.sn || (c.spos && c.sm) then .canon
  else if c.spos then .inf false
  else if c.sm then .inf true
  else let i := toSigned 96 c.v; .fin (i < 0) i.natAbs (-32) false

/-- The conversion of a value with a parameter record (R167 to R169): the code, and what it adds to the counters for saturation, clip,
lost NaNs; the unclipped result. [DEDUCED log entry 64] -/
def drainConv (f : Nat) (strict sat : Bool) (r : Bytes) (x : Val) : Nat × Bool × Bool × Bool × CvtRes :=
  let sc := decodeVal 8 (fld r 0 4)
  let bi := decodeVal 8 (fld r 4 4)
  let res := roundVal f strict sat (fmaExact [x, sc, bi] x sc bi)
  let cl := clip f (clipBound f (fld r 8 4) false) (clipBound f (fld r 12 4) true) res.code
  (cl.1, res.past || res.madeFin, cl.2, res.nanLost, res)

/-- An EXP96 container (R170). -/
def exp96 (v sp : Nat) : Bytes := natLe 12 v ++ natLe 1 sp ++ zeros 3

def Acc.special (c : Acc) : Nat := b2n c.sn + 2 * b2n c.spos + 4 * b2n c.sm

/-- The write of row i of a DRAIN (R157, R168 to R170, R172). -/
def drainRow (f : Flight) (i : Nat) (cells : List Acc) : PWrite :=
  let w := f.word
  let ft := mxFa w
  let kind := f.nums.getD 2 0
  let addr := mxA w * 64 + i * mxPitch w ft
  let rp := f.pa.contains i
  let units := rowBytes ft / 64
  let per := 128 / units
  let ps := (List.range units).map fun u => rp || ((List.range per).any fun j => (cells.getD (u * per + j) {}).poison)
  let src := ((cells.find? Acc.poison).bind Acc.src).orElse fun _ => if rp then f.src else none
  if ft = 11 then ⟨f.issue + 144 + i, addr, cells.flatMap fun c => exp96 c.v c.special, ps, [], src⟩
  else
    let r := sub f.recd (16 * i) 16
    let res := cells.map fun c => drainConv ft (mxBit w 0) (mxBit w 1) r (drainX kind c)
    ⟨f.issue + 144 + i, addr, packElems ft (res.map Prod.fst), ps,
      [(0x184, (res.filter fun x => x.2.1).length), (0x188, (res.filter fun x => x.2.2.1).length), (0x18C, (res.filter fun x => x.2.2.2.1).length)], src⟩

/-- The cells of a row, and the accumulators with the row cleared. -/
def rowCells (acc : Tbl Acc) (i : Nat) : List Acc := (List.range 128).map fun j => acc.getD (128 * i + j) {}
def clearRow (acc : Tbl Acc) (i : Nat) : Tbl Acc := acc.filter fun x => !decide (128 * i ≤ x.1 ∧ x.1 < 128 * i + 128)

/-- DRAIN_ROW_READ (R157, R161, R173): row i is read and cleared at d + 136 + i; a cell whose residue or parity disagrees raises ACC_CHECK. -/
def execDrainRowRead (c : Nat) (s : State) : Host.Outcome State Fault Refusal :=
  .next (match s.liveCycle c with
  | none => s
  | some (p, _, now) =>
    let k := s.core c
    match mxNext Flight.mxRows (fun f => f.op == 2 && decide (f.mxRows < 128)) [] k.flights with
    | none => s
    | some f =>
      let i := f.mxRows
      if f.issue + 136 + i ≤ now ∧ (f.drainsParams = true → i < f.nums.getD 3 0) then
        let discard := mxBit f.word 2
        let row := drainRow f i (rowCells k.mx.acc i)
        let k1 := { k with mx := { k.mx with acc := clearRow k.mx.acc i } }
        let k2 := k1.modFlight 0 f.issueNo fun g =>
          { g with nums := g.nums.set 4 (i + 1), done := if discard then i + 1 else g.done, writes := if discard then g.writes else g.writes ++ [row] }
        let k3 := if discard && i == 127 then k2.count [(0x180, 1)] else k2
        let s1 := s.setCore c k3
        if (rowCells k.mx.acc i).any fun x => x.res != x.check (f.nums.getD 2 0) then s1.coreFault c 0 (wTag f.word) 0x12 (placeAfter (s.part p) f.issueNo) else s1
      else s)

/-- DRAIN_ROW_WRITE (R159, R168): the next converted row is written at d + 144 + i. -/
def execDrainRowWrite (c : Nat) (s : State) : Host.Outcome State Fault Refusal :=
  .next (match s.liveCycle c with
  | none => s
  | some (_, _, now) =>
    let k := s.core c
    match (k.flights.find? fun f => f.eng == 0 && f.op == 2 && !f.writes.isEmpty) with
    | none => s
    | some f =>
      match f.writes with
      | [] => s
      | w :: t =>
        if w.cycle ≤ now then
          let k1 := (k.land s.cc w).modFlight 0 f.issueNo fun g => { g with writes := t, done := g.done + 1 }
          s.setCore c (if f.done = 127 then k1.count [(0x180, 1)] else k1)
        else s)

/-! ### LOAD_ACC -/

def loadAccReq (x : Ctx) : Req :=
  let w := x.word
  let f := mxFa w
  let a := mxA w * 64
  let n := 127 * mxPitch w f + rowBytes f
  let kind := if f = 11 then 1 else 2
  { illegal := decide (4 ≤ wMod w) || mxB w != 0 || mxFb w != 0 || (f != 8 && f != 11) || decide (Config.spUnits ≤ mxA w) ||
      (mxStride w != 0 && decide (mxStride w * 64 < rowBytes f)) || !inSp a n
    minStamp := mxMinStamp x
    chk := if mxBit w 1 && x.k.mx.kind != 0 && x.k.mx.kind != kind then some 0x11 else none
    reads := [unitsOf a n]
    takes := [readTake a n (some (x.now + 131))]
    occ := 128 }

/-- The issue of a LOAD_ACC (R147, R158, R159): the kind is set. Input row i is read at l + i: the rows are taken; those that the network writes before
their read cycle are taken again then (Flight.patch). [DEDUCED log entry 16] -/
def loadAccEff (x : Ctx) (s : State) : State :=
  let w := x.word
  let f := mxFa w
  let a := mxA w * 64
  let n := 127 * mxPitch w f + rowBytes f
  let errs := x.m.readErrs ((List.range 128).map fun i => (a + i * mxPitch w f, rowBytes f, x.now + i))
  let s1 := (s.modCore x.c fun k => { k with mx := { k.mx with kind := if f = 11 then 1 else 2 } }).addFlight x.c
    { x.flight (some (x.now + 131)) (some (x.now + 131)) with
      total := 128, a := memRead x.m.mem a n, pa := x.m.poisonOf a n, src := x.m.srcIn (unitsOf a n), errs := laterErrs x.now errs }
  match errNow x.now errs with
  | some b => s1.spError x b
  | none => s1

/-- LOAD_ACC (R158). -/
def execLoadAcc (c : Nat) (s : State) : Host.Outcome State Fault Refusal := .next (s.issueRow c 0 3 loadAccReq loadAccEff)

/-- A cell after LOAD_ACC (R158): replaced, or added to. off: the element's first byte in the captured block. -/
def loadCell (f : Flight) (off : Nat) (c : Acc) : Acc :=
  let add := mxBit f.word 1
  let ps := f.pa.contains (off / 64)
  let mark := fun (c : Acc) => { c with poison := c.poison || ps, src := if c.poison then c.src else if ps then f.src else none }
  if mxFa f.word = 11 then
    let v := fld f.a off 12
    let sp := fld f.a (off + 12) 1
    if add then mark { c.addV v with sn := c.sn || bit sp 0, spos := c.spos || bit sp 1, sm := c.sm || bit sp 2 }
    else mark { v := v, sn := bit sp 0, spos := bit sp 1, sm := bit sp 2, res := v % 3 }
  else
    let x := fld f.a off 4
    if add then
      let a := decodeVal 8 c.v
      let y := decodeVal 8 x
      let r := match firstNan [a, y] with | some v => v | none => a.add y
      mark (c.setF32 (roundVal 8 (mxBit f.word 0) false r).code)
    else mark { v := x, res := parity x }

/-- LOAD_ACC_ROW_WRITE (R158, R159): row i is written at l + 8 + i. -/
def execLoadAccRowWrite (c : Nat) (s : State) : Host.Outcome State Fault Refusal :=
  .next (match s.liveCycle c with
  | none => s
  | some (_, _, now) =>
    let k := s.core c
    match mxNext Flight.done (fun f => f.op == 3 && decide (f.done < 128)) [] k.flights with
    | none => s
    | some f =>
      let i := f.done
      if f.issue + 8 + i ≤ now then
        let ft := mxFa f.word
        let acc := (List.range 128).foldl (fun t j =>
          t.put (128 * i + j) (loadCell f (i * mxPitch f.word ft + j * (fmtBits ft / 8)) (t.getD (128 * i + j) {}))) k.mx.acc
        s.setCore c ({ k with mx := { k.mx with acc := acc } }.modFlight 0 f.issueNo fun g => { g with done := g.done + 1 })
      else s)

end Sys2Proof.Machine
end

