-- ==== Sys2Proof/Machine/Trans.lean ====
section
/-! DEFINITION. The transcendental functions of the vector engine (R218 to R225), and the fixed-point series by which their tables and the
correctly rounded EXP2 and LOG2 are computed. -/

namespace Sys2Proof.Machine

/-! ### Comparison of values -/

/-- Order of two values that are not NaNs; both zeros equal (R210). -/
def Val.le : Val → Val → Bool
  | .inf a, y => a || (match y with | .inf b => !b | _ => false)
  | _, .inf b => !b
  | .fin a m e _, .fin b m' e' _ => let q := min e e'; decide (scaled a m e q ≤ scaled b m' e' q)
  | _, _ => false

def Val.eqv (x y : Val) : Bool := x.le y && y.le x
def Val.lt (x y : Val) : Bool := x.le y && !y.le x

/-- IEEE 754-2019 maximum and minimum (R210): the first NaN, and -0 below +0. -/
def Val.max (x y : Val) : Val :=
  if x.isNan then x else if y.isNan then y
  else if x.eqv y then (if x.neg? then y else x) else if x.le y then y else x
def Val.min (x y : Val) : Val :=
  if x.isNan then x else if y.isNan then y
  else if x.eqv y then (if x.neg? then x else y) else if x.le y then x else y

/-! ### Fixed point with 256 fraction bits -/

def fxOne : Nat := 2 ^ 256

/-- Σ t_k / (2k + 1) over n terms, with t_0 = t and t_(k+1) = t_k × z2: the series of atanh. -/
def atanhSum : Nat → Nat → Nat → Nat → Nat
  | 0, _, _, _ => 0
  | n + 1, k, t, z2 => t / (2 * k + 1) + atanhSum n (k + 1) (t * z2 / fxOne) z2

/-- 2 atanh(a / b) = ln((b + a) / (b - a)) in fixed point, for a / b at most 1/3. -/
def fxLn (a b : Nat) : Nat := let z := a * fxOne / b; 2 * atanhSum 90 0 z (z * z / fxOne)

/-- ln 2 in fixed point. -/
def fxLn2 : Nat := fxLn 1 3

/-- Σ t_k with t_0 = t and t_(k+1) = t_k × x / (k + 1): the exponential series. -/
def expSum : Nat → Nat → Nat → Nat → Nat
  | 0, _, _, _ => 0
  | n + 1, k, t, x => t + expSum n (k + 1) (t * x / fxOne / (k + 1)) x

/-- 2^f in fixed point, for a fraction f in fixed point. -/
def fxExp2 (f : Nat) : Nat := expSum 70 0 fxOne (f * fxLn2 / fxOne)

/-- The logarithm to base 2 of m / 2^k, from 1 to 2, in fixed point. -/
def fxLog2 (m k : Nat) : Nat := fxLn (m - 2 ^ k) (m + 2 ^ k) * fxOne / fxLn2

/-- The integer square root by n binary digits. -/
def isqrt : Nat → Nat → Nat → Nat
  | 0, r, _ => r
  | n + 1, r, x => isqrt n (if (r + 2 ^ n) * (r + 2 ^ n) ≤ x then r + 2 ^ n else r) x

/-- A quotient as a value whose rounding is exact. -/
def quot (neg : Bool) (a b : Nat) (e : Int) : Val := let x := a * 2 ^ 300; .fin neg (x / b) (e - 300) (x % b != 0)

/-! ### binary32 operations -/

/-- One rounding to binary32 that keeps subnormals (R218). -/
def r32 (v : Val) : Val := decodeVal 8 (roundVal 8 true false v).code

def f32 (c : Nat) : Val := decodeVal 8 c
def one32 : Val := .fin false 1 0 false
def mul32 (a b : Val) : Val := r32 (match firstNan [a, b] with | some v => v | none => a.mul b)
def add32 (a b : Val) : Val := r32 (match firstNan [a, b] with | some v => v | none => a.add b)
def sub32 (a b : Val) : Val := r32 (match firstNan [a, b] with | some v => v | none => a.add b.negate)
def fma32 (a b c : Val) : Val := r32 (fmaExact [a, b, c] a b c)
/-- A finite value times 2^k. -/
def Val.scale (v : Val) (k : Int) : Val := match v with | .fin n m e s => .fin n m (e + k) s | x => x

/-! ### The tables of R220 -/

/-- 2^(j / 128). -/
def tblT (j : Nat) : Val := r32 (if j = 0 then one32 else .fin false (fxExp2 (j * fxOne / 128)) (-256) true)
/-- log2(1 + j / 128). -/
def tblLL (j : Nat) : Val := r32 (if j = 0 then .zero false else .fin false (fxLog2 (128 + j) 7) (-256) true)
/-- 128 / (128 + j). -/
def tblLR (j : Nat) : Val := r32 (quot false 128 (128 + j) 0)
/-- 256 / (257 + 2j). -/
def tblRR (j : Nat) : Val := r32 (quot false 256 (257 + 2 * j) 0)
/-- 1 / sqrt(2^h × (1 + (2k + 1) / 128)), j = 64 h + k. -/
def tblRS (j : Nat) : Val :=
  let d := 2 ^ (j / 64) * (129 + 2 * (j % 64))
  r32 (.fin false (isqrt 260 0 (128 * 2 ^ 512 / d)) (-256) true)

/-! ### The algorithms -/

/-- x = 2^e × m with 1 ≤ m < 2, for a finite x that is not 0: e, and the fraction of m in 23 bits (R222). -/
def split32 (m : Nat) (e : Int) : Int × Nat :=
  let l := Nat.log2 m
  (e + l, if l ≤ 23 then m * 2 ^ (23 - l) - 2 ^ 23 else m / 2 ^ (l - 23) - 2 ^ 23)

/-- EXP2 before its final rounding (R221), for -160 ≤ x < 128. -/
def exp2Core (neg : Bool) (m : Nat) (e : Int) : Val :=
  let k : Int := roundTo m (e + 32) false 0
  let x : Int := if neg then -k else k
  let n : Int := x / 4294967296
  let lo := (x % 4294967296).toNat
  let j := lo / 33554432
  let r := lo % 33554432
  let q := 0x3D7F7BFF + 0x0E35846C * r / 4294967296
  let q := 0xB17217F8 + q * r / 4294967296
  let q := q * r / 4294967296
  ((tblT j).mul (.fin false (4294967296 + q) 0 false)).scale (n - 32)

/-- 2^x for the correct rounding of strict mode (R218). -/
def exp2Exact (neg : Bool) (m : Nat) (e : Int) : Val :=
  let x : Int := scaled neg m e (min e 0)
  let d : Nat := 2 ^ (-(min e 0)).toNat
  let n := x / (d : Int)
  let f := (x % (d : Int)).toNat
  if f = 0 then .fin false 1 n false else .fin false (fxExp2 (f * fxOne / d)) (n - 256) true

/-- EXP2 with its specials (R219, R221): the value before the final rounding. -/
def exp2Val (strict : Bool) (x : Val) : Val :=
  match x with
  | .nan n f => .nan n f
  | .inf n => if n then .zero false else .inf false
  | .fin n m e _ =>
    if m = 0 then one32
    else if (Val.fin false 128 0 false).le x then .inf false
    else if x.lt (.fin true 160 0 false) && !strict then .zero false
    else if x.lt (.fin true 400 0 false) then .fin false 1 (-400) false
    else if strict then exp2Exact n m e else exp2Core n m e

/-- LOG2 before its final rounding (R222), for a finite x > 0. -/
def log2Core (m : Nat) (e : Int) : Val :=
  let s := split32 m e
  let j0 := (s.2 + 0x8000) / 65536
  let e1 := if j0 = 128 then s.1 + 1 else s.1
  let mv : Val := .fin false (2 ^ 23 + s.2) (if j0 = 128 then -24 else -23) false
  let j := if j0 = 128 then 0 else j0
  let u := fma32 mv (tblLR j) (.fin true 1 0 false)
  let p := fma32 (f32 0x3EF6384F) u (f32 0xBF38AA3B)
  let p := fma32 p u (f32 0x3FB8AA3B)
  let p := mul32 p u
  let h := add32 (Val.ofInt e1) (tblLL j)
  h.add p

/-- log2 x for the correct rounding of strict mode (R218). -/
def log2Exact (m : Nat) (e : Int) : Val :=
  let l := Nat.log2 m
  let k : Int := e + l
  if m = 2 ^ l then Val.ofInt k
  else
    let t : Int := k * (fxOne : Int) + (fxLog2 m l : Int)
    .fin (t < 0) (if t < 0 then t.natAbs - 1 else t.natAbs) (-256) true

def log2Val (strict : Bool) (x : Val) : Val :=
  match x with
  | .nan n f => .nan n f
  | .inf n => if n then .canon else .inf false
  | .fin n m e _ => if m = 0 then .inf true else if n then .canon else if strict then log2Exact m e else log2Core m e

/-- RCP before its final rounding (R219, R223). -/
def rcpVal (x : Val) : Val :=
  match x with
  | .nan n f => .nan n f
  | .inf n => .zero n
  | .fin n m e _ =>
    if m = 0 then .inf n
    else
      let s := split32 m e
      let r := tblRR (s.2 / 65536)
      let u := fma32 (.fin false (2 ^ 23 + s.2) (-23) false) r (.fin true 1 0 false)
      let t := sub32 one32 u
      let t := fma32 u t (.fin true 1 0 false)
      let t := mul32 u t
      let y := (r.add (r.mul t)).scale (-s.1)
      if n then y.negate else y

/-- RSQRT before its final rounding (R219, R224). -/
def rsqrtVal (x : Val) : Val :=
  match x with
  | .nan n f => .nan n f
  | .inf n => if n then .canon else .zero false
  | .fin n m e _ =>
    if m = 0 then .inf n
    else if n then .canon
    else
      let s := split32 m e
      let hb := (s.1 % 2).toNat
      let mp : Val := .fin false (2 ^ 23 + s.2) ((hb : Int) - 23) false
      let r := tblRS (64 * hb + s.2 / 131072)
      let w := mul32 mp r
      let u := fma32 w r (.fin true 1 0 false)
      let t := fma32 u (.fin true 5 (-4) false) (.fin false 3 (-3) false)
      let t := fma32 t u (.fin true 1 (-1) false)
      let t := mul32 t u
      (r.add (r.mul t)).scale (-((s.1 - hb) / 2))

/-- TANH before its final rounding (R219, R225). -/
def tanhVal (x : Val) : Val :=
  match x with
  | .nan n f => .nan n f
  | .inf n => .fin n 1 0 false
  | .fin n m e st =>
    let a : Val := .fin false m e st
    if m = 0 then x
    else if a.lt (.fin false 1 (-4) false) then
      let s2 := mul32 x x
      let p := fma32 s2 (f32 0x3E088889) (f32 0xBEAAAAAB)
      let p := mul32 p s2
      x.add (x.mul p)
    else if (Val.fin false 10 0 false).le a then .fin n 1 0 false
    else
      let z := mul32 a (f32 0x4038AA3B)
      let d := add32 one32 (r32 (exp2Val false z))
      let y := one32.add ((Val.fin true 2 0 false).mul (r32 (rcpVal d)))
      if n then y.negate else y

/-- The function of an opcode (R205, R218): its value before the final rounding. -/
def transVal (op : Nat) (strict : Bool) (x : Val) : Val :=
  match op with
  | 0x20 => exp2Val strict x
  | 0x21 => log2Val strict x
  | 0x22 => rcpVal x
  | 0x23 => rsqrtVal x
  | _ => tanhVal x

/-- The three stages of R218: the element to binary32, the function with its final rounding in the instruction's mode, the result to
FD. -/
def transElem (op fa fd : Nat) (strict sat : Bool) (x : Nat) : CvtRes :=
  let a := decodeVal 8 (convert fa 8 true false x).code
  let y := roundVal 8 strict false (transVal op strict a)
  let r := convert 8 fd strict sat y.code
  { r with flush := r.flush || y.flush }

end Sys2Proof.Machine
end

