-- ==== Sys2Proof/Machine/Vector.lean ====
section
/-! DEFINITION. The vector engine (07). The results of an instruction are computed group by group in the order of its timing table, against its own
earlier writes and those of the network; the group-write events put them into scratchpad (log entry 16). -/

namespace Sys2Proof.Machine

/-! ### Encoding, shape record -/

def vxD (w : IWord) : Nat := wbits w 79 64
def vxA (w : IWord) : Nat := wbits w 95 80
def vxB (w : IWord) : Nat := wbits w 111 96
def vxSh (w : IWord) : Nat := wbits w 127 112
def vxStrict (w : IWord) : Bool := bit (wMod w) 0
def vxSat (w : IWord) : Bool := bit (wMod w) 1
def vxBm (w : IWord) : Nat := wMod w / 4

/-- A shape record (R201), strides in bytes (0 packed). -/
structure Shape where
  rows : Nat
  wid : Nat
  fa : Nat
  fb : Nat
  fd : Nat
  maddr : Nat
  ast : Nat
  bst : Nat
  dst : Nat
  mst : Nat
  s1 : Nat
  s2 : Nat
  rsv : Bool
  deriving DecidableEq, Repr

def Shape.n (h : Shape) : Nat := 128 * h.wid
def Shape.groups (h : Shape) : Nat := h.rows * h.wid
def Shape.masked (h : Shape) : Bool := h.maddr != 0xFFFF

/-- A shape record as its 32 bytes give it (R201). -/
def readShape (b : Bytes) : Shape :=
  { rows := fld b 0 2 % 4096 + 1, wid := fld b 2 1 % 32 + 1, fa := fld b 3 1 % 16, fb := fld b 3 1 / 16, fd := fld b 4 1 % 16,
    maddr := fld b 6 2, ast := fld b 8 2 * 64, bst := fld b 10 2 * 64, dst := fld b 12 2 * 64, mst := fld b 14 2 * 64,
    s1 := fld b 16 4, s2 := fld b 20 4,
    rsv := fld b 0 2 / 4096 != 0 || fld b 2 1 / 32 != 0 || fld b 4 1 / 16 != 0 || fld b 5 1 != 0 || fld b 24 8 != 0 }

def isRed (op : Nat) : Bool := decide (0x30 ≤ op ∧ op ≤ 0x33)
def isTrans (op : Nat) : Bool := decide (0x20 ≤ op ∧ op ≤ 0x24)
def isCmp (op : Nat) : Bool := decide (0x10 ≤ op ∧ op ≤ 0x13)
/-- The opcodes that read B (R203). -/
def readsB (op : Nat) : Bool := decide (1 ≤ op ∧ op ≤ 6) || decide (0x10 ≤ op ∧ op ≤ 0x14) || op == 0x40

/-- ILLEGAL_INSTRUCTION of a vector instruction (R203 to R205). [DEDUCED log entry 62, DEDUCED log entry 63] -/
def vxIllegal (w : IWord) : Bool :=
  let op := wOp w
  let bm := vxBm w
  let lim := Config.spLines
  let bUsed := (readsB op && bm != 3) || op == 0x41
  let modBad :=
    if readsB op then op == 0x40 && bm == 3
    else if isRed op then decide (2 ≤ bm)
    else if op = 0x48 then bm == 3
    else bm != 0
  let low := isCmp op || op == 0x33 || op == 0x40 || (op == 0x48 && bm == 0)
  decide (lim ≤ vxD w) || decide (lim ≤ vxA w) || decide (lim ≤ vxB w) || (op == 0x48 && vxA w != 0) || (!bUsed && vxB w != 0) || modBad ||
  (low && wMod w % 4 != 0)

/-- A format of R176 other than EXP96. -/
def plainFmt (f : Nat) : Bool := decide (f ≤ 10)

/-- The formats that an opcode accepts for the operands it reads or writes (R201, R210, R214, R232, R539). -/
def vxFmts (op bm : Nat) (h : Shape) : Bool :=
  let b := bm == 3 || plainFmt h.fb
  if op = 0x40 then h.fa == 11 && h.fb == 11 && h.fd == 11
  else if op = 0x41 then h.fa == 11 && plainFmt h.fd
  else if op = 0x48 then (if bm = 0 then h.fd == 10 else plainFmt h.fd)
  else if op = 0x30 then (h.fa == 11 && h.fd == 11) || (plainFmt h.fa && plainFmt h.fd)
  else if op = 0x33 then plainFmt h.fa && h.fd == 10
  else if op = 0x14 then (h.fa == 11 && h.fd == 11 && bm != 3 && h.fb == 11) || (plainFmt h.fa && plainFmt h.fd && b)
  else if op = 0x09 then (h.fa == 11 && h.fd == 11) || (plainFmt h.fa && plainFmt h.fd)
  else plainFmt h.fa && plainFmt h.fd && (!readsB op || b)

/-- Row stride of a block. -/
def pitch (st f n : Nat) : Nat := if st = 0 then fmtBytes f n else st
/-- Bytes of a block of rows. -/
def blockSize (st f n rows : Nat) : Nat := (rows - 1) * pitch st f n + fmtBytes f n

/-- The byte regions that an instruction reads: A, B or parameter records, mask, each where used (R200 to R203, R217). [DEDUCED log entry 16] -/
def vxReads (w : IWord) (h : Shape) : List (Nat × Nat) :=
  let op := wOp w
  let bm := vxBm w
  (if op = 0x48 then [] else [(vxA w * 512, blockSize h.ast h.fa h.n h.rows)]) ++
  (if op = 0x41 then [(vxB w * 512, 16 * h.rows)]
   else if readsB op && bm != 3 then
     [(vxB w * 512, if bm = 0 then blockSize h.bst h.fb h.n h.rows else if bm = 1 then fmtBytes h.fb h.n else fmtBytes h.fb h.rows)]
   else []) ++
  (if h.masked then [(h.maddr * 512, blockSize h.mst 5 h.n h.rows)] else [])

/-- The byte region that it writes (R200, R212). -/
def vxWrites (w : IWord) (h : Shape) : Nat × Nat :=
  (vxD w * 512,
   if isRed (wOp w) then (if vxBm w % 2 = 1 then fmtBytes h.fd h.rows else fmtBytes h.fd h.n) else blockSize h.dst h.fd h.n h.rows)

/-- A nonzero stride below the packed row size, of an operand that is read or written (R201): of B under BMODE 0 to 2, and of the D of a reduction too. [DEDUCED log entry 62] -/
def vxStrideBad (w : IWord) (h : Shape) : Bool :=
  let op := wOp w
  let bad (st f : Nat) := st != 0 && decide (st < fmtBytes f h.n)
  (op != 0x48 && bad h.ast h.fa) || (readsB op && vxBm w != 3 && bad h.bst h.fb) || bad h.dst h.fd || (h.masked && bad h.mst 5)

/-- CLAMP bounds that fault (R210). -/
def clampBad (h : Shape) : Bool := f32Nan h.s1 || f32Nan h.s2 || decide (f32Key h.s2 < f32Key h.s1)

/-- VX_SHAPE (R201, R202, R210, R539). -/
def vxShapeBad (w : IWord) (h : Shape) : Bool :=
  let op := wOp w
  h.rsv || !vxFmts op (vxBm w) h || vxStrideBad w h ||
  (if op = 0x14 then !h.masked else !(isRed op || op == 0x38) && h.masked) ||
  ((vxReads w h) ++ [vxWrites w h]).any (fun r => !inSp r.1 r.2) || (op == 0x0A && clampBad h)

/-- Cycles per group and latency (R205). For SOFTMAX the first is c_e. -/
def vxCL (op : Nat) (strict : Bool) (bm : Nat) : Nat × Nat :=
  if isTrans op then (if strict && decide (op ≤ 0x21) then (16, 64) else (2, 24))
  else if isRed op then (1, if bm % 2 = 1 then 16 else 8)
  else if op = 0x38 then (if strict then (16, 64) else (2, 24))
  else if op = 0x40 then (4, 12)
  else if op = 0x41 then (2, 12)
  else if op = 0x48 then (1, 20)
  else (1, 8)

/-- The occupancy (R205, R207). -/
def vxOcc (w : IWord) (h : Shape) : Nat :=
  let c := (vxCL (wOp w) (vxStrict w) (vxBm w)).1
  if wOp w = 0x38 then (1 + 2 * c) * h.groups + 64 else c * h.groups

/-! ### Elements -/

/-- One element position of a group: operand codes, unmasked, poison of what was read for it. -/
structure Item where
  a : Nat
  b : Nat
  d : Nat
  on : Bool
  p : Bool
  deriving DecidableEq, Repr

/-- An element of a block at a byte base, and the poison of its unit. -/
def elemMem (m : CoreSp) (f base i : Nat) : Nat × Bool :=
  let bits := fmtBits f
  let a := base + i * bits / 8
  (if bits = 4 then (memGet m.mem a).toNat / (if i % 2 = 0 then 1 else 16) % 16 else leNat (memRead m.mem a (bits / 8)), m.poison.contains (a / 64))

/-- The element (r, n) with its operands (R200, R202, R203): of SEL the poison of the operand that the mask chooses (R233). [DEDUCED log entry 63] -/
def vxItem (w : IWord) (h : Shape) (m : CoreSp) (r n : Nat) : Item :=
  let op := wOp w
  let a := if op = 0x48 then (0, false) else elemMem m h.fa (vxA w * 512 + r * pitch h.ast h.fa h.n) n
  let b := if !readsB op then (0, false)
    else match vxBm w with
    | 0 => elemMem m h.fb (vxB w * 512 + r * pitch h.bst h.fb h.n) n
    | 1 => elemMem m h.fb (vxB w * 512) n
    | 2 => elemMem m h.fb (vxB w * 512) r
    | _ => (h.s1, false)
  let d := if op = 0x04 then elemMem m h.fd (vxD w * 512 + r * pitch h.dst h.fd h.n) n else (0, false)
  let k := if h.masked then elemMem m 5 (h.maddr * 512 + r * pitch h.mst 5 h.n) n else (1, false)
  ⟨a.1, b.1, d.1, k.1 != 0, k.2 || (if op = 0x14 then (if k.1 != 0 then a.2 else b.2) else a.2 || b.2 || d.2)⟩

/-- Group k of the block (R200). -/
def vxGroup (w : IWord) (h : Shape) (m : CoreSp) (k : Nat) : List Item :=
  (List.range 128).map fun l => vxItem w h m (k / h.wid) (128 * (k % h.wid) + l)

/-! ### Results of one element -/

/-- The exact result of an arithmetic opcode (R208 to R210): the first NaN operand in the order A, B, D. The integer 0
has no sign to change: NEG gives 0. [DEDUCED log entry 63] -/
def vxArith (op : Nat) (a b d : Val) (h : Shape) : Val :=
  let two (f : Val → Val → Val) := match firstNan [a, b] with | some v => v | none => f a b
  match op with
  | 0x01 => two Val.add
  | 0x02 => two fun x y => x.add y.negate
  | 0x03 => two Val.mul
  | 0x04 => fmaExact [a, b, d] a b d
  | 0x05 => a.min b
  | 0x06 => a.max b
  | 0x07 => (match a with | .nan _ f => .nan false f | .inf _ => .inf false | .fin _ m e s => .fin false m e s)
  | 0x08 => (match a with | .fin _ 0 _ _ => if (fltParams h.fa).isNone then .zero false else a.negate | _ => a.negate)
  | 0x0A => (a.max (f32 h.s1)).min (f32 h.s2)
  | _ => a

/-- A compare (R210). -/
def vxCmp (op : Nat) (a b : Val) : Bool :=
  if a.isNan || b.isNan then op == 0x11
  else match op with
  | 0x10 => a.eqv b
  | 0x11 => !a.eqv b
  | 0x12 => a.lt b
  | _ => a.le b

/-- The Thresh generator (R230, R231): eight rounds on four words. -/
def rotl32 (x n : Nat) : Nat := (x * 2 ^ n + x / 2 ^ (32 - n)) % 4294967296

def threshRounds : Nat → Nat → Nat × Nat × Nat × Nat → Nat × Nat × Nat × Nat → Nat × Nat × Nat × Nat
  | 0, _, _, x => x
  | n + 1, rd, k, (x0, x1, x2, x3) =>
    let w := 4294967296
    let a0 := (x0 + x1) % w
    let a3 := rotl32 (x3 ^^^ a0) (if rd % 2 = 1 then 8 else 16)
    let a2 := (x2 + a3) % w
    let a1 := rotl32 (x1 ^^^ a2) (if rd % 2 = 1 then 7 else 12)
    threshRounds n (rd + 1) k
      (if rd = 3 then ((a0 + k.2.1) % w, (a1 + k.2.2.1) % w, (a2 + k.2.2.2) % w, (a3 + k.1 + 1) % w) else (a0, a1, a2, a3))

/-- The output word (R231) for key words, element index, STEP_COUNT and stream identifier. -/
def threshWord (k : Nat × Nat × Nat × Nat) (i step sid : Nat) : Nat :=
  let w := 4294967296
  let r := threshRounds 8 0 k ((i + k.1) % w, (step % w + k.2.1) % w, (step / w + k.2.2.1) % w, (sid + k.2.2.2) % w)
  (r.1 + k.2.2.1) % w

/-- The element of THRESH (R232). -/
def threshElem (mode fd : Nat) (strict sat : Bool) (h : Shape) (out : Nat) : CvtRes :=
  match mode with
  | 0 => .plain out
  | 1 => roundVal fd strict sat (.fin false (out / 256) (-24) false)
  | _ => roundVal fd strict sat (.ofInt (if out / 256 < h.s1 / 256 then 1 else 0))

/-- XADD of two containers (R216). -/
def xaddElem (a b : Nat) : Nat := (a % 2 ^ 96 + b % 2 ^ 96) % 2 ^ 96 + 2 ^ 96 * ((a / 2 ^ 96 % 8) ||| (b / 2 ^ 96 % 8))

/-- A container as an accumulator (R170). -/
def accOf (a : Nat) : Acc := { v := a % 2 ^ 96, sn := bit a 96, spos := bit a 97, sm := bit a 98 }

/-- What is fixed for an instruction while it computes: word, shape, key table, STEP_COUNT. -/
structure VEnv where
  w : IWord
  h : Shape
  keys : List (Nat × Nat × Nat × Nat)
  step : Nat
  deriving DecidableEq, Repr

/-- The result of an elementwise opcode at (r, n); prm: the parameter record of the row (R217). CVT between equal formats copies (R192). [DEDUCED log entry 63] -/
def vxElem (v : VEnv) (r n : Nat) (prm : Bytes) (i : Item) : CvtRes :=
  let h := v.h
  let op := wOp v.w
  let st := vxStrict v.w
  let sat := vxSat v.w
  let bf := if vxBm v.w = 3 then 8 else h.fb
  if op = 0x14 then (if i.on then convert h.fa h.fd st sat i.a else convert bf h.fd st sat i.b)
  else if op = 0x09 ∧ h.fa = h.fd then .plain i.a
  else if isTrans op then transElem op h.fa h.fd st sat i.a
  else if op = 0x40 then .plain (xaddElem i.a i.b)
  else if op = 0x41 then
    let x := drainConv h.fd st sat prm (drainX 1 (accOf i.a))
    { x.2.2.2.2 with code := x.1 }
  else if op = 0x48 then
    let sid := h.s1 % 256
    threshElem (vxBm v.w) h.fd st sat h (threshWord (v.keys.getD sid (0, 0, 0, 0)) ((h.s2 + r * h.n + n) % 4294967296) v.step sid)
  else if isCmp op then roundVal h.fd true false (.ofInt (if vxCmp op (decodeVal h.fa i.a) (decodeVal bf i.b) then 1 else 0))
  else roundVal h.fd st sat (vxArith op (decodeVal h.fa i.a) (decodeVal bf i.b) (decodeVal h.fd i.d) h)

/-! ### Reductions and soft maximum -/

/-- A partial result of a reduction: value, container, index. -/
structure RedV where
  v : Val
  x : Nat
  idx : Nat
  deriving DecidableEq, Repr

/-- One combination of a reduction (R210, R213, R214). -/
def redOp (op fa : Nat) (strict : Bool) (p q : RedV) : RedV :=
  match op with
  | 0x30 =>
    if fa = 11 then { p with x := xaddElem p.x q.x }
    else
      let s := match firstNan [p.v, q.v] with | some n => n | none => p.v.add q.v
      { p with v := if (fltParams fa).isSome then decodeVal 8 (roundVal 8 strict false s).code else s }
  | 0x31 => { p with v := p.v.max q.v }
  | 0x32 => { p with v := p.v.min q.v }
  | _ =>
    if p.v.isNan then p else if q.v.isNan then q
    else if p.v.eqv q.v then
      (if p.v.isZero && p.v.neg? != q.v.neg? then (if p.v.neg? then q else p) else if p.idx ≤ q.idx then p else q)
    else if q.v.le p.v then p else q

/-- Combination with absent operands (R213). -/
def redOpt (f : RedV → RedV → RedV) : Option RedV → Option RedV → Option RedV
  | none, y => y
  | x, none => x
  | some x, some y => some (f x y)

/-- The lane tree of R213: n levels. -/
def laneTree (f : Option RedV → Option RedV → Option RedV) : Nat → List (Option RedV) → Option RedV
  | 0, l => l.head?.getD none
  | n + 1, l => laneTree f n ((List.range (l.length / 2)).map fun i => f (l.getD (2 * i) none) (l.getD (2 * i + 1) none))

/-- The elements that take part, as partial results. -/
def redItem (fa : Nat) (idx : Nat) (i : Item) : Option RedV := if i.on then some ⟨decodeVal fa i.a, i.a, idx⟩ else none

/-- A row reduced along its groups lane by lane, then by the tree (R212). -/
def redRow (f : Option RedV → Option RedV → Option RedV) (groups : List (List (Option RedV))) : Option RedV :=
  laneTree f 7 ((List.range 128).map fun l => groups.foldl (fun a g => f a (g.getD l none)) none)

/-- The code of a value that is a binary32 value already (R192): a NaN keeps its payload. -/
def code32 (v : Val) : Nat :=
  match v with
  | .nan n f => b2n n * 2 ^ 31 + 0x7F800000 + if f = 0 then 0x400000 else f
  | v => (roundVal 8 true false v).code

/-- The value written for a reduction, with an empty one (R214, R215). An RSUM in binary32 converts from FP32: into FP32 it copies (R192). [DEDUCED log entry 68] -/
def redOut (op fd : Nat) (strict sat : Bool) (fa : Nat) (r : Option RedV) : CvtRes × Bool :=
  match r with
  | some x =>
    (match op with
      | 0x33 => .plain x.idx
      | 0x30 => if fa = 11 then .plain (x.x % 2 ^ 99) else if fd = 8 ∧ (fltParams fa).isSome then .plain (code32 x.v) else roundVal fd strict sat x.v
      | _ => roundVal fd strict sat x.v, false)
  | none =>
    (match op with
      | 0x33 => .plain (ofSigned 32 (-1))
      | 0x30 => if fa = 11 then .plain 0 else roundVal fd strict sat (.zero false)
      | 0x31 => roundVal fd strict sat (.inf true)
      | _ => roundVal fd strict sat (.inf false), true)

/-- A row of SOFTMAX (R226 to R228): the z_i; their case and statistics: m, and r or s. -/
structure SmRow where
  case : Nat
  m : Val
  s : Val
  k : Nat
  deriving DecidableEq, Repr

/-- z_i of an element (R226). -/
def smZ (h : Shape) (i : Item) : Val := mul32 (decodeVal 8 (convert h.fa 8 true false i.a).code) (f32 h.s1)

/-- e_i (R227, R228): EXP2 with its final rounding in the instruction's mode. -/
def smE (strict : Bool) (z m : Val) : Val :=
  match z with | .inf true => .zero false | _ => decodeVal 8 (roundVal 8 strict false (exp2Val strict (sub32 z m))).code

/-- Passes 1 and 2 over a row's groups, as each pass reads them (R207, R226 to R228). -/
def smStats (h : Shape) (strict : Bool) (groups groups2 : List (List Item)) : SmRow :=
  let zsOf := fun (gs : List (List Item)) => gs.map fun g => g.map fun i => if i.on then some (RedV.mk (smZ h i) 0 0) else none
  let zs := zsOf groups
  let flat := (zs.flatMap id).filterMap fun x => x.map RedV.v
  let mx := (redRow (redOpt (redOp 0x31 8 true)) zs).map RedV.v
  let nInf := (flat.filter fun z => z == .inf false).length
  if flat.isEmpty then ⟨1, .zero false, .zero false, 0⟩
  else match flat.find? Val.isNan with
  | some n => ⟨2, n, .zero false, 0⟩
  | none =>
    if nInf ≠ 0 then ⟨3, .zero false, .zero false, nInf⟩
    else if flat.all fun z => z == .inf true then ⟨4, .zero false, .zero false, flat.length⟩
    else
      let m := mx.getD (.zero false)
      let es := (zsOf groups2).map fun g => g.map fun x => x.map fun z => RedV.mk (smE strict z.v m) 0 0
      let s := ((redRow (redOpt (redOp 0x30 8 strict)) es).map RedV.v).getD (.zero false)
      ⟨5, m, if strict then s else r32 (rcpVal s), 0⟩

/-- Quotient of two finite values, as a value whose rounding is exact. -/
def divVal (a b : Val) : Val :=
  match a, b with
  | .fin n m e _, .fin n' m' e' _ => if m = 0 then .zero (n != n') else quot (n != n') m m' (e - e')
  | _, _ => .canon

/-- Pass 3 for one element (R226 to R228). -/
def smElem (v : VEnv) (t : SmRow) (i : Item) : CvtRes :=
  let h := v.h
  let st := vxStrict v.w
  let sat := vxSat v.w
  let out (x : Val) := roundVal h.fd st sat x
  if !i.on then out (.zero false)
  else match t.case with
  | 1 => out (.zero false)
  | 2 => out (if st then t.m else .canon)
  | 3 => if st then out .canon else if smZ h i == .inf false then out (quot false 1 t.k 0) else out (.zero false)
  | 4 => if st then out .canon else out (quot false 1 t.k 0)
  | _ =>
    let e := smE st (smZ h i) t.m
    out (if st then divVal e t.s else e.mul t.s)

/-! ### Writes -/

/-- Counter increments of a list of results (R235). [DEDUCED log entry 68] -/
def vxCounts (l : List CvtRes) (empty : Nat) : List (Nat × Nat) :=
  [(0x1C0, (l.filter CvtRes.madeFin).length), (0x1C4, (l.filter CvtRes.nanLost).length), (0x1C8, (l.filter CvtRes.flush).length),
   (0x1CC, empty), (0x1D0, l.length)]

/-- The poison of each unit of a run of elements that starts on a unit (R233). -/
def unitPoison (f : Nat) (ps : List Bool) : List Bool :=
  let per := 512 / fmtBits f
  (List.range ((ps.length + per - 1) / per)).map fun u => (List.range per).any fun j => ps.getD (u * per + j) false

/-- The write of one group of an elementwise result. [DEDUCED log entry 65] -/
def groupWrite (v : VEnv) (cyc k : Nat) (res : List CvtRes) (ps : List Bool) (empty : Nat) : PWrite :=
  let h := v.h
  let r := k / h.wid
  ⟨cyc, vxD v.w * 512 + r * pitch h.dst h.fd h.n + fmtBytes h.fd (128 * (k % h.wid)), packElems h.fd (res.map CvtRes.code),
    unitPoison h.fd ps, vxCounts res empty, none⟩

/-- The write of result r of a reduction along rows, packed (R212, R233): the result that completes a unit writes the unit whole, and the
poison of a unit goes with the last result in it. res: the results so far, oldest first. [DEDUCED log entry 65] -/
def packedWrite (m : CoreSp) (v : VEnv) (cyc r : Nat) (res : List (CvtRes × Bool × Bool)) : PWrite :=
  let f := v.h.fd
  let w := fmtBits f
  let base := vxD v.w * 512
  let per := 512 / w
  let u0 := r / per * per
  let full := (r + 1) % per == 0
  let lastOf := full || r + 1 == v.h.rows
  let p := lastOf && ((res.drop u0).any fun x => x.2.1)
  let codes := res.map fun x => x.1.code
  let cur := res.getD r (.plain 0, false, false)
  let cnt := vxCounts [cur.1] (b2n cur.2.2)
  if full then ⟨cyc, base + u0 * w / 8, packElems f (codes.drop u0), [p], cnt, none⟩
  else if w = 4 then
    let a := base + r / 2
    let old := (memGet m.mem a).toNat
    let byte := if r % 2 = 0 then old / 16 * 16 + codes.getD r 0 else codes.getD (r - 1) 0 + 16 * codes.getD r 0
    ⟨cyc, a, [BitVec.ofNat 8 byte], [p], cnt, none⟩
  else ⟨cyc, base + r * w / 8, natLe (w / 8) (codes.getD r 0), [p], cnt, none⟩

/-- State of the computation: the scratchpad with the writes made so far, the writes not yet made, all writes of the instruction, the groups read (by the
passes of a SOFTMAX), the packed results, the parameter record of the row. -/
structure VSim where
  m : CoreSp
  pend : List PWrite
  out : List PWrite := []
  hist : List (List Item) := []
  hist2 : List (List Item) := []
  res : List (CvtRes × Bool × Bool) := []
  prm : Bytes := []
  deriving DecidableEq, Repr

/-- A write in its place by cycle, after those of its own cycle. -/
def insCycle (w : PWrite) : List PWrite → List PWrite
  | [] => [w]
  | x :: t => if x.cycle ≤ w.cycle then x :: insCycle w t else w :: x :: t

/-- The writes made before a cycle reach the copy of the scratchpad (R239). -/
def VSim.flush (z : VSim) (t : Nat) : VSim :=
  { z with
    m := (z.pend.filter fun w => decide (w.cycle < t)).foldl (fun m w => m.store w.addr w.data w.poison) z.m
    pend := z.pend.filter fun w => !decide (w.cycle < t) }

def VSim.push (z : VSim) (w : PWrite) : VSim := { z with pend := insCycle w z.pend, out := z.out ++ [w] }

/-- The results of an elementwise opcode, group by group (R206); the record of a row is read with its first group (R217). -/
def simElem (v : VEnv) (t0 : Nat) (z : VSim) (k : Nat) : VSim :=
  let cl := vxCL (wOp v.w) (vxStrict v.w) (vxBm v.w)
  let t := t0 + 4 + cl.1 * k
  let z := z.flush t
  let items := vxGroup v.w v.h z.m k
  let r := k / v.h.wid
  let ra := vxB v.w * 512 + 16 * r
  let z := if wOp v.w = 0x41 ∧ k % v.h.wid = 0 then { z with prm := memRead z.m.mem ra 16, hist := [[⟨0, 0, 0, true, z.m.poison.contains (ra / 64)⟩]] } else z
  let res := (List.range 128).map fun l => vxElem v r (128 * (k % v.h.wid) + l) z.prm (items.getD l ⟨0, 0, 0, true, false⟩)
  let rp := wOp v.w == 0x41 && (z.hist.flatMap id).any Item.p
  let ps := items.map fun i => wOp v.w != 0x48 && (i.p || rp)
  z.push (groupWrite v (t + cl.1 - 1 + cl.2) k res ps 0)

/-- A reduction, group by group (R206, R212). -/
def simRed (v : VEnv) (t0 : Nat) (z : VSim) (k : Nat) : VSim :=
  let h := v.h
  let op := wOp v.w
  let L := (vxCL op (vxStrict v.w) (vxBm v.w)).2
  let t := t0 + 4 + k
  let z := z.flush t
  let items := vxGroup v.w h z.m k
  let z := { z with hist := z.hist ++ [items] }
  let f := redOpt (redOp op h.fa (vxStrict v.w))
  if vxBm v.w % 2 = 1 then
    if (k + 1) % h.wid = 0 then
      let row := z.hist.drop (k + 1 - h.wid)
      let gs := (List.range h.wid).map fun g => (List.range 128).map fun l =>
        redItem h.fa (128 * g + l) ((row.getD g []).getD l ⟨0, 0, 0, false, false⟩)
      let o := redOut op h.fd (vxStrict v.w) (vxSat v.w) h.fa (redRow f gs)
      let p := row.any fun g => g.any Item.p
      let z := { z with res := z.res ++ [(o.1, p, o.2)] }
      z.push (packedWrite z.m v (t + L) (k / h.wid) z.res)
    else z
  else if k + 1 = h.groups then
    let outs := (List.range h.n).map fun n =>
      let col := (List.range h.rows).map fun r => (z.hist.getD (r * h.wid + n / 128) []).getD (n % 128) ⟨0, 0, 0, false, false⟩
      let red := ((List.range h.rows).foldl (fun a r => f a (redItem h.fa r (col.getD r ⟨0, 0, 0, false, false⟩))) none)
      (redOut op h.fd (vxStrict v.w) (vxSat v.w) h.fa red, col.any Item.p)
    z.push ⟨t0 + 4 + h.groups - 1 + L, vxD v.w * 512, packElems h.fd (outs.map fun x => x.1.1.code), unitPoison h.fd (outs.map fun x => x.2),
      vxCounts (outs.map fun x => x.1.1) (outs.filter fun x => x.1.2).length, none⟩
  else z

/-- Passes 1 and 2 of SOFTMAX read group k (R207). -/
def simMax (v : VEnv) (t0 : Nat) (z : VSim) (k : Nat) : VSim :=
  let z := z.flush (t0 + 4 + k)
  { z with hist := z.hist ++ [vxGroup v.w v.h z.m k] }
def simSum (v : VEnv) (t0 : Nat) (z : VSim) (k : Nat) : VSim :=
  let z := z.flush (t0 + 4 + v.h.groups + 32 + (vxCL 0x38 (vxStrict v.w) 0).1 * k)
  { z with hist2 := z.hist2 ++ [vxGroup v.w v.h z.m k] }

/-- Pass 3 of SOFTMAX (R207, R233). -/
def simSoft (v : VEnv) (t0 : Nat) (z : VSim) (k : Nat) : VSim :=
  let h := v.h
  let ce := (vxCL 0x38 (vxStrict v.w) 0).1
  let L := (vxCL 0x38 (vxStrict v.w) 0).2
  let t := t0 + 4 + (1 + ce) * h.groups + 64 + ce * k
  let z := z.flush t
  let r := k / h.wid
  let row := (z.hist.drop (r * h.wid)).take h.wid
  let row2 := (z.hist2.drop (r * h.wid)).take h.wid
  let st := smStats h (vxStrict v.w) row row2
  let items := vxGroup v.w h z.m k
  let p := (row ++ row2).any (fun g => g.any Item.p) || items.any Item.p
  z.push (groupWrite v (t + ce - 1 + L) k (items.map (smElem v st)) (items.map fun _ => p) (if st.case = 1 ∧ k % h.wid = 0 then 1 else 0))

/-- Every write of a vector instruction that issues at a cycle over a scratchpad, in order, where the network makes the writes ext meanwhile. -/
def vxCompute (v : VEnv) (t0 : Nat) (m : CoreSp) (ext : List PWrite) : List PWrite :=
  let z0 : VSim := { m := m, pend := ext }
  let ks := List.range v.h.groups
  let op := wOp v.w
  (if op = 0x38 then ks.foldl (simSoft v t0) (ks.foldl (simSum v t0) (ks.foldl (simMax v t0) z0))
   else ks.foldl (if isRed op then simRed v t0 else simElem v t0) z0).out

/-! ### Issue -/

def vxShape (x : Ctx) : Shape := readShape (memRead x.m.mem (vxSh x.word * 64) 32)

def vxReq (x : Ctx) : Req :=
  let w := x.word
  let h := vxShape x
  let sh := vxSh w * 64
  let op := wOp w
  let o := vxOcc w h
  let L := (vxCL op (vxStrict w) (vxBm w)).2
  let rd := (sh, 32) :: vxReads w h
  let d := vxWrites w h
  { illegal := vxIllegal w
    badRead := x.m.badIn sh 32
    chk := if x.m.poison.contains (sh / 64) then some 0x0C else if vxShapeBad w h then some 0x13 else none
    src := x.m.srcIn (sh / 64, sh / 64)
    reads := (rd.map fun r => unitsOf r.1 r.2) ++ (if op = 0x04 then [unitsOf d.1 d.2] else [])
    writes := [unitsOf d.1 d.2]
    takes := (rd.map fun r => readTake r.1 r.2 (some (x.now + o + 4))) ++ [writeTake d.1 d.2 (some (x.now + o + L + 4))]
    occ := o }

/-- The scratchpad reads of group k: byte, length (R200 to R203, R217). -/
def vxReadsAt (w : IWord) (h : Shape) (k : Nat) : List (Nat × Nat) :=
  let op := wOp w
  let bm := vxBm w
  let r := k / h.wid
  let g := k % h.wid
  let part := fun (base st f : Nat) => (base + r * pitch st f h.n + g * fmtBytes f 128, fmtBytes f 128)
  (if op = 0x48 then [] else [part (vxA w * 512) h.ast h.fa]) ++
  (if op = 0x41 then (if g = 0 then [(vxB w * 512 + 16 * r, 16)] else [])
   else if readsB op then
     (match bm with
      | 0 => [part (vxB w * 512) h.bst h.fb]
      | 1 => [(vxB w * 512 + g * fmtBytes h.fb 128, fmtBytes h.fb 128)]
      | 2 => [(vxB w * 512 + r * fmtBits h.fb / 8, max 1 (fmtBits h.fb / 8))]
      | _ => [])
   else []) ++
  (if op = 0x04 then [part (vxD w * 512) h.dst h.fd] else []) ++
  (if h.masked then [part (h.maddr * 512) h.mst 5] else [])

/-- Every scratchpad read after the issue with its cycle (R206, R207, R217): byte, length, cycle. -/
def vxReadPlan (w : IWord) (h : Shape) (v : Nat) : List (Nat × Nat × Nat) :=
  let c := (vxCL (wOp w) (vxStrict w) (vxBm w)).1
  let G := h.groups
  let pass := fun (t step : Nat) => (List.range G).flatMap fun k => (vxReadsAt w h k).map fun r => (r.1, r.2, t + step * k)
  if wOp w = 0x38 then pass (v + 4) 1 ++ pass (v + 4 + G + 32) c ++ pass (v + 4 + (1 + c) * G + 64) c else pass (v + 4) c

/-- The first poisoned unit that an instruction may read gives the source of its poison (R246). -/
def vxSrc (w : IWord) (h : Shape) (m : CoreSp) : Option (Nat × Nat) :=
  (vxReads w h ++ if wOp w = 0x04 then [vxWrites w h] else []).findSome? fun r => m.srcIn (unitsOf r.1 r.2)

/-- The issue of a vector instruction (R206, R207): its results come from what its groups read at their cycles; the network's writes meanwhile are taken in
as they come (State.netWrite). nums: write range, rows, groups of a row, and for XCVT the records read. [DEDUCED log entry 16] -/
def vxEff (x : Ctx) (s : State) : State :=
  let w := x.word
  let h := vxShape x
  let L := (vxCL (wOp w) (vxStrict w) (vxBm w)).2
  let sig := x.now + vxOcc w h + L + 4
  let src := vxSrc w h x.m
  let ws := (vxCompute ⟨w, h, x.k.keys, x.q.ctl.stepCount⟩ x.now x.m []).map fun z => { z with src := src }
  let d := vxWrites w h
  s.addFlight x.c { x.flight (some sig) (some sig) with
    writes := ws, total := ws.length, nums := [d.1, d.2, h.rows, h.wid, 0], recd := memRead x.m.mem (vxSh w * 64) 32, src := src, sp0 := some x.m
    errs := if wOp w = 0x41 then (x.m.readErrs (vxReadPlan w h x.now)).filter (fun e => !decide (vxB w * 64 ≤ e.2 ∧ e.2 < vxB w * 64 + 2 * h.rows))
      else x.m.readErrs (vxReadPlan w h x.now) }

/-- A vector instruction in flight after the network has written a unit in a cycle (R206): what its later reads give changes. [DEDUCED log entry 16] -/
def Flight.vxPatch (f : Flight) (keys : List (Nat × Nat × Nat × Nat)) (step now a : Nat) (d : Bytes) (p : Bool) (src : Option (Nat × Nat)) : Flight :=
  match f.sp0 with
  | none => f
  | some m =>
    let ext := f.ext ++ [⟨now, a, d, [p], [], src⟩]
    let sc := if f.src.isSome then f.src else if p then src else none
    { f with
      ext := ext, src := sc
      writes := ((vxCompute ⟨f.word, readShape f.recd, keys, step⟩ f.issue m ext).map fun z => { z with src := sc }).drop f.done
      errs := f.errs.filter fun e => !(decide (a / 8 ≤ e.2 ∧ e.2 < (a + d.length) / 8 ∧ now < e.1)) }

/-- The network writes a unit of a core's scratchpad (R274, R297): what instructions in flight are still to read there is what they read. -/
def State.netWrite (s : State) (c a : Nat) (d : Bytes) (p : Bool) (src : Option (Nat × Nat)) : State :=
  match s.owner c with
  | none => s
  | some (i, _) =>
    let q := s.part i
    let now := q.run.stepCyc
    s.modCore c fun k => { k with
      sp := k.sp.write s.cc a d [p] src
      flights := k.flights.map fun f => (f.patch now a d p src).vxPatch k.keys q.ctl.stepCount now a d p src }

def execAdd (c : Nat) (s : State) : Host.Outcome State Fault Refusal := .next (s.issueRow c 1 0x01 vxReq vxEff)
def execSub (c : Nat) (s : State) : Host.Outcome State Fault Refusal := .next (s.issueRow c 1 0x02 vxReq vxEff)
def execMul (c : Nat) (s : State) : Host.Outcome State Fault Refusal := .next (s.issueRow c 1 0x03 vxReq vxEff)
def execMad (c : Nat) (s : State) : Host.Outcome State Fault Refusal := .next (s.issueRow c 1 0x04 vxReq vxEff)
def execMin (c : Nat) (s : State) : Host.Outcome State Fault Refusal := .next (s.issueRow c 1 0x05 vxReq vxEff)
def execMax (c : Nat) (s : State) : Host.Outcome State Fault Refusal := .next (s.issueRow c 1 0x06 vxReq vxEff)
def execAbs (c : Nat) (s : State) : Host.Outcome State Fault Refusal := .next (s.issueRow c 1 0x07 vxReq vxEff)
def execNeg (c : Nat) (s : State) : Host.Outcome State Fault Refusal := .next (s.issueRow c 1 0x08 vxReq vxEff)
def execCvt (c : Nat) (s : State) : Host.Outcome State Fault Refusal := .next (s.issueRow c 1 0x09 vxReq vxEff)
def execClamp (c : Nat) (s : State) : Host.Outcome State Fault Refusal := .next (s.issueRow c 1 0x0A vxReq vxEff)
def execCmpeq (c : Nat) (s : State) : Host.Outcome State Fault Refusal := .next (s.issueRow c 1 0x10 vxReq vxEff)
def execCmpne (c : Nat) (s : State) : Host.Outcome State Fault Refusal := .next (s.issueRow c 1 0x11 vxReq vxEff)
def execCmplt (c : Nat) (s : State) : Host.Outcome State Fault Refusal := .next (s.issueRow c 1 0x12 vxReq vxEff)
def execCmple (c : Nat) (s : State) : Host.Outcome State Fault Refusal := .next (s.issueRow c 1 0x13 vxReq vxEff)
def execSel (c : Nat) (s : State) : Host.Outcome State Fault Refusal := .next (s.issueRow c 1 0x14 vxReq vxEff)
def execExp2 (c : Nat) (s : State) : Host.Outcome State Fault Refusal := .next (s.issueRow c 1 0x20 vxReq vxEff)
def execLog2 (c : Nat) (s : State) : Host.Outcome State Fault Refusal := .next (s.issueRow c 1 0x21 vxReq vxEff)
def execRcp (c : Nat) (s : State) : Host.Outcome State Fault Refusal := .next (s.issueRow c 1 0x22 vxReq vxEff)
def execRsqrt (c : Nat) (s : State) : Host.Outcome State Fault Refusal := .next (s.issueRow c 1 0x23 vxReq vxEff)
def execTanh (c : Nat) (s : State) : Host.Outcome State Fault Refusal := .next (s.issueRow c 1 0x24 vxReq vxEff)
def execRsum (c : Nat) (s : State) : Host.Outcome State Fault Refusal := .next (s.issueRow c 1 0x30 vxReq vxEff)
def execRmax (c : Nat) (s : State) : Host.Outcome State Fault Refusal := .next (s.issueRow c 1 0x31 vxReq vxEff)
def execRmin (c : Nat) (s : State) : Host.Outcome State Fault Refusal := .next (s.issueRow c 1 0x32 vxReq vxEff)
def execRargmax (c : Nat) (s : State) : Host.Outcome State Fault Refusal := .next (s.issueRow c 1 0x33 vxReq vxEff)
def execSoftmax (c : Nat) (s : State) : Host.Outcome State Fault Refusal := .next (s.issueRow c 1 0x38 vxReq vxEff)
def execXadd (c : Nat) (s : State) : Host.Outcome State Fault Refusal := .next (s.issueRow c 1 0x40 vxReq vxEff)
def execXcvt (c : Nat) (s : State) : Host.Outcome State Fault Refusal := .next (s.issueRow c 1 0x41 vxReq vxEff)
def execThresh (c : Nat) (s : State) : Host.Outcome State Fault Refusal := .next (s.issueRow c 1 0x48 vxReq vxEff)

/-! ### Events -/

/-- XCVT_RECORD_READ (R217): the record of row r is read at v + 4 + 2 r W; one that breaks R166 raises DRAIN_PARAM, 0x10. -/
def execXcvtRecordRead (c : Nat) (s : State) : Host.Outcome State Fault Refusal :=
  .next (match s.liveCycle c with
  | none => s
  | some (p, _, now) =>
    let k := s.core c
    match (k.flights.find? fun f => f.eng == 1 && f.op == 0x41 && decide (f.nums.getD 4 0 < f.nums.getD 2 0)) with
    | none => s
    | some f =>
      let r := f.nums.getD 4 0
      if f.issue + 4 + 2 * r * f.nums.getD 3 0 ≤ now then
        let h := readShape f.recd
        let m := k.sp.seen s.cc
        let a := vxB f.word * 512 + 16 * r
        let s1 := s.setCore c (k.modFlight 1 f.issueNo fun g => { g with nums := g.nums.set 4 (r + 1) })
        match m.badIn a 16 with
        | some w => s1.spErrorAt c 1 (wTag f.word) (placeAfter (s.part p) f.issueNo) w
        | none => if paramBad h.fd (memRead m.mem a 16) then s1.coreFault c 1 (wTag f.word) 0x10 (placeAfter (s.part p) f.issueNo) else s1
      else s)

/-- VX_GROUP_WRITE (R206, R207): the next results of the oldest vector instruction with results to write, at their cycle. -/
def execVxGroupWrite (c : Nat) (s : State) : Host.Outcome State Fault Refusal :=
  .next (match s.liveCycle c with
  | none => s
  | some (_, _, now) =>
    let k := s.core c
    match (k.flights.find? fun f => f.eng == 1 && !f.writes.isEmpty) with
    | none => s
    | some f =>
      match f.writes with
      | [] => s
      | w :: t =>
        if w.cycle ≤ now ∧ (f.op = 0x41 → f.done / max 1 (f.nums.getD 3 0) < f.nums.getD 4 0) then
          s.setCore c ((k.land s.cc w).modFlight 1 f.issueNo fun g => { g with writes := t, done := g.done + 1 })
        else s)

end Sys2Proof.Machine
end

