-- ==== Sys2Proof/Machine/Channel.lean ====
section
/-! DEFINITION. The channel engine and the data network (09): SEND, TAKE, RREAD, RWRITE, ring control, and what flits do. Endpoints are
logical cores, or 1,008 + c for Culm core c (R286). Ring counts are kept without wrapping: every ring size divides 2^32 (R287). -/

namespace Sys2Proof.Machine

/-! ### Endpoints, ports and flits -/

/-- The channel state of an endpoint of a partition. -/
def State.ch (s : State) (p ep : Nat) : CoreCh :=
  let q := s.part p
  if ep < 1008 then (s.core (q.res.place.getD ep 0)).ch else q.culm.getD (ep - 1008) {}

def State.modEp (s : State) (p ep : Nat) (f : CoreCh → CoreCh) : State :=
  if ep < 1008 then s.modCh ((s.part p).res.place.getD ep 0) f
  else s.modPart p fun q => { q with culm := q.culm.put (ep - 1008) (f (q.culm.getD (ep - 1008) {})) }

/-- The endpoint exists in the partition (R295). -/
def Part.isEp (q : Part) (ep : Nat) : Bool := decide (ep < q.res.place.length) || (decide (1008 ≤ ep) && decide (ep < 1008 + q.res.culm))

/-- A flit goes into the network at a cycle, at an injection port of its interface (R274). resp: the response port. -/
def State.inject (s : State) (p : Nat) (resp : Bool) (f : Flit) : State :=
  let q := s.part p
  let side := if f.src < 1008 then q.res.place.getD f.src 0 % 2 else 0
  s.modRun p fun r => { r with net := r.net ++ [{ f with hops := q.hops f.src f.dst, loc := some (q.nodeOf f.src, 5 + 2 * side + b2n resp, 0, f.at_) }] }

def mkFlit (kind src dst num at_ : Nat) (nums : List Nat) (data : Bytes) (poison : Bool) : Flit :=
  { kind := kind, src := src, dst := dst, num := num, nums := nums, data := data, poison := poison, at_ := at_, hops := 0, loc := none, fails := 0,
    retried := false, arrived := none }

/-- The kinds that leave through the response port (R274). -/
def isResponse (kind : Nat) : Bool := kind == 1 || kind == 3 || kind == 5

/-- The first cycle from t, of n, that no flit of an interface takes on a port (R274). -/
def freeCycle (used : Nat → Bool) : Nat → Nat → Nat
  | 0, t => t
  | n + 1, t => if used t then freeCycle used n (t + 1) else t

/-- A reply goes out of the response port, one flit in a cycle, in the first free cycle (R274). -/
def State.respond (s : State) (p : Nat) (f : Flit) : State :=
  let mine := (s.part p).run.net.filter fun g => g.src == f.src && isResponse g.kind
  s.inject p true { f with at_ := freeCycle (fun t => mine.any fun g => g.at_ == t) mine.length f.at_ }

/-- Update of the instruction in flight on the channel engine of an endpoint: nothing for a Culm core. -/
def State.modSend (s : State) (p ep num : Nat) (g : Flight → Flight) : State :=
  if ep < 1008 then s.modCore ((s.part p).res.place.getD ep 0) fun k => k.modFlight 5 num g else s

/-- The scoreboard entries of a channel instruction are held to a cycle (R299). -/
def State.holdTo (s : State) (p ep num rel : Nat) : State :=
  if ep < 1008 then s.modSp ((s.part p).res.place.getD ep 0) fun m =>
    { m with sb := m.sb.map fun x => if x.eng = 5 ∧ x.issueNo = num then { x with release := some rel } else x }
  else s

/-- The injection of one outgoing transfer from a cycle (R298). -/
def State.startOut (s : State) (p ep : Nat) (o : Xout) (start : Nat) : State :=
  let n := o.flits.length
  let s1 := (List.range n).foldl (fun t k =>
    let x := o.flits.getD k ([], none, [])
    t.inject p false { mkFlit (if o.kind = 0 then 2 else 6) ep o.dst o.num (start + k) x.2.2 x.1 false with pull := x.2.1 }) s
  let s2 := s1.modEp p ep fun h => { h with
    portFree := start + n
    outs := h.outs.map fun y => if y.num = o.num then { o with state := 2, fin := start + n, flits := [] } else y }
  (s2.modSend p ep o.num fun f => { f with sig := some (start + n) }).holdTo p ep o.num (start + n - 1)

/-- Data goes out of the channel port in the issue order of the instructions (R298): the first transfers that are ready. -/
def State.pumpOuts : List Xout → Nat → Nat → State → State
  | [], _, _, s => s
  | o :: t, p, ep, s =>
    if o.state = 2 then State.pumpOuts t p ep s
    else if o.state = 1 then State.pumpOuts t p ep (s.startOut p ep o (max o.ready (s.ch p ep).portFree))
    else s

def State.pump (s : State) (p ep : Nat) : State := s.pumpOuts (s.ch p ep).outs p ep

/-- A control flit takes the channel port at a cycle (R298): it delays by one cycle the data that is in progress without a break from that cycle. -/
def State.controlFlit (s : State) (p ep now : Nat) (f : Flit) : State :=
  let data := fun (g : Flit) => g.src == ep && (g.kind == 2 || g.kind == 6)
  let mine := (s.part p).run.net.filter data
  let fin := freeCycle (fun t => mine.any fun g => g.at_ == t) mine.length now
  let late := ((s.ch p ep).outs.filter fun o => o.state == 2 && decide (now < o.fin ∧ o.fin ≤ fin)).map Xout.num
  let s1 := if now < fin then
      let s2 := (s.modEp p ep fun h => { h with
        portFree := if h.portFree = fin then fin + 1 else h.portFree
        outs := h.outs.map fun o => if late.contains o.num then { o with fin := o.fin + 1 } else o }).modRun p fun r => { r with
          net := r.net.map fun g => if data g && decide (now ≤ g.at_ ∧ g.at_ < fin) then
            { g with at_ := g.at_ + 1, loc := g.loc.map fun l => (l.1, l.2.1, l.2.2.1, l.2.2.2 + 1) } else g }
      late.foldl (fun t n =>
        let e := match ((t.ch p ep).outs.find? fun o => o.num == n) with | some o => o.fin | none => now
        (t.modSend p ep n fun f => { f with sig := some e }).holdTo p ep n (e - 1)) s2
    else s
  s1.inject p false f

/-! ### Instructions (R294, R295, R298 to R300) -/

def chRing (w : IWord) : Nat := wbits w 97 93
def chChan (w : IWord) : Nat := wbits w 101 98
def chA (w : IWord) : Nat := wbits w 82 64
def chDest (w : IWord) : Nat := wbits w 92 83
def chLen (w : IWord) : Nat := 16 * wbits w 114 102
def chLead (w : IWord) : Nat := wbits w 127 122
def tkRing (w : IWord) : Nat := wbits w 87 83
def tkMatch (w : IWord) : Nat := wbits w 97 88
def tkMax (w : IWord) : Nat := 16 * wbits w 110 98
def rrRemote (w : IWord) : Nat := wbits w 111 93
def rrU (w : IWord) : Nat := wbits w 121 112 + 1

/-- The due cycle of a transfer (R281). -/
def dueCycle (q : Part) (now lead : Nat) : Option Nat := if q.slotted && decide (2 ≤ lead) then some (now + 64 * lead) else none

/-- Bytes of a message record (R286). -/
def recSize (len : Nat) : Nat := 64 * ceilDiv (16 + len) 64

def sendReq (x : Ctx) : Req :=
  let w := x.word
  let n := chLen w
  { illegal := wMod w != 0 || decide (65536 < n) || wbits w 121 115 != 0 || !inSp (chA w * 64) n || decide (Config.spUnits ≤ chA w)
    notReady := if 2 ≤ (x.k.ch.outs.filter fun o => o.kind == 0 && o.state == 0).length then some 0x18 else none
    chk := if x.q.isEp (chDest w) then none else some 0x19
    reads := if n = 0 then [] else [unitsOf (chA w * 64) n]
    takes := if n = 0 then [] else [readTake (chA w * 64) n none]
    mark := some (chRing w, chDest w) }

/-- The reservation of a SEND (R289): it carries the record size, the channel's epoch and number, and the due cycle. -/
def State.reserve (s : State) (p ep num now dest ring chan len lead : Nat) : State :=
  let q := s.part p
  let c := (s.ch p ep).chans.getD chan {}
  let s1 := s.modEp p ep fun h => { h with
    chans := h.chans.put chan { c with seq := c.seq + 1 }
    outs := (h.outs.filter fun o => o.state != 2 || decide (now < o.fin)) ++ [⟨0, num, chan, dest, now, 0, 0, [], 0⟩] }
  s1.controlFlit p ep now (mkFlit 0 ep dest num now
    [ring, recSize len, c.epoch, (match dueCycle q now lead with | some d => d + 1 | none => 0), len, c.seq, chan] [] false)

def sendEff (x : Ctx) (s : State) : State :=
  let w := x.word
  (s.addFlight x.c { x.flight none none with nums := [0, 0, chA w, chLen w] }).reserve x.p x.l x.issueNo x.now (chDest w) (chRing w) (chChan w)
    (chLen w) (chLead w)

/-- SEND (R289). -/
def execSend (c : Nat) (s : State) : Host.Outcome State Fault Refusal := .next (s.issueRow c 5 1 sendReq sendEff)

/-- The message that a TAKE takes (R296): the earliest committed, at the lower ring offset among equals. [DEDUCED log entry 74] -/
def Ring.pick (r : Ring) (m now : Nat) : Option RingRec :=
  let ok := r.recs.filter fun x => x.kind == 1 && x.taken.isNone && (m == 1023 || x.src == m) &&
    (match x.committed with | some t => decide (t < now) | none => false)
  ok.foldl (fun best x => match best with
    | none => some x
    | some b =>
      let tx := x.committed.getD 0
      let tb := b.committed.getD 0
      if tx < tb ∨ (tx = tb ∧ x.at_ % 2 ^ r.log2 < b.at_ % 2 ^ r.log2) then some x else some b) none

def takeOcc (w : IWord) : Nat := 4 + ceilDiv (16 + tkMax w) 2048

/-- TAKE (R295, R296): MATCH names a logical core 0 to 511, one of the twelve Culm cores from 1,008 on, or 1,023. [DEDUCED log entry 74] -/
def takeReq (x : Ctx) : Req :=
  let w := x.word
  let n := 16 + tkMax w
  let m := (x.k.ch.rings.getD (tkRing w) {}).pick (tkMatch w) x.now
  { illegal := wMod w != 0 || wbits w 127 111 != 0 || decide (65536 < tkMax w) || decide (Config.spUnits ≤ chA w) || !inSp (chA w * 64) n ||
      !(decide (tkMatch w < 512) || decide (1008 ≤ tkMatch w ∧ tkMatch w < 1020) || tkMatch w == 1023)
    notReady := if m.isSome then none else some 0x18
    chk := match m with | some r => if tkMax w < r.len then some 0x1A else none | none => none
    writes := [unitsOf (chA w * 64) n]
    takes := [writeTake (chA w * 64) n (some (x.now + takeOcc w + 4))]
    occ := takeOcc w
    mark := some (tkRing w, match m with | some r => r.src | none => tkMatch w) }

/-- The copy of a TAKE: header and body, each unit with the poison of the ring's unit. The record counts as taken at the signal point
(R289, R296). [DEDUCED log entry 71] -/
def takeEff (x : Ctx) (s : State) : State :=
  let w := x.word
  let t := x.now + takeOcc w + 4
  let s1 := s.addFlight x.c { x.flight (some t) (some t) with nums := [chA w * 64, 16 + tkMax w] }
  let ring := x.k.ch.rings.getD (tkRing w) {}
  match ring.pick (tkMatch w) x.now with
  | none => s1
  | some r =>
    let a := ring.base + r.at_ % 2 ^ ring.log2
    let n := 16 + r.len
    let us := unitsOf a n
    let s2 := s1.modCore x.c fun k => { k with
      sp := k.sp.write s.cc (chA w * 64) (memRead x.m.mem a n) ((span us.1 us.2).map fun u => x.m.poison.contains u) (x.m.srcIn us)
      ch := { k.ch with rings := k.ch.rings.put (tkRing w) { ring with
        recs := ring.recs.map fun y => if y.at_ = r.at_ then { y with taken := some t } else y } } }
    match x.m.badIn a n with
    | some b => s2.spError x b
    | none => s2

/-- TAKE (R296). -/
def execTake (c : Nat) (s : State) : Host.Outcome State Fault Refusal := .next (s.issueRow c 5 2 takeReq takeEff)

/-- The checks common to RREAD and RWRITE (R295). -/
def remoteBad (w : IWord) : Bool :=
  wMod w != 0 || decide (Config.spUnits ≤ chA w) || decide (Config.spUnits ≤ rrRemote w) || decide (Config.spUnits < chA w + rrU w) ||
  decide (Config.spUnits < rrRemote w + rrU w)

/-- RREAD and RWRITE (R295): a CORE that is no logical core of the partition raises CH_DEST, one that names a Culm core of it too. [DESIGN CHOICE log entry 134] -/
def remoteReq (write : Bool) (x : Ctx) : Req :=
  let w := x.word
  let u := (chA w, chA w + rrU w - 1)
  { illegal := remoteBad w
    chk := if chDest w < x.q.res.place.length then none else some 0x19
    reads := if write then [u] else []
    writes := if write then [] else [u]
    takes := [(u.1, u.2, b2n (!write), none)] }

/-- RREAD issues (R298): the request goes out; the requester expects U flits. [DEDUCED log entry 19] -/
def rreadEff (x : Ctx) (s : State) : State :=
  let w := x.word
  let s1 := s.addFlight x.c { x.flight none none with total := rrU w, nums := [chA w * 64, rrU w * 64] }
  let s2 := s1.modEp x.p x.l fun h => { h with
    xfers := h.xfers ++ [⟨5, chDest w, x.issueNo, rrU w, rrU w, dueCycle x.q x.now (chLead w), false, false, false, 0, 0⟩] }
  s2.controlFlit x.p x.l x.now (mkFlit 4 x.l (chDest w) x.issueNo x.now [rrRemote w, rrU w, chA w] [] false)

def execRread (c : Nat) (s : State) : Host.Outcome State Fault Refusal := .next (s.issueRow c 5 3 (remoteReq false) rreadEff)

/-- RWRITE issues (R298): unit k is taken from scratchpad as it is injected; the target expects U flits. [DEDUCED log entry 19] -/
def rwriteEff (x : Ctx) (s : State) : State :=
  let w := x.word
  let fl := (List.range (rrU w)).map fun k => (zeros 64, some (0, (chA w + k) * 64, 64), [rrRemote w + k])
  let s1 := (s.addFlight x.c { x.flight none none with nums := [0, 0] }).modEp x.p x.l fun h => { h with
    outs := (h.outs.filter fun o => o.state != 2 || decide (x.now < o.fin)) ++ [⟨1, x.issueNo, 0, chDest w, x.now, 1, x.now, fl, 0⟩] }
  (s1.modEp x.p (chDest w) fun h => { h with
    xfers := h.xfers ++ [⟨6, x.l, x.issueNo, rrU w, rrU w, dueCycle x.q x.now (chLead w), false, false, false, 0, 0⟩] }).pump x.p x.l

def execRwrite (c : Nat) (s : State) : Host.Outcome State Fault Refusal := .next (s.issueRow c 5 4 (remoteReq true) rwriteEff)

/-! ### Ring control (R293) -/

def ctlReq (x : Ctx) : Req := { illegal := wMod x.word != 0 || wbits x.word 127 69 != 0 }

/-- A reply to a reservation (R289): code 0 grant, 1 CLOSED, 2 STALE, 3 TOO_BIG. [DEDUCED log entry 73] -/
def State.reply (s : State) (p ep now : Nat) (r : Resv) (code : Nat) (nums : List Nat) : State :=
  s.respond p (mkFlit 1 ep r.src r.num (now + 1) (code :: r.ring :: nums) [] false)

/-- The waiting reservations of a ring get one reply. [DEDUCED log entry 73] -/
def State.refuseWaiting (s : State) (p ep ring now code : Nat) (nums : List Nat) : State :=
  let h := s.ch p ep
  let s1 := s.modEp p ep fun h => { h with resvs := h.resvs.filter fun r => !(r.ring == ring && r.waiting) }
  (h.resvs.filter fun r => r.ring == ring && r.waiting).foldl (fun t r => t.reply p ep now r code nums) s1

def State.modRing (s : State) (p ep r : Nat) (f : Ring → Ring) : State :=
  s.modEp p ep fun h => { h with rings := h.rings.put r (f (h.rings.getD r {})) }

/-- RING_OPEN (R284, R293): an unused ring stays CLOSED. -/
def State.openRing (s : State) (p ep r : Nat) : State := s.modRing p ep r fun x => { x with isOpen := x.log2 != 0 }

def State.closeRing (s : State) (p ep r now : Nat) : State := (s.modRing p ep r fun x => { x with isOpen := false }).refuseWaiting p ep r now 1 []

/-- RING_RESET (R293): records in the ring, pads apart, count as unread. -/
def State.resetRing (s : State) (p ep r now : Nat) : State :=
  let x := (s.ch p ep).rings.getD r {}
  let e := (x.epoch + 1) % 65536
  let s1 := s.modEp p ep fun h => { h with
    rings := h.rings.put r { x with epoch := e, head := 0, tail := 0, recs := [] }
    unread := satAdd h.unread (x.recs.filter fun y => y.kind == 1 && y.taken.isNone).length }
  s1.refuseWaiting p ep r now 2 [e]

def ringOfW (w : IWord) : Nat := wbits w 68 64

def execRingOpen (c : Nat) (s : State) : Host.Outcome State Fault Refusal :=
  .next (s.issueRow c 5 8 ctlReq fun x t => flyTo x.now x (t.openRing x.p x.l (ringOfW x.word)))

def execRingClose (c : Nat) (s : State) : Host.Outcome State Fault Refusal :=
  .next (s.issueRow c 5 9 ctlReq fun x t => flyTo x.now x (t.closeRing x.p x.l (ringOfW x.word) x.now))

def execRingReset (c : Nat) (s : State) : Host.Outcome State Fault Refusal :=
  .next (s.issueRow c 5 0x0A ctlReq fun x t => flyTo x.now x (t.resetRing x.p x.l (ringOfW x.word) x.now))

/-! ### The ring controller (R287, R289) -/

/-- Records at HEAD that are taken, and pads, are passed (R287). [DEDUCED log entry 71] -/
def passTaken (now : Nat) : List RingRec → Nat → List RingRec × Nat
  | [], h => ([], h)
  | x :: t, h => if x.kind = 2 || (match x.taken with | some c => decide (c < now) | none => false) then passTaken now t (h + x.size) else (x :: t, h)

def Ring.advance (r : Ring) (now : Nat) : Ring := let x := passTaken now r.recs r.head; { r with recs := x.1, head := x.2 }

/-- What a controller answers (R289): a code, or none where the reservation waits or the ring is full; for a grant the pad. -/
def Ring.answer (r : Ring) (v : Resv) : Option (Nat × Nat) :=
  let z := 2 ^ r.log2
  let room := z - r.tail % z
  let space := z - (r.tail - r.head)
  if !r.isOpen || r.log2 = 0 then some (1, 0)
  else if v.epoch != r.epoch then some (2, 0)
  else if z < v.size then some (3, 0)
  else if v.size ≤ room ∧ v.size ≤ space then some (0, 0)
  else if room < v.size ∧ room + v.size ≤ space then some (0, room)
  else none

/-- Order of two reservations (R289): waiting first, the older; those of one cycle by ring, sender, issue. -/
def Resv.before (a b : Resv) : Bool :=
  if a.at_ = b.at_ then (if a.ring = b.ring then (if a.src = b.src then decide (a.num < b.num) else decide (a.src < b.src)) else decide (a.ring < b.ring))
  else decide (a.at_ < b.at_)

/-- The next reservation that the controller handles at a cycle: not one that waits and still finds no room, nor one behind a waiting
reservation of its ring. -/
def CoreCh.nextResv (h : CoreCh) (now : Nat) : Option Resv :=
  let ok := h.resvs.filter fun v => decide (v.at_ < now) &&
    (if v.waiting then (((h.rings.getD v.ring {}).advance now).answer v).isSome && !(h.resvs.any fun u => u.waiting && u.ring == v.ring && u.before v)
     else true)
  ok.foldl (fun best v => match best with
    | none => some v
    | some b => if (v.waiting && !b.waiting) || (v.waiting == b.waiting && v.before b) then some v else some b) none

/-- A step of the partition runs and the endpoint's interface acts: a Culm core's goes on under a hold (R310). -/
def State.epLive (s : State) (p ep : Nat) : Option Nat :=
  let r := (s.part p).run
  if r.stepRun && (!r.held || decide (1008 ≤ ep)) && (s.part p).isEp ep then some r.stepCyc else none

/-- A ring control instruction for a ring is about to issue in a cycle: it acts before a reservation of that cycle (R291). -/
def Core.ctlDue (k : Core) (ring now : Nat) (slotted : Bool) : Bool :=
  match k.head 5 with
  | none => false
  | some h =>
    let t := k.stampCycle 5 (wStamp h.word) (k.minStamp 5) (!slotted)
    (wOp h.word == 8 || wOp h.word == 9 || wOp h.word == 0x0A) && wbits h.word 68 64 == ring && !(k.eng.getD 5 {}).stopped && decide (h.arrived < now) &&
    (if slotted then t == now else decide (t ≤ now)) && (!wWen h.word || k.waitOk 5 (wWflag h.word) now)

/-- RESERVATION_HANDLED (R289): up to four in a cycle. -/
def execReservationHandled (p ep : Nat) (s : State) : Host.Outcome State Fault Refusal :=
  .next (match s.epLive p ep with
  | none => s
  | some now =>
    let q := s.part p
    let h := s.ch p ep
    let done := if h.handledAt = now then h.handled else 0
    match h.nextResv now with
    | none => s
    | some v =>
      if 4 ≤ done || (decide (ep < 1008) && (s.core (q.res.place.getD ep 0)).ctlDue v.ring now q.slotted) then s else
      let ring := (h.rings.getD v.ring {}).advance now
      let same := fun (u : Resv) => u.src == v.src && u.num == v.num && u.ring == v.ring
      let blocked := h.resvs.any fun u => u.waiting && u.ring == v.ring && !same u
      let base := fun (rs : List Resv) => { h with rings := h.rings.put v.ring ring, resvs := rs, handledAt := now, handled := done + 1 }
      let gone := h.resvs.filter fun u => !same u
      match (if !v.waiting && blocked && ring.isOpen && v.epoch == ring.epoch && decide (v.size ≤ 2 ^ ring.log2) then none else ring.answer v) with
      | some (0, pad) =>
        let at_ := ring.tail + pad
        let recs := ring.recs ++ (if pad = 0 then [] else [{ at_ := ring.tail, size := pad, kind := 2, src := v.src, len := pad }]) ++
          [{ at_ := at_, size := v.size, kind := 1, src := v.src, len := v.len }]
        let f := v.size / 64 + (if pad = 0 then 0 else 1)
        let h1 := base gone
        let h2 := { h1 with
          rings := h1.rings.put v.ring { ring with recs := recs, tail := at_ + v.size }
          xfers := h1.xfers ++ [⟨2, v.src, v.num, f, f, v.due, false, false, false, v.ring, at_⟩] }
        (s.modEp p ep fun _ => h2).reply p ep now v 0 [at_, pad, ring.epoch, v.len, v.seq]
      | some (2, _) => (s.modEp p ep fun _ => base gone).reply p ep now v 2 [ring.epoch]
      | some (c, _) => (s.modEp p ep fun _ => base gone).reply p ep now v c []
      | none =>
        let s1 := s.modEp p ep fun _ => base (h.resvs.map fun u => if same u then { u with waiting := true } else u)
        if q.slotted then
          let s2 := s1.modEp p ep fun h => { h with fRing := v.ring, fPeer := v.src }
          if ep < 1008 then s2.coreFault (q.res.place.getD ep 0) 5 0 0x1B q.run.stepCyc
          else s2.partFault p ⟨0x1B, q.ctl.stepCount, ep, 5, now, none⟩ 0x08 p
        else s1)

/-! ### The sender's side (R290, R298) -/

/-- The body bytes in flit k of a message from scratchpad byte a, which it takes as it is injected (R289): place in the flit, byte, number. -/
def bodyPull (a len k : Nat) : Option (Nat × Nat × Nat) :=
  let lo := 64 * k - 16
  let hi := min len (64 * k + 48)
  if lo < hi then some (if k = 0 then 16 else 0, a + lo, hi - lo) else none

/-- The flits of a granted message (R286, R289): the pad header, then the record; pull: what flit k takes from scratchpad. -/
def messageFlits (src ring at_ pad epoch len seq : Nat) (body : Bytes) (pull : Nat → Option (Nat × Nat × Nat)) : List (Bytes × Option (Nat × Nat × Nat) × List Nat) :=
  let hdr := fun (kind n sq : Nat) => natLe 1 kind ++ natLe 1 ring ++ natLe 2 epoch ++ natLe 2 src ++ [0, 0] ++ natLe 4 n ++ natLe 4 sq
  let r := fit (recSize len) (hdr 1 len seq ++ body)
  (if pad = 0 then [] else [(hdr 2 pad 0, none, [ring, at_ - pad, epoch, 1])]) ++
  (List.range (recSize len / 64)).map fun k => (sub r (64 * k) 64, pull k, [ring, at_ + 64 * k, epoch, 0])

/-- The first flit of a kind that has arrived at an endpoint. -/
def PRun.arrivedFlit (r : PRun) (kind ep : Nat) : Option Flit := r.net.find? fun f => f.kind == kind && f.dst == ep && f.arrived.isSome

/-- The network without a flit of an instruction. -/
def PRun.dropFlit (r : PRun) (f : Flit) : PRun :=
  { r with net := r.net.filter fun g => !(g.kind == f.kind && g.src == f.src && g.dst == f.dst && g.num == f.num && g.nums == f.nums && g.arrived.isSome) }

/-- RESERVATION_REPLY (R289, R290): a grant makes the data ready two cycles later; CLOSED and STALE end the SEND; TOO_BIG raises MSG_SIZE. [DEDUCED log entry 73] -/
def execReservationReply (p ep : Nat) (s : State) : Host.Outcome State Fault Refusal :=
  .next (match s.epLive p ep with
  | none => s
  | some now =>
    let q := s.part p
    match q.run.arrivedFlit 1 ep with
    | none => s
    | some f =>
      let s1 := s.modRun p fun r => r.dropFlit f
      let h := s1.ch p ep
      match h.outs.find? fun o => o.num == f.num && o.kind == 0 with
      | none => s1
      | some o =>
        let ch := h.chans.getD o.chan {}
        let end_ := ((s1.modEp p ep fun h => { h with outs := h.outs.filter fun y => y.num != f.num, drops := true }).modSend p ep f.num fun g =>
          { g with sig := some now, last := some now }).holdTo p ep f.num now
        match f.nums.getD 0 0 with
        | 0 =>
          let k := s1.core (q.res.place.getD ep 0)
          let fl := match k.flightOf 5 f.num with | some g => g.nums | none => []
          let a := fl.getD 2 0 * 64
          let len := f.nums.getD 5 0
          let body := if ep < 1008 then [] else (o.flits.getD 0 ([], none, [])).1
          let pull := fun n => if ep < 1008 then bodyPull a len n else none
          let src := f.nums.getD 1 0
          let flits := messageFlits ep src (f.nums.getD 2 0) (f.nums.getD 3 0) (f.nums.getD 4 0) len (f.nums.getD 6 0) body pull
          let usual := o.issue + 6 * q.hops ep o.dst + 6
          (s1.modEp p ep fun h => { h with
            chans := h.chans.put o.chan { ch with wait := satAdd ch.wait (now - usual) }
            outs := h.outs.map fun y => if y.num = f.num then { o with state := 1, ready := now + 2, flits := flits } else y }).pump p ep
        | 1 => (end_.modEp p ep fun h => { h with chans := h.chans.put o.chan { ch with dropClosed := satInc 16 ch.dropClosed } }).pump p ep
        | 2 => (end_.modEp p ep fun h => { h with
            chans := h.chans.put o.chan { ch with dropStale := satInc 16 ch.dropStale, epoch := f.nums.getD 2 0 } }).pump p ep
        | _ =>
          if ep < 1008 then
            let c := q.res.place.getD ep 0
            let tag := match (s1.core c).flightOf 5 f.num with | some g => wTag g.word | none => 0
            (s1.modCh c fun h => { h with fRing := f.nums.getD 1 0, fPeer := o.dst }).coreFault c 5 tag 0x1A (placeAfter q f.num)
          else s1.sysFault p 0x1A 0x08 p)

/-- ACKNOWLEDGEMENT_RECEIVED (R292, R298): the last effect of the SEND or RWRITE; a committed message counts in CH_SENT. [DEDUCED log entry 19, DEDUCED log entry 75] -/
def execAcknowledgementReceived (p ep : Nat) (s : State) : Host.Outcome State Fault Refusal :=
  .next (match s.epLive p ep with
  | none => s
  | some now =>
    match (s.part p).run.arrivedFlit 3 ep with
    | none => s
    | some f =>
      let s1 := (s.modRun p fun r => r.dropFlit f).modSend p ep f.num fun g => { g with last := some now }
      s1.modEp p ep fun h =>
        match h.outs.find? fun o => o.num == f.num with
        | none => h
        | some o =>
          let c := h.chans.getD o.chan {}
          { h with
            outs := h.outs.filter fun y => y.num != f.num
            chans := if o.kind = 0 ∧ f.nums.getD 0 0 = 1 then h.chans.put o.chan { c with sent := satAdd c.sent 1 } else h.chans })

/-- REMOTE_READ_REQUEST (R297, R298): from the request's arrival at c + 3 h + 2 the target injects unit k at c + 3 h + 4 + k from its response port, as it reads it. -/
def execRemoteReadRequest (p ep : Nat) (s : State) : Host.Outcome State Fault Refusal :=
  .next (match s.epLive p ep with
  | none => s
  | some now =>
    match (s.part p).run.arrivedFlit 4 ep with
    | none => s
    | some f =>
      let a := f.nums.getD 0 0
      let t := max now (f.arrived.getD 0 + 2)
      (List.range (f.nums.getD 1 0)).foldl (fun s k =>
        s.respond p { mkFlit 5 ep f.src f.num (t + k) [f.nums.getD 2 0 + k] (zeros 64) false with pull := some (0, (a + k) * 64, 64) })
        (s.modRun p fun r => r.dropFlit f))

/-! ### Delivery and writing (R274, R279, R291, R292) -/

/-- The first flit in the network that an event acts on, changed or removed. -/
def modFlit (l : List Flit) (pr : Flit → Bool) (g : Flit → Option Flit) : List Flit :=
  match l with
  | [] => []
  | f :: t => if pr f then (match g f with | some f' => f' :: t | none => t) else f :: modFlit t pr g

/-- The announcer of a hold for a transfer. -/
def xferAnn (q : Part) (ep : Nat) (x : Xfer) : Nat × Nat × Nat :=
  (if ep < 1008 then q.res.place.getD ep 0 else ep, 5, (x.peer * 8 + x.kind) * 4294967296 + x.num)

def CoreCh.modXfer (h : CoreCh) (kind peer num : Nat) (f : Xfer → Xfer) : CoreCh :=
  { h with xfers := h.xfers.map fun x => if x.kind = kind ∧ x.peer = peer ∧ x.num = num then f x else x }

/-- A flit of a transfer has arrived: the end of the hold for it with the last (R281). -/
def State.xferArrives (s : State) (p ep : Nat) (f : Flit) : State :=
  let q := s.part p
  match (s.ch p ep).xfers.find? fun x => x.kind == f.kind && x.peer == f.src && x.num == f.num with
  | none => s
  | some x =>
    let s1 := s.modEp p ep fun h => h.modXfer x.kind x.peer x.num fun y => { y with left := y.left - 1, late := y.late && decide (1 < y.left) }
    if x.late && decide (x.left ≤ 1) then s1.announceEnd p fun h => h.ann == some (xferAnn q ep x) else s1

/-- A message has had its last flit (R291, R292): committed, counted, the arrival flag signalled; or discarded as stale. Either way the
acknowledgement leaves at the cycle named. -/
def State.finishMessage (s : State) (p ep now ack : Nat) (x : Xfer) : State :=
  let h := s.ch p ep
  let r := h.rings.getD x.ring {}
  let s1 := s.modEp p ep fun h => { h with
    xfers := h.xfers.filter fun y => !(y.kind == 2 && y.peer == x.peer && y.num == x.num)
    rings := if x.stale then h.rings else h.rings.put x.ring { r with
      rx := satAdd r.rx 1
      recs := r.recs.map fun y => if y.at_ = x.at_ then { y with committed := some now } else y } }
  let s2 := if !x.stale && r.aflagEn && decide (ep < 1008) then
      let c := (s.part p).res.place.getD ep 0
      let k := s1.core c
      s1.changeFlag c 5 0 (k.eng.getD 5 {}).issued r.aflag (k.fcnt.getD r.aflag 0 + 1) true
    else s1
  s2.respond p (mkFlit 3 ep x.peer x.num ack [b2n (!x.stale)] [] false)

/-- A flit of a message is discarded as stale (R291): its message counts once. -/
def State.staleFlit (s : State) (p ep now ack : Nat) (f : Flit) : State :=
  match (s.ch p ep).xfers.find? fun x => x.kind == 2 && x.peer == f.src && x.num == f.num with
  | none => s
  | some x =>
    let ring := f.nums.getD 0 0
    let s1 := if x.stale then s else s.modRing p ep ring fun r => { r with stale := satInc 15 r.stale }
    let x1 := { x with stale := true, toWrite := x.toWrite - 1 }
    let s2 := s1.modEp p ep fun h => h.modXfer 2 x.peer x.num fun y => { y with stale := true, toWrite := y.toWrite - 1 }
    if x1.toWrite = 0 then s2.finishMessage p ep now ack x1 else s2

/-- The flit may be delivered (R274, R279): a router has ejected it, or it has left the lanes under a hold. On lanes 0 to 2 of slotted mode its cycle is
exact; a flit that was not injected before a hold does not move under it. -/
def Flit.deliverable (q : Part) (ep : Nat) (f : Flit) : Bool :=
  f.dst == ep && f.arrived.isNone && f.loc.isNone &&
  (if q.run.held then decide (f.at_ < q.run.stepCyc)
   else if f.timed q then f.at_ + 3 * f.hops + 2 == q.run.stepCyc else decide (f.at_ + 3 * f.hops + 2 ≤ q.run.stepCyc))

/-- FLIT_DELIVERY (R274, R291): the first deliverable flit reaches its interface; a stale data flit is discarded. -/
def execFlitDelivery (p ep : Nat) (s : State) : Host.Outcome State Fault Refusal :=
  .next (
    let q := s.part p
    let now := q.run.stepCyc
    match q.run.net.find? (Flit.deliverable q ep) with
    | none => s
    | some f =>
      if !q.run.stepRun || !q.isEp ep then s else
      let s1 := s.xferArrives p ep f
      let drop := fun (t : State) => t.modRun p fun r => { r with net := modFlit r.net (Flit.deliverable q ep) fun _ => none }
      let n := fun i => f.nums.getD i 0
      match f.kind with
      | 0 => (drop s1).modEp p ep fun h => { h with
          resvs := h.resvs ++ [⟨n 0, f.src, f.num, n 6, n 1, n 4, n 5, n 2, if n 3 = 0 then none else some (n 3 - 1), now, false⟩] }
      | 2 =>
        if n 2 != ((s.ch p ep).rings.getD (n 0) {}).epoch then (drop s1).staleFlit p ep now (now + 4) f
        else s1.modRun p fun r => { r with net := modFlit r.net (Flit.deliverable q ep) fun f => some { f with arrived := some now, loc := none } }
      | _ => s1.modRun p fun r => { r with net := modFlit r.net (Flit.deliverable q ep) fun f => some { f with arrived := some now, loc := none } })

/-- The flit may be written (R274, R279, R280): on lanes 0 to 2 of slotted mode in its exact cycle; one that a hold overtook, or that was retransmitted in
slotted mode, as soon as it has arrived and no hold is in effect; else four cycles after its delivery. -/
def Flit.writable (q : Part) (ep now : Nat) (f : Flit) : Bool :=
  f.dst == ep && (f.kind == 2 || f.kind == 5 || f.kind == 6) &&
  (match f.arrived with
   | none => false
   | some a => if f.timed q then f.at_ + 3 * f.hops + 6 == now else if f.under || (q.slotted && f.retried) then decide (a ≤ now)
     else decide (f.at_ + 3 * f.hops + 6 ≤ now))

/-- A data flit of a message is written into its ring, and the last commits it (R292). -/
def State.ringFlit (s : State) (p ep now : Nat) (f : Flit) : State :=
  let n := fun i => f.nums.getD i 0
  let r := (s.ch p ep).rings.getD (n 0) {}
  if n 2 != r.epoch then s.staleFlit p ep now now f else
  let a := r.base + n 1 % 2 ^ r.log2
  let s1 := if ep < 1008 then s.netWrite ((s.part p).res.place.getD ep 0) a f.data f.poison f.psrc
    else s.modPart p fun q => { q with culmMem := q.culmMem.put (ep - 1008) (memWrite (q.culmMem.getD (ep - 1008) []) a f.data) }
  match (s1.ch p ep).xfers.find? fun x => x.kind == 2 && x.peer == f.src && x.num == f.num with
  | none => s1
  | some x =>
    let s2 := s1.modEp p ep fun h => h.modXfer 2 x.peer x.num fun y => { y with toWrite := y.toWrite - 1 }
    if x.toWrite ≤ 1 then s2.finishMessage p ep now (now + 1) x else s2

/-- The unit lies in a resident range or a ring of a core (R297). -/
def Core.guarded (k : Core) (u : Nat) : Bool := (k.residentHit 0 [(u, u)]).isSome

/-- FLIT_WRITE (R274, R297): the first writable flit is written. -/
def execFlitWrite (p ep : Nat) (s : State) : Host.Outcome State Fault Refusal :=
  .next (match s.epLive p ep with
  | none => s
  | some now =>
    let q := s.part p
    match q.run.net.find? (Flit.writable q ep now) with
    | none => s
    | some f =>
      let s1 := s.modRun p fun r => { r with net := modFlit r.net (Flit.writable q ep now) fun _ => none }
      let c := q.res.place.getD ep 0
      let u := f.nums.getD 0 0
      match f.kind with
      | 2 => s1.ringFlit p ep now f
      | 5 =>
        let s2 := s1.netWrite c (u * 64) f.data f.poison f.psrc
        match (s2.ch p ep).xfers.find? fun x => x.kind == 5 && x.peer == f.src && x.num == f.num with
        | none => s2
        | some x =>
          let s3 := (s2.modEp p ep fun h => h.modXfer 5 x.peer x.num fun y => { y with toWrite := y.toWrite - 1 }).modSend p ep f.num fun g =>
            { g with done := g.done + 1 }
          if x.toWrite ≤ 1 then
            ((s3.modEp p ep fun h => { h with xfers := h.xfers.filter fun y => !(y.kind == 5 && y.num == f.num) }).modSend p ep f.num fun g =>
              { g with sig := some (now + 1), last := some (now + 1) }).holdTo p ep f.num (now + 1)
          else s3
      | _ =>
        if (s1.core c).guarded u then s1.coreFault c 5 0 0x1D q.run.stepCyc
        else
          let s2 := s1.netWrite c (u * 64) f.data f.poison f.psrc
          match (s2.ch p ep).xfers.find? fun x => x.kind == 6 && x.peer == f.src && x.num == f.num with
          | none => s2
          | some x =>
            let s3 := s2.modEp p ep fun h => h.modXfer 6 x.peer x.num fun y => { y with toWrite := y.toWrite - 1 }
            if x.toWrite ≤ 1 then
              (s3.modEp p ep fun h => { h with xfers := h.xfers.filter fun y => !(y.kind == 6 && y.peer == f.src && y.num == f.num) }).respond p
                (mkFlit 3 ep f.src f.num (now + 1) [1] [] false)
            else s3)

/-- RECEIVE_CHECK (R281): the first transfer whose check cycle has come and whose flits have not all arrived announces a hold. [DEDUCED log entry 19] -/
def execReceiveCheck (p ep : Nat) (s : State) : Host.Outcome State Fault Refusal :=
  .next (match s.epLive p ep with
  | none => s
  | some now =>
    let q := s.part p
    match (s.ch p ep).xfers.find? fun x => !x.checked && (match x.due with | some d => decide (d ≤ now + Config.horizon) | none => false) with
    | none => s
    | some x =>
      let miss := decide (0 < x.left)
      let s1 := s.modEp p ep fun h => h.modXfer x.kind x.peer x.num fun y => { y with checked := true, late := miss }
      let retried := q.run.net.any fun f => f.kind == x.kind && f.src == x.peer && f.num == x.num && f.dst == ep && f.retried && f.arrived.isNone
      if miss then s1.announce p (if retried then 3 else 2) (some (xferAnn q ep x)) else s1)

/-! ### Routers and links (R276, R278, R280, R311) -/

/-- The partition that holds a die in slotted mode. -/
def State.slottedAt (s : State) (d : Nat) : Option Nat :=
  (List.range Config.nParts).find? fun p => (s.part p).slotted && (s.part p).hasDie d

/-- The field of a slot-table entry that names a source and a lane: 3 p + l (R276). [DEDUCED log entry 76] -/
def slotField (entry src lane : Nat) : Option Nat :=
  (List.range 18).find? fun k => entry / 2 ^ (6 * k) % 64 == src + (if src ≤ 4 then 16 * lane else 0)

/-- SLOT_COLLISION (R278, R304). -/
def State.slotCollision (s : State) (p d slot src lane : Nat) : State :=
  (s.modDie d fun x => { x with collSlot := slot, collSrc := src, collLane := lane, collCnt := satAdd x.collCnt 1 }).dieFault p d 0x1C

/-- FLIT_AT_ROUTER (R276, R278): a flit at an input of a slotted router, or one that an injection port offers, leaves on the output that the cycle's entry
names, towards the next router 3 cycles later, or to a core. One that its own cycle's entry did not carry collides. -/
def execFlitAtRouter (die src lane : Nat) (s : State) : Host.Outcome State Fault Refusal :=
  .next (match s.slottedAt die with
  | none => s
  | some p =>
    let q := s.part p
    let now := q.run.stepCyc
    let hit := fun (f : Flit) => f.timed q && match f.loc with
      | some (d, sr, ln, t) => d == die && sr == src && ln == lane && decide (t ≤ now)
      | none => false
    match q.run.net.find? hit with
    | none => s
    | some f =>
      if !q.run.stepRun || q.run.held then s else
      let t := match f.loc with | some (_, _, _, t) => t | none => now
      match (if t = now then slotField ((s.die die).slots.getD (now % 256) 0) src lane else none) with
      | none => s.slotCollision p die (t % 256) src lane
      | some k =>
        let set := fun l => s.modRun p fun r => { r with net := modFlit r.net hit fun f => some { f with loc := l } }
        let port := k / 3
        if port < 4 then let x := acrossLink die port; set (some (x.1, x.2, k % 3, now + 3))
        else if q.res.place.getD f.dst 1152 = 2 * die + (port - 4) then set none
        else s.slotCollision p die (now % 256) src lane)

/-- FLIT_CRC_ERROR (R280): the flit with index n in partition p's network, or in the memory network, is retransmitted into a port of a die and arrives 24 cc
later, in slotted mode on lane 3. After three failed retransmissions on one link LINK_FAIL. For the memory network `again` says that the third
retransmission failed. -/
def execFlitCrcError (die port : Nat) (mem : Bool) (p n : Nat) (again : Bool) (s : State) : Host.Outcome State Fault Refusal :=
  .next (
    let q := s.part p
    let link := 4 * die + port
    if mem then
      let s1 := s.modDie die fun x => { x with retryMem := x.retryMem.put port (satInc 16 (x.retryMem.getD port 0)) }
      let s2 : State := { s1 with hbm := { s1.hbm with net := match s1.hbm.net[n]? with
        | some f => s1.hbm.net.set n { f with since := f.since + 24 }
        | none => s1.hbm.net } }
      if again then (s2.modDie die fun x => { x with failing := x.failing ||| 2 ^ (4 + port) }).dieFault p die 0x1E else s2
    else match q.run.net[n]? with
      | none => s
      | some f =>
        if f.arrived.isSome then s else
        let s1 := s.modDie die fun x => { x with retryData := x.retryData.put port (satInc 16 (x.retryData.getD port 0)) }
        let fails := if f.failAt = link then f.fails else 0
        let s2 := s1.modRun p fun r => { r with net := r.net.set n { f with
          at_ := f.at_ + 24, retried := true, fails := fails + 1, failAt := link
          loc := f.loc.map fun l => if q.slotted then (die, port + 1, 3, s.cc + 24) else (l.1, l.2.1, l.2.2.1, l.2.2.2 + 24) } }
        if 3 ≤ fails then (s2.modDie die fun x => { x with failing := x.failing ||| 2 ^ port }).dieFault p die 0x1E else s2)

/-- HOLD_WORD_DISAGREEMENT (R311): counted; the 16th on one link within a second raises LINK_FAIL on the partitions that hold the die. -/
def execHoldWordDisagreement (die port : Nat) (s : State) : Host.Outcome State Fault Refusal :=
  .next (
    let x := s.die die
    let recent := (x.disAt.filter fun y => decide (s.opTicks ≤ y.2 + 2500000000)) ++ [(port, s.opTicks)]
    let s1 := s.modDie die fun y => { y with holdDis := satAdd y.holdDis 1, disAt := recent }
    if 16 ≤ (recent.filter fun y => y.1 == port).length then
      ((List.range Config.nParts).filter fun p => (s.part p).hasDie die && ((s.part p).st == .running || (s.part p).st == .held || (s.part p).run.stepRun)).foldl (fun t p => t.dieFault p die 0x1E)
        (s1.modDie die fun x => { x with failing := x.failing ||| 2 ^ (8 + port) })
    else s1)

/-! ### Culm cores (R301) -/

/-- CULM_CORE_SEND (R301): what the compiled code of a Culm core asks of its channel port and receive rings, while a step runs. The
message taken leaves to the code (log entry 6). A destination outside the partition is CH_DEST, its core the endpoint's number (R45, R295).
[DEDUCED log entry 139] -/
def execCulmCoreSend (p culm : Nat) (op : CulmOp) (s : State) : Host.Outcome State Fault Refusal :=
  .next (
    let ep := 1008 + culm
    match s.epLive p ep with
    | none => s
    | some now =>
      let q := s.part p
      let h := s.ch p ep
      match op with
      | .send dest ring chan lead body =>
        if !q.isEp dest then
          s.partFault p ⟨0x19, q.ctl.stepCount, ep, 5, if q.slotted then now else h.count + 1, none⟩ 0x08 p
        else if decide ((h.outs.filter fun o => o.kind == 0 && o.state == 0).length < 2) && decide (body.length ≤ 65536) &&
           decide (body.length % 16 = 0) && decide (chan < 16) && decide (ring < 32) then
          let s1 := (s.modEp p ep fun h => { h with count := h.count + 1 }).reserve p ep (h.count + 1) now dest ring chan body.length lead
          s1.modEp p ep fun h => { h with outs := h.outs.map fun o => if o.num = h.count then { o with flits := [(body, none, [])] } else o }
        else s
      | .take ring m =>
        let r := h.rings.getD ring {}
        match r.pick m now with
        | none => s
        | some x =>
          (s.modRing p ep ring fun r => { r with recs := r.recs.map fun y => if y.at_ = x.at_ then { y with taken := some now } else y }).emit 9 ep
            (memRead (q.culmMem.getD culm []) (r.base + x.at_ % 2 ^ r.log2) (16 + x.len))
      | .setRing ring cfg => s.modRing p ep ring fun _ =>
          { base := cfg.base, log2 := cfg.log2, isOpen := cfg.isOpen, aflagEn := false, aflag := cfg.aflag }
      | .openRing ring => s.openRing p ep ring
      | .closeRing ring => s.closeRing p ep ring now
      | .resetRing ring => s.resetRing p ep ring now)

end Sys2Proof.Machine
end

