-- ==== Sys2Proof/Machine/Place.lean ====
section
/-! DEFINITION. Placement (R47 to R52), what ARM and a restart load into the cores (R240, R241, R229, R115), grants and T_min (R106, R488 to
R490), and leaving a run. -/

namespace Sys2Proof.Machine

/-! ### Placement -/

/-- Healthy cores outside every mapping (R51). -/
def State.spareCount (s : State) : Nat := ((List.range Config.nCores).filter fun c => s.healthy c && !(s.mapped 8).contains c).length

/-- The physical core of logical core l of a slotted block at column x and row y (R47, R14). -/
def blockCore (x y l : Nat) : Nat := 2 * (16 * (y + l % 8 / 2) + (x + l / 8)) + l % 2

/-- The first place, southernmost rows first and then westernmost columns, of a slotted block (R47, R49). [DEDUCED log entry 26] -/
def State.placeSlotted (s : State) (p f : Nat) : Option (List Nat) :=
  let used := s.mapped p
  let qrows := (List.range Config.nParts).flatMap fun i => if i = p then [] else (s.part i).res.rows
  let w := f / 8
  (List.range 15).reverse.findSome? fun y => (List.range (17 - w)).findSome? fun x =>
    let cs := (List.range f).map (blockCore x y)
    if (List.range 4).any (fun r => qrows.contains (y + r)) then none
    else if cs.all fun c => s.healthy c && !used.contains c then some cs else none

/-- The rows and cores of a queued partition (R48). [DEDUCED log entry 26] -/
def State.placeQueued (s : State) (p f : Nat) : Option (List Nat × List Nat) :=
  let used := s.mapped p
  let n := ceilDiv f 32
  let rows := ((List.range 18).filter fun y => !(used.any fun c => c / 32 == y) &&
    !((List.range Config.nParts).any fun i => i != p && (s.part i).res.rows.contains y)).take n
  let own := ((List.range Config.nCores).filter fun c => rows.contains (c / 32) && s.healthy c).take f
  let more := ((List.range Config.nCores).filter fun c => !rows.contains (c / 32) && s.healthy c && !used.contains c).take (f - own.length)
  if rows.length = n ∧ own.length + more.length = f then some (rows, own ++ more) else none

/-- A place for a floor: rows of a queued partition, and the physical core of each logical core. [DEDUCED log entry 26] -/
def State.placeFor (s : State) (p f : Nat) : Option (List Nat × List Nat) :=
  if f ≤ 64 then (s.placeSlotted p f).map fun c => ([], c) else s.placeQueued p f

/-! ### Loading the cores -/

/-- Key words of a stream identifier (R229). -/
def threshKey (seed : Bytes) (sid : Nat) : Nat × Nat × Nat × Nat :=
  let b := Config.shake (fit 32 seed ++ natLe 1 sid) 16
  (fld b 0 4, fld b 4 4, fld b 8 4, fld b 12 4)

/-- What ARM and a restart leave in a core (R123, R240, R241, R229, R115, R147): every byte outside the resident ranges is cleared, the resident
regions and the code region are loaded. -/
def Core.loaded (k : Core) (seed : Bytes) (x : CoreImg) : Core :=
  let regs := x.regions ++ [(x.codeBase, x.code)]
  let res := x.resident ++ (if x.code.isEmpty then [] else [(x.codeBase / 64, (x.codeBase + x.code.length - 1) / 64)])
  let keeps := fun (u : Nat) => res.any fun r => decide (r.1 ≤ u) && decide (u ≤ r.2)
  let fresh := fun (u n : Nat) => regs.any fun r => decide (r.1 ≤ u * n) && decide (u * n + n ≤ r.1 + r.2.length)
  { k with
    eng := [], fcnt := [], fold := [], item := none, flights := [], strms := [], mx := {}, keys := (List.range 256).map (threshKey seed)
    seq := { base := x.codeBase, len := x.code.length / 16 }
    sp := { k.sp with
      mem := regs.foldl (fun m r => memWrite m r.1 r.2) (k.sp.mem.filter fun c => keeps (c.1 / 64))
      poison := k.sp.poison.filter fun u => keeps u && !fresh u 64
      bad := k.sp.bad.filter fun w => keeps (w / 8) && !fresh w 8
      sb := [], resident := res, was := none } }

/-- The resident table is cleared (R241), with the rest of a stopped core's run (R249). -/
def Core.cleared (k : Core) : Core :=
  { k with eng := [], fcnt := [], fold := [], item := none, flights := [], strms := [], seq := {}, mx := {}, keys := [], sp := { k.sp with sb := [], resident := [] } }

/-- The counters of a core start at 0 at LOAD_PROGRAM (R140, R175, R199, R235, R270, R303). -/
def CoreCh.zeroed (h : CoreCh) : CoreCh :=
  { h with
    unread := 0
    chans := h.chans.map fun x => (x.1, { x.2 with sent := 0, dropClosed := 0, dropStale := 0, wait := 0 })
    rings := h.rings.map fun x => (x.1, { x.2 with rx := 0, stale := 0 }) }
def Core.zeroed (k : Core) : Core :=
  { k with
    cnt := [], flt := { k.flt with wstall := 0 }, ch := k.ch.zeroed
    sp := { k.sp with hwm := 0, errCnt := 0, lateCnt := 0, lateCc := 0, poisonIn := 0 } }

def State.eachCore (s : State) (p : Nat) (f : Nat → Core → Core) : State :=
  let cs := (s.part p).res.place
  (List.range cs.length).foldl (fun z l => z.modCore (cs.getD l 0) (f l)) s

/-- ARM and restart load every core, and the routers of a slotted partition their slot tables (R54, R240, R241). -/
def State.loadCores (s : State) (p : Nat) : State :=
  let q := s.part p
  match q.img.image with
  | none => s
  | some g =>
    let s1 := s.eachCore p fun l k => match g.cores[l]? with | some x => k.loaded q.ctl.seed x | none => k.cleared
    let dies := (q.res.place.filter fun c => c % 2 == 0).map (· / 2)
    if q.slotted then (List.range dies.length).foldl (fun z i =>
      { z with dies := z.dies.put (dies.getD i 0) { (z.dies.getD (dies.getD i 0) {}) with slots := g.slotTables.getD i [] } }) s1
    else s1

/-! ### Power of a partition (R106, R488 to R490) -/

end Sys2Proof.Machine

namespace Sys2Proof

/-- Cycles and energy in uJ of a frame of an entry point (R106). -/
def Image.frameCycles (g : Image) (ept : Nat) (learn : Bool) : Nat :=
  match g.entries[ept]? with
  | some e => (if learn then e.cycles else e.cycles.take 1).sum
  | none => 0
def Image.frameEnergy (g : Image) (ept : Nat) (learn : Bool) : Nat :=
  let l := g.energy.steps.getD ept []
  (if learn then l else l.take 1).sum

/-- P_full, P_pk and P_idle in whole watts, each rounded up (R488). One uJ per cc of 0.4 ns is 2,500,000 W. -/
def Image.pFull (g : Image) : Nat :=
  ((List.range g.entries.length).map fun i => max (ceilDiv (g.frameEnergy i true * 2500) (max 1 (g.frameCycles i true)))
    (ceilDiv (g.frameEnergy i false * 2500) (max 1 (g.frameCycles i false)))).foldl max 0
def Image.pPeak (g : Image) : Nat :=
  ((List.range g.entries.length).flatMap fun i => match g.entries[i]? with
    | some e => (List.range e.cycles.length).map fun k => ceilDiv ((g.energy.steps.getD i []).getD k 0 * 2500) (max 1 (e.cycles.getD k 0))
    | none => []).foldl max 0

end Sys2Proof

namespace Sys2Proof.Machine

/-- T_min in ns, rounded up (R106, R488): from the energy in uJ and the cycles of a frame, P_idle and the grant. -/
def tminNs (e cyc idle grant : Nat) : Nat :=
  let tf := ceilDiv (2 * cyc) 5
  if grant ≤ idle then tf else max tf (ceilDiv (5000 * e - 2 * idle * cyc) (5 * (grant - idle)))

/-- P_base (R489). -/
def State.pBase (s : State) : Nat := if s.board.half then 950 else 1000
/-- G_max (R489). -/
def State.gMax (s : State) : Nat :=
  let m := min s.gran.cap s.gran.thermal - s.pBase
  if s.gran.loss then min m (9000 - s.pBase) else m
/-- The peak limit (R489). -/
def State.peakLimit (s : State) : Nat := if s.gran.loss then 9000 - s.pBase else 16000 - s.pBase

/-- Partitions that hold a grant. -/
def State.granted (s : State) : List Nat := (List.range Config.nParts).filter fun p => (s.part p).pwr.grant != 0

/-- The target of a partition at a common k = num / den (R490). -/
def PPwr.targetAt (w : PPwr) (num den : Nat) : Nat := w.idle + num * (w.full - w.idle) / den

/-- The targets of R490: P_full while the sum fits, otherwise the largest common k from 0.02 to 1. The sum is exact: k is the least of 1
and (G_max - idle) / (full - idle) over the partitions, and each target is rounded down. -/
def State.setTargets (s : State) : State :=
  let ps := s.granted
  let full := (ps.map fun p => (s.part p).pwr.full).sum
  let idle := (ps.map fun p => (s.part p).pwr.idle).sum
  let g := s.gMax
  let kn := if full ≤ g then 1 else if 50 * (g - idle) < full - idle then 1 else g - idle
  let kd := if full ≤ g then 1 else if 50 * (g - idle) < full - idle then 50 else full - idle
  ps.foldl (fun z p => z.modPart p fun q => { q with pwr := { q.pwr with target := q.pwr.targetAt kn kd } }) s

/-- T_min of the last launched frame's entry point, or of the lowest enabled entry before any (R106, log entry 42). -/
def State.tminFor (s : State) (p grant : Nat) : Nat :=
  let q := s.part p
  match q.img.image with
  | none => 0
  | some g =>
    let first := match s.ltes.find? fun e => e.2.owned && e.2.part == p && bits (leNat e.2.raw) 0 0 == 1 with
      | some e => bits (leNat e.2.raw) 13 8
      | none => 0
    let ept := q.ctl.lastEpt.getD first
    let learn := if q.ctl.lastEpt.isSome then q.ctl.lastLearn else q.ctl.learn
    tminNs (g.frameEnergy ept learn) (g.frameCycles ept learn) q.pwr.idle grant

/-- A partition takes its target grant (R490): T_min with it; a change is a notice. -/
def State.takeGrant (s : State) (p : Nat) : State :=
  let w := (s.part p).pwr
  if w.grant = 0 then s else
  let t := s.tminFor p w.target
  let s1 := s.modPart p fun q => { q with pwr := { q.pwr with grant := w.target, tmin := t } }
  if w.target = w.grant then s1 else s1.record 2 0x0040 0x08 p (natLe 2 w.target)

/-- The figures of an image (R488, R499). [DESIGN CHOICE log entry 42] -/
def State.setProfile (s : State) (p : Nat) (g : Image) : State :=
  s.modPart p fun q => { q with pwr := { q.pwr with full := g.pFull, peak := g.pPeak, idle := g.energy.idle } }

/-- The targets are formed again; a partition that is ARMED or runs no frame takes its own at once (R490). -/
def State.regrant (s : State) : State :=
  let s1 := s.setTargets
  s1.granted.foldl (fun z p => let q := z.part p
    if q.run.frame.isNone && q.st != .restarting then z.takeGrant p else z) s1

/-- A partition gives its grant back (R489), and the others' targets follow. -/
def State.dropGrant (s : State) (p : Nat) : State :=
  let had := (s.part p).pwr.grant != 0
  let s1 := s.modPart p fun q => { q with pwr := { q.pwr with grant := 0, target := 0, ramp := none } }
  if had then s1.regrant else s1

/-! ### Leaving a run -/

/-- What runs stops: no step, no frame, no holds, nothing in the network, no scoreboard entry (R249); an interval that ends with the run counts (R331).
Emissions and triggers stay (R68). -/
def State.stopRun (s : State) (p : Nat) : State :=
  (s.eachCore p fun _ k => { k with sp := { k.sp with sb := [] } }).modPart p fun q => { q with
    run := { q.run with stepRun := false, held := false, holds := [], net := [], frame := none }
    cnt := if q.run.held then { q.cnt with holdCnt := satAdd q.cnt.holdCnt 1 } else q.cnt }

/-- A DBG_RESUME whose partition stops before the cores resume ends with ABORTED (R139, R141). -/
def State.endResume (s : State) (p : Nat) : State :=
  let l := (s.part p).ctl.resume
  (s.modCtl p fun c => { c with resume := [] }).finishAll l stAborted []

/-- The pending STOPs complete (R71, R72). -/
def State.endStops (s : State) (p st : Nat) : State :=
  let l := (s.part p).ctl.stop
  (s.modCtl p fun c => { c with stop := [] }).finishAll l st []

/-- The pending CHECKPOINTs are discarded (R73). [DEDUCED log entry 60] -/
def State.dropCkpts (s : State) (p : Nat) : State :=
  let l := (s.part p).ctl.ckpt
  (s.modCtl p fun c => { c with ckpt := [] }).finishAll l stAborted []

/-- A fault under classification is recorded as unclassified and charged to no unit (R72, R320). -/
def State.unclassify (s : State) (p : Nat) : State :=
  let q := s.part p
  if q.ck.cls.isNone && q.ck.f1.isNone then s else
  s.modPart p fun q => { q with ck := { q.ck with cls := none, f1 := none }, cnt := { q.cnt with fClass := 5 } }

/-- A HANDOVER in progress ends with ABORTED (R534). -/
def State.endHandover (s : State) (p : Nat) : State :=
  let l := (s.part p).twin.hslot.toList
  (s.modPTwin p fun t => { t with hslot := none }).finishAll l stAborted []

/-- A partition goes to FAULTED (R66): its grant ends, a pending STOP completes with ABORTED (R71). [DEDUCED log entry 60] -/
def State.toFaulted (s : State) (p : Nat) : State :=
  let s1 := ((s.stopRun p).modPart p fun q => { q with ck := { q.ck with stage := 0, catchUp := [], copying := none } })
  (((((s1.toState p .faulted).dropCkpts p).endResume p).endStops p stAborted).endHandover p).dropGrant p

/-- FAULTED with a cause that no unit raised (R52, R348, R510, R513): the last fault record carries it. [DEDUCED log entry 97] -/
def State.faultedWith (s : State) (p cause : Nat) : State :=
  let q := s.part p
  let s1 := s.modCnt p fun c => { c with fCause := cause % 256, fEng := 7, fCore := 1023, fStep := q.ctl.stepCount, fPlace := 0 }
  (s1.record 5 0x0010 0x08 p (faultData ⟨cause, q.ctl.stepCount, 1023, 7, 0, none⟩ (s1.part p).cnt.fClass 0)).toFaulted p

/-- A STOP takes effect (R66): the partition goes to ARMED; a pending CHECKPOINT has been taken before. -/
def State.toArmed (s : State) (p : Nat) : State :=
  let s1 := (s.stopRun p).modRun p fun r => { r with emits := [], triggers := [] }
  let s2 := (s1.modPart p fun q => { q with ck := { q.ck with stage := 0, catchUp := [] } }).unclassify p
  (((s2.toState p .armed).endResume p).endHandover p).endStops p stOk

end Sys2Proof.Machine
end

