-- ==== Sys2Proof/Machine/Pair.lean ====
section
/-! DEFINITION. What the twin edge die does between the two modules of a pair (18): STATE, roles, output digests and their comparison, values in
tolerance mode. -/

namespace Sys2Proof.Machine

/-! ### STATE (R519, log entry 43) -/

def PTwin.hisState (t : PTwin) : Nat := fld t.pState 0 1
def PTwin.hisStep (t : PTwin) : Nat := fld t.pState 2 8
def PTwin.hisN (t : PTwin) : Nat := fld t.pState 10 8
def PTwin.hisChain (t : PTwin) : Bytes := sub t.pState 18 64
def PTwin.hisEmit (t : PTwin) : Nat := fld t.pState 114 8
/-- The lead serves: its last STATE has it RUNNING or HELD (R522). -/
def PTwin.leadServes (t : PTwin) : Bool := t.pState.isEmpty || t.hisState == 3 || t.hisState == 4

/-- The 128 bytes of STATE. [DESIGN CHOICE log entry 43] -/
def State.stateBody (s : State) (p : Nat) : Bytes :=
  let q := s.part p
  fit 128 (natLe 1 q.st.code ++ natLe 1 q.twin.role ++ natLe 8 q.ctl.stepCount ++ natLe 8 q.ck.journalN ++ fit 64 q.ck.chain ++ fit 32 q.cnt.bir ++
    natLe 8 q.cnt.emit)

/-- The STATE of a paired partition leaves (R519). [DEDUCED log entry 100] -/
def State.sendState (s : State) (p : Nat) : State :=
  if (s.part p).twin.role != 0 && s.paired then s.sendObject 2 p (s.part p).ctl.stepCount (s.stateBody p) else s

/-- A paired partition whose partner can be reached (R527). -/
def State.twinned (s : State) (p : Nat) : Bool := (s.part p).twin.role != 0 && s.paired && !(s.part p).twin.isolated

/-- A role moves (R522): a notice, for which no table gives a code (log entry 44). -/
def State.moveRole (s : State) (p r : Nat) : State :=
  if (s.part p).twin.role = r then s
  else ((s.modPTwin p fun t => { t with role := r }).record 2 (s.fresh 16) 0x08 p (natLe 1 r)).bumpFree

/-- TWIN_DIVERGE 0x21, TWIN_RESYNC 0x22 and WEIGHT_MISMATCH 0x23, detected by the partition (R525, R529, R514). -/
def State.twinFault (s : State) (p cause : Nat) : State := s.sysFault p cause 8 p

/-! ### Output digests (R524, R525) -/

/-- The digest of an output part: its slots in ascending index. [DEDUCED log entry 47] -/
def outputDigest (g : Image) (out : Bytes) (seq step : Nat) : Bytes :=
  Config.shake ([0x4B, 0x39, 0x4F, 0x44] ++ natLe 8 seq ++ natLe 8 step ++
    ((g.slots.filter fun x => x.output).flatMap fun x => sub out x.offset (fmtBytes x.fmt x.elems))) 32

/-- A yield under step 4 or 5 of R525: the lead's checkpoint is to be restored (R528); the third at one STEP_COUNT within 72 operating hours
stops the partition. -/
def State.yield (s : State) (p step : Nat) : State :=
  let q := s.part p
  let l := (q.twin.yields.filter fun y => decide (s.opMs ≤ y.2 + hours72)) ++ [(step, s.opMs)]
  let s1 := s.modPTwin p fun t => { t with yields := l, fromLead := true, rxCkpt := [], rejoin := false }
  if 3 ≤ (l.filter fun y => y.1 == step).length then s1.toArmed p
  else (s1.stopRun p).modCk p fun k => { k with stage := 2, catchUp := [] }

/-- Both modules have recomputed the frame's digest (steps 3 to 5 of R525). -/
def State.resolveDiv (s : State) (p : Nat) : State :=
  let t := (s.part p).twin
  match t.div, t.redMine, t.redHis with
  | some (step, mine, his), some a, some b =>
    let s1 := s.modPTwin p fun t => { t with div := none, redMine := none, redHis := none }
    let lead := t.was == 1
    if a == b then s1.modPTwin p fun t => { t with rejoin := true }
    else if a == mine && b != his then s1.modPTwin p fun t => { t with rejoin := true, was := 1 }
    else if b == his && a != mine then s1.yield p step
    else
      let s2 := s1.record 6 0x0010 0x08 p []
      if lead then s2.modPTwin p fun t => { t with rejoin := true } else s2.yield p step
  | _, _, _ => s

/-- Comparison of a frame's digests, once both are held (R525). A partition in tolerance mode compares values instead (R534). [DEDUCED log entry 98] -/
def State.compareDigest (s : State) (p step : Nat) : State :=
  let t := (s.part p).twin
  match t.local_.find? (fun x => x.step == step), t.partner.find? (fun x => x.1 == step) with
  | some m, some (_, d, hisFault) =>
    let s1 := s.modPTwin p fun t => { t with local_ := t.local_.filter (·.step != step), partner := t.partner.filter (·.1 != step) }
    if t.tolMode then s1
    else if m.dig == d then
      s1.modPTwin p fun t => { t with
        isMatch := satAdd t.isMatch 1, runMatch := t.runMatch + 1
        rejoin := t.rejoin || ((s.part p).st == .shadow && (s.part p).ck.stage == 4 && decide (16 ≤ t.runMatch + 1)) }
    else
      let s2 := s1.modPTwin p fun t => { t with diverge := satAdd t.diverge 1, runMatch := 0 }
      let mine := match t.lastFlt with | some x => decide (m.cut ≤ x) | none => false
      if hisFault && !mine then s2
      else if mine && !hisFault then s2.twinFault p 0x21
      else (s2.modPTwin p fun t => { t with was := t.role, div := some (step, m.dig, d), redMine := none, redHis := none }).twinFault p 0x21
  | _, _ => s

/-! ### Tolerance (R534) -/

/-- A finite binary32 value times 2^149. -/
def f32Int (c : Nat) : Int := match decodeVal 8 c with | .fin n m e _ => scaled n m e (-149) | _ => 0

/-- |v - w| ≤ TOL_ABS + TOL_REL × |w|, exactly; two NaNs, and two equal infinities, are equal. -/
def inTolerance (a r v w : Nat) : Bool :=
  if codeNan 8 v || codeNan 8 w then codeNan 8 v && codeNan 8 w
  else if v % 2147483648 == 0x7F800000 || w % 2147483648 == 0x7F800000 then v == w
  else decide ((f32Int v - f32Int w).natAbs * 2 ^ 149 ≤ (f32Int a).toNat * 2 ^ 149 + (f32Int r).toNat * (f32Int w).natAbs)

/-- Comparison of a frame's emitted values with the partner's (R534, R515): a run of wanted length lets the partition rejoin or take over at
its next launch; ten times as many frames without one end a HANDOVER. [DEDUCED log entry 47, DEDUCED log entry 98] -/
def State.compareVals (s : State) (p seq : Nat) : State :=
  let t := (s.part p).twin
  match t.vals.find? (fun x => x.1 == seq), t.hisVals.find? (fun x => x.1 == seq) with
  | some (_, a, fa), some (_, b, fb) =>
    let n := a.length / 4
    let ok := !fa && !fb && a.length == b.length && (List.range n).all fun i => inTolerance t.tolA t.tolR (fld a (4 * i) 4) (fld b (4 * i) 4)
    let run := if ok then t.runTol + 1 else 0
    let s1 := s.modPTwin p fun t => { t with
      vals := t.vals.filter (·.1 != seq), hisVals := t.hisVals.filter (·.1 != seq), runTol := run, tried := t.tried + 1
      outTol := if ok then t.outTol else satAdd t.outTol 1
      rejoin := t.rejoin || ((s.part p).st == .shadow && decide (max 1 t.wantTol ≤ run)) }
    match t.hslot with
    | some n => if decide (run < t.wantTol) && decide (10 * t.wantTol ≤ t.tried + 1) then
        (s1.modPTwin p fun t => { t with hslot := none }).finish n stAborted []
      else s1
    | none => s1
  | _, _ => s

/-- Emitted values leave as a VALUES block (R519, log entry 43): SEQ, FALLBACK, and the values as binary32 in ascending point index. -/
def State.sendValues (s : State) (p seq : Nat) (vals : List Nat) (fell : Bool) : State :=
  let v := vals.flatMap fun c => natLe 4 c
  let s1 := s.modPTwin p fun t => { t with vals := t.vals ++ [(seq, v, fell)] }
  (if s1.twinned p then s1.sendObject 7 p (s1.part p).ctl.stepCount (natLe 8 seq ++ [if fell then 1 else 0] ++ v) else s1).compareVals p seq

end Sys2Proof.Machine
end

