-- ==== Sys2Proof/Machine/Launch.lean ====
section
/-! DEFINITION. Input cuts and launch decisions (03, R373, R475, R510, R522, R523), and what the first cycle of a frame does (R91, R135). -/

namespace Sys2Proof

/-- The record of an entry point for a logical core. -/
def Image.coreEntry (g : Image) (ept l : Nat) : CoreEntry := match g.entries[ept]? with | some e => e.cores.getD l ⟨[], 0, []⟩ | none => ⟨[], 0, []⟩

/-- The input slots of a tensor with their mask slots, in ascending index. -/
def Image.inputSlots (g : Image) (t : Bytes) : Bytes :=
  (g.slots.filter fun x => !x.output).flatMap fun x => sub t x.offset (Machine.fmtBytes x.fmt x.elems) ++ sub t x.mask x.elems

/-- Steps of a journalled frame. -/
def Image.stepsOf (g : Image) (ept : Nat) (learn : Bool) : Nat := if learn then 1 + (match g.entries[ept]? with | some e => e.updates | none => 0) else 1

end Sys2Proof

namespace Sys2Proof.Machine

/-! ### The start of a step (R115, R124, R135, R147, R249, R284, R288) -/

/-- The channel engine at a step's start: the rings take the state of their table, untaken messages count as unread. [DEDUCED log entry 46] -/
def CoreCh.stepStart (h : CoreCh) (rs : List RingCfg) : CoreCh :=
  let left := (h.rings.map fun r => (r.2.recs.filter fun y => y.kind == 1 && y.taken.isNone).length).sum
  { h with
    rings := (List.range rs.length).map fun i =>
      let c := rs.getD i ⟨0, 0, false, false, 0⟩
      let o := h.rings.getD i {}
      (i, { base := c.base, log2 := c.log2, isOpen := c.isOpen && c.log2 != 0, aflagEn := c.aflagEn, aflag := c.aflag, rx := o.rx, stale := o.stale })
    chans := h.chans.map fun x => (x.1, { x.2 with epoch := 0, seq := 0 })
    resvs := [], xfers := [], outs := [], portFree := 0, unread := satAdd h.unread left, handledAt := 0, handled := 0 }

/-- A Culm core's endpoint at a step's start: its rings are as its code sets them; its channels' epochs and numbers start at 0 (R288, R301). -/
def CoreCh.culmStart (h : CoreCh) : CoreCh :=
  { h with chans := h.chans.map fun x => (x.1, { x.2 with epoch := 0, seq := 0 }), resvs := [], xfers := [], outs := [], portFree := 0 }

/-- A core at a step's start. first: the first step of a frame, which issues the implicit fetches. -/
def Core.stepStart (k : Core) (g : Image) (e : CoreEntry) (first : Bool) : Core :=
  let pos := if first then e.start else match k.seq.ended with | some x => x.2 | none => k.seq.pos
  let k1 := { k with
    eng := [], fcnt := [], fold := [], item := none, flights := [], strms := [], mx := {}, sp := { k.sp with sb := [] }
    seq := { base := k.seq.base, len := k.seq.len, pos := pos }, ch := k.ch.stepStart e.rings }
  let fs := (List.range e.blocks.length).filterMap fun n => match e.blocks[n]? with
    | some b => if b.count = 0 || 6 ≤ n then none else some (mkFetch k1 (some g) n b.src (b.addr * 64) b.count (if b.src = 0 then 1200 else 16) 0)
    | none => none
  if first then { k1 with seq := { k1.seq with fetches := fs } } else k1

/-- A step begins on every core of a partition at step cycle 0. A Culm core keeps its rings; its traffic with the cores ends with the step
(log entry 46). -/
def State.startStep (s : State) (p : Nat) (first : Bool) : State :=
  let q := s.part p
  match q.img.image, q.run.frame with
  | some g, some f =>
    let s1 := s.eachCore p fun l k => k.stepStart g (g.coreEntry f.ept l) first
    let s2 : State := { s1 with hbm := { s1.hbm with net := s1.hbm.net.filter fun m => m.part != p || m.kind == mRemote } }
    s2.modPart p fun q => { q with
      run := { q.run with net := [], stepRun := true, stepCyc := 0, claims := [] }
      culm := q.culm.map fun x => (x.1, x.2.culmStart) }
  | _, _ => s

/-- The first cycle of a frame begins unless a hold is in effect (R91, R310). -/
def State.beginFrame (s : State) (p : Nat) : State :=
  let r := (s.part p).run
  if r.frame.isSome && !r.stepRun && !r.held then s.startStep p true else s

/-! ### The journal (R475, R510) -/

/-- The header of a journal entry. kind: 0 launched, 1 skipped, 2 throttled. -/
def journalHeader (kind : Nat) (learn : Bool) (ept entry step cut launch n : Nat) : Bytes :=
  natLe 4 0x454A394B ++ natLe 1 kind ++ natLe 1 (b2n learn) ++ natLe 1 ept ++ [0] ++ natLe 2 entry ++ zeros 6 ++ natLe 8 step ++
  (if kind = 0 then timeBytes cut else zeros 12) ++ timeBytes launch ++ natLe 8 n ++ zeros 8

/-- Journal bytes taken by the launched entries, and entries in the reserve (R510). -/
def PCkpt.used (k : PCkpt) : Nat := ((k.journal.filter fun j => j.cause == 0).map JEntry.size).sum
def PCkpt.reserve (k : PCkpt) : Nat := (k.journal.filter fun j => j.cause != 0).length

/-- PART_JRNL.FILL: the retained span in percent of the journal size (R510). -/
def Part.journalFill (q : Part) : Nat :=
  match q.img.image with
  | some g => (q.ck.journal.map JEntry.size).sum * 100 / max 1 g.journalSize
  | none => 0

/-- The mutable section of a partition, from offset 0, with the units that cannot be read (R343). -/
def State.mutable (s : State) (q : Part) : List Host.Cell × List Nat :=
  match q.img.image with
  | some g =>
    let o := s.regionOff q 1
    let n := g.mutSize
    ((q.img.hbm.filter fun c => decide (o ≤ c.1 ∧ c.1 < o + n)).map fun c => (c.1 - o, c.2),
     ((q.img.hbmPoison ++ q.img.hbmUe).filter fun u => decide (o ≤ u * 64 ∧ u * 64 < o + n)).foldl (fun l u => setIns l (u - o / 64)) [])
  | none => ([], [])

/-- A checkpoint of a partition as it stands (R507, R509). -/
def State.checkpointOf (s : State) (p : Nat) : Ckpt :=
  let q := s.part p
  let m := s.mutable q
  { valid := true, step := q.ctl.stepCount, seed := q.ctl.seed, bir := s.bir p, journalN := q.ck.journalN, chain := q.ck.chain
    mut_ := m.1, mutPoison := m.2, time := s.now }

/-- The 512 bytes of a checkpoint's header that are not 0 (R509). -/
def ckptHeader (keys : Bytes) (k : Ckpt) (size : Nat) (commit : Bool) : Bytes :=
  natLe 4 0x4B43394B ++ natLe 2 1 ++ zeros 2 ++ natLe 8 k.step ++ natLe 8 k.journalN ++ fit 64 k.chain ++ fit 256 k.bir ++
  fit 48 (Config.gcm (Config.shake ([0x4B, 0x39, 0x53, 0x45, 0x45, 0x44] ++ keys.take 32) 32) (natLe 8 k.step ++ zeros 4) [] (fit 32 k.seed)) ++
  Config.shake (memRead k.mut_ 0 size) 64 ++ zeros 52 ++ (if commit then natLe 4 0x5A5AA5A5 else zeros 4)

/-- Requests of a priority for the mutable section (R351): a restore, a checkpoint copy, a REPLAY. -/
def State.remoteMutable (s : State) (p prio : Nat) : State :=
  match (s.part p).img.image with
  | some g => s.remote p prio (s.regionOff (s.part p) 1) g.mutSize
  | none => s

/-- Launches are skipped for JOURNAL_FULL (R510). -/
def PCkpt.full (k : PCkpt) : Bool := match k.journal.getLast? with | some j => j.cause == 3 | none => false

/-- The priority of a checkpoint's copy (R351, R510). -/
def PCkpt.copyPrio (k : PCkpt) : Nat := if k.full then 2 else 5

/-- A checkpoint begins (R507, R508): the slot that it takes holds none from now on, its content is fixed, and the copy runs. -/
def State.beginCheckpoint (s : State) (p : Nat) : State :=
  let k := { s.checkpointOf p with mut_ := [], mutPoison := [] }
  (s.remoteMutable p (s.part p).ck.copyPrio).modPart p fun q => { q with
    ck := { q.ck with
      copying := some ([], false), copy := k, lastCkpt := s.now, slots := q.ctl.ckpt
      slotA := if q.ck.slotA.valid && !q.ck.newest then q.ck.slotA else {}, slotB := if q.ck.slotA.valid && !q.ck.newest then {} else q.ck.slotB }
    ctl := { q.ctl with ckpt := [] } }

/-- At a frame boundary a checkpoint begins when its period, a pending CHECKPOINT or the journal fill calls for one and none is copying (R507,
R510). [DEDUCED log entry 92] -/
def State.checkpointAt (s : State) (p : Nat) : State :=
  let q := s.part p
  if q.ck.copying.isNone && q.img.image.isSome && (decide (q.ck.lastCkpt + q.ck.periodMs * 1000000 * 65536 ≤ s.now) || !q.ctl.ckpt.isEmpty ||
      decide (75 ≤ q.journalFill)) then s.beginCheckpoint p else s

/-- A launched entry finds room (R510). -/
def State.journalRoom (s : State) (p : Nat) (tensor : Bytes) : Bool :=
  match (s.part p).img.image with
  | some g => decide ((s.part p).ck.used + 64 + (g.inputSlots tensor).length ≤ g.journalSize - mib)
  | none => false

/-- STEP_COUNT at which the next launched frame begins: after the frames that are journalled. [DEDUCED log entry 94] -/
def Part.nextStep (q : Part) : Nat :=
  match q.ck.stage, q.ck.journal.reverse.find? (fun j => j.cause == 0), q.img.image with
  | 0, _, _ => q.ctl.stepCount
  | 4, _, _ => q.ctl.stepCount
  | _, some j, some g => j.step + g.stepsOf j.ept j.learn
  | _, _, _ => q.ctl.stepCount

/-- The full stripes of a stripe buffer are written with their parity (R340, R510): of the ring of launched entries, or of the reserve in the last
1 MiB. [DEDUCED log entry 138] -/
def State.journalStripes (p : Nat) (launched : Bool) (ring : Nat) : Nat → State → State
  | 0, s => s
  | f + 1, s =>
    let k := (s.part p).ck
    let n := s.protBytes
    let buf := if launched then k.jbuf else k.rbuf
    if buf.length < n then s else
    let i := if launched then k.jcount % max 1 ring else ring + k.rcount % (mib / n)
    let s1 := (s.writeParity p 6 (i * n) n fun x => buf.getD (x - i * n) 0).hbmStore p (s.regionOff (s.part p) 6 + i * n) (buf.take n)
    let s2 := (s1.remote p 1 (s1.regionOff (s1.part p) 6 + i * n) n).modCk p fun k =>
      if launched then { k with jbuf := k.jbuf.drop n, jcount := k.jcount + 1 } else { k with rbuf := k.rbuf.drop n, rcount := k.rcount + 1 }
    journalStripes p launched ring f s2

/-- The bytes of an entry go to the journal's stripe buffer, or the reserve's (R340, R510). -/
def State.journalWrite (s : State) (p : Nat) (launched : Bool) (bs : Bytes) : State :=
  match (s.part p).img.image with
  | none => s
  | some g =>
    (s.modCk p fun k => if launched then { k with jbuf := k.jbuf ++ bs } else { k with rbuf := k.rbuf ++ bs }).journalStripes p launched
      ((g.journalSize - mib) / s.protBytes) (bs.length / s.protBytes + 1)

/-- An entry joins the journal and its digest the chain (R475). Answers the entry. [DEDUCED log entry 138] -/
def State.journalAppend (s : State) (p cause entry ept : Nat) (learn : Bool) (cut launch : Nat) (tensor : Bytes) : JEntry × State :=
  let q := s.part p
  let kind := if cause = 0 then 0 else if cause = 2 then 2 else 1
  let n := q.ck.journalN + 1
  let step := q.nextStep
  let h := journalHeader kind learn ept entry step cut launch n
  let t := match q.img.image with | some g => if cause = 0 then g.inputSlots tensor else [] | none => []
  let chain := Config.shake (q.ck.chain ++ Config.shake (h ++ t) 64) 64
  let j : JEntry := ⟨entry, ept, learn, cut, launch, cause, step, tensor, 64 + t.length, chain⟩
  (j, (s.modCk p fun k => { k with journal := k.journal ++ [j], journalN := n, chain := chain }).journalWrite p (cause == 0) (h ++ t))

/-! ### Launch table entries (R92, R97) -/

/-- The RW bits of an entry, over the RO fields that State holds apart; reserved bits are 0 (R9, R90). -/
def lteRw (b : Bytes) : Bytes :=
  [b.getD 0 0 &&& 0x0F, b.getD 1 0 &&& 0x3F, b.getD 2 0 &&& 0x7F, 0] ++ sub b 4 40 ++ zeros 20

/-- An entry takes effect (R92, R93, R97): its series starts again, and a trigger of the old entry whose cut was made is dropped; a single instant already
past is a notice. -/
def State.lteEffect (s : State) (x : Nat × Bytes) : State :=
  let s1 := (s.modLte x.1 fun e => { e with raw := lteRw x.2, since := s.now, cyc := 0, lastT := none, trigN := none, evt := none }).modRun (s.lte x.1).part
    fun r => { r with triggers := r.triggers.filter fun g => g.entry != x.1 }
  let e := s1.lte x.1
  if e.en && e.trig == 0 && e.period == 0 && decide (e.anchor ≤ s.now) then s1.record 2 0x0013 0x08 e.part [] else s1

/-- The pending changes of a partition take effect. -/
def State.ltesEffect (s : State) (p : Nat) : State :=
  let l := (s.part p).ctl.lteP
  l.foldl State.lteEffect (s.modCtl p fun c => { c with lteP := [] })

/-- A partition has an enabled entry. -/
def State.anyEnabled (s : State) (p : Nat) : Bool := s.ltes.any fun e => e.2.owned && e.2.part == p && e.2.en

/-! ### The input cut (R91 to R95, R100, R373) -/

/-- The next trigger instant of an entry whose cut has not been made, and for PHASE its number: the first phase match of a number that is a multiple of EVERY
(R93), extrapolated as far ahead as the cut lead asks (R89, R91). [DEDUCED log entry 82] -/
def State.nextTrigger (s : State) (i : Nat) : Option (Nat × Nat) :=
  let e := s.lte i
  let start := (s.part e.part).ctl.startAt
  match e.trig with
  | 0 =>
    let t0 := max (max (e.since + 1) start) (match e.lastT with | some t => t + 1 | none => 0)
    if t0 ≤ e.anchor then some (e.anchor, 0)
    else if e.period = 0 then none
    else some (e.anchor + ceilDiv (t0 - e.anchor) e.period * e.period, 0)
  | 1 =>
    match (s.awn e.src).drive with
    | some x =>
      if x.freq = 0 then none else
      let n := e.nextPhase x 0
      let ev := max 1 e.every
      let up := fun (k : Nat) => ceilDiv k ev * ev
      let at_ := fun (k : Nat) => n.1 + (k - n.2) * (1000000 * Config.tSec) / x.freq
      let k0 := max (up n.2) (match e.trigN with | some m => up (m + 1) | none => 0)
      let k := k0 + ceilDiv (start - at_ k0) (max 1 (ev * cycleTime x.freq)) * ev
      some (at_ k, k)
    | none => none
  | _ => e.evt.map fun t => (t, 0)

/-- CUT frames of a lead's cut (R364, R523). skip: 0 a cut, 1 skipped, 2 throttled. -/
def State.sendCut (s : State) (p entry cut seq skip : Nat) (tensor : Bytes) : State :=
  let q := s.part p
  let recs : List Bytes := match q.img.image with
    | some g => if skip != 0 then [] else (s.pointsOf p false).filterMap fun (x : Nat × Point) => (g.slots[x.2.slot]?).map fun (t : TSlot) =>
        natLe 2 x.1 ++ natLe 1 (elemAt 5 (tensor.drop t.mask) x.2.elem % 2) ++ natLe 1 x.2.fmt ++ natLe 4 (elemAt t.fmt (tensor.drop t.offset) x.2.elem)
    | none => []
  let flags := if skip = 0 then 0 else if skip = 2 then 5 else 4
  (List.range (max 1 (ceilDiv recs.length 256))).foldl (fun z i =>
    let r := (recs.drop (256 * i)).take 256
    z.rachis 1 (haulmFrame 3 flags 1 p seq cut r.length 15 entry q.ctl.stepCount (fld q.cnt.bir 0 8) r.flatten)) s

/-- PART_EMIT of a frame to come: after the emissions and triggers that wait. -/
def Part.seqAhead (q : Part) : Nat := q.cnt.emit + (q.run.emits.filter fun e => !e.emitted).length + q.run.triggers.length

/-- The input buffer that neither the running frame nor a pending launch holds (R100). [DEDUCED log entry 84] -/
def PRun.freeBuf (r : PRun) : Option Nat :=
  [0, 1].find? fun b => !(match r.frame with | some f => !f.rerun && f.buf == b | none => false) && !r.triggers.any fun t => t.buf == some b

/-- A partition takes the cuts of its partner (R523, R528). [DEDUCED log entry 84] -/
def State.following (s : State) (p : Nat) : Bool :=
  s.twinned p && ((s.part p).twin.role == 2 || (s.part p).st == .shadow || (s.part p).st == .restarting)

/-- INPUT_CUT (R373, R100): the cut of an entry's next trigger, once its instant C has come. Pending point changes apply (R371), a role may
move (R522), a lead sends its cut (R523). A partition that is FAULTED assembles nothing. -/
def execInputCut (entry : Nat) (s : State) : Host.Outcome State Fault Refusal :=
  .next (
    let e := s.lte entry
    let p := e.part
    match s.nextTrigger entry with
    | none => s
    | some (t, k) =>
      let cut := e.cutAt t
      if !(e.owned && (e.en || e.trig == 2) && (s.part p).st.triggers && s.time.runs && decide (cut ≤ s.now)) then s else
      let s1 := s.modLte entry fun x => match x.trig with
        | 0 => { x with lastT := some t }
        | 1 => { x with trigN := some k }
        | _ => { x with evt := none }
      let trig : Trigger := ⟨entry, t, cut, e.launchAt t, none, false, [], 0⟩
      let add := fun (z : State) (x : Trigger) => z.modRun p fun r => { r with triggers := r.triggers ++ [x] }
      let emitT := trig.launch + e.emitOfs * 65536
      if (s.part p).st == .faulted then add (s1.applyPoints p emitT) trig else
      let moves := (s.part p).twin.role == 2 && s.twinned p && !(s.part p).twin.leadServes && ((s.part p).st == .running || (s.part p).st == .held)
      let s2 := if moves then s1.moveRole p 1 else s1
      let a := (s2.applyPoints p emitT).assemble p cut
      let buf := (a.2.part p).run.freeBuf
      let s3 := a.2.modPart p fun q => { q with
        run := { q.run with buf0 := if buf == some 0 then a.1 else q.run.buf0, buf1 := if buf == some 1 then a.1 else q.run.buf1 }
        twin := if q.twin.role == 2 && q.twin.isolated then { q.twin with solo := satAdd q.twin.solo 1 } else q.twin }
      let q3 := s3.part p
      let s4 := if q3.twin.role == 1 && s3.twinned p && (q3.st == .running || q3.st == .held) then s3.sendCut p entry cut q3.seqAhead 0 a.1 else s3
      add s4 { trig with buf := buf, data := a.1 })

/-! ### The launch decision (R99) -/

/-- Emissions in order of their instants. -/
def insertEmit (e : Emit) : List Emit → List Emit
  | [] => [e]
  | x :: t => if e.emitT < x.emitT then e :: x :: t else x :: insertEmit e t

/-- An emission instant of a launch that runs no inference step (R61, R106, R367). -/
def State.emitOnly (s : State) (p : Nat) (g : Trigger) : State :=
  let e := g.launch + (s.lte g.entry).emitOfs * 65536
  s.modRun p fun r => { r with emits := insertEmit { entry := g.entry, guardT := e - 1000 * 65536, emitT := e, launched := false, step := 2 ^ 64 - 1 } r.emits }

/-- A launch that is skipped, throttled, finds the journal full or is suppressed (R61, R94, R99, R106, R510). cause as in JEntry. [DEDUCED log entry 81, DEDUCED log entry 87] -/
def State.skipLaunch (s : State) (p : Nat) (g : Trigger) (cause : Nat) : State :=
  let q := s.part p
  let e := s.lte g.entry
  let seq := q.cnt.emit + (q.run.emits.filter fun e => !e.emitted).length
  let s1 := s.modCnt p fun c => if cause = 2 then { c with throttle := satAdd c.throttle 1 } else { c with skip := satAdd c.skip 1 }
  let s2 := if cause = 1 || cause = 3 then s1.record 3 0x0013 0x08 p [] else s1
  let s3 := (s2.journalAppend p cause g.entry e.ept q.ctl.learn 0 g.launch []).2
  let s4 := if q.twin.role == 1 && s3.twinned p && (q.st == .running || q.st == .held) then
      s3.sendCut p g.entry g.cut seq (if cause = 2 then 2 else 1) [] else s3
  let s5 := (if cause = 3 && q.run.frame.isNone && (q.st == .running || q.st == .held) then s4.checkpointAt p else s4).emitOnly p g
  if 16384 ≤ (s5.part p).ck.reserve ∧ ((s5.part p).st = .running ∨ (s5.part p).st = .held) then s5.faultedWith p Config.causeNoResource else s5

/-- Pending values that take effect at a launch (R12, R64, R329, R538). -/
def State.pendingValues (s : State) (p : Nat) : State :=
  s.modPart p fun q => { q with
    ctl := { q.ctl with
      learn := q.ctl.learnP.getD q.ctl.learn, learnP := none, dlb := q.ctl.dlbP.getD q.ctl.dlb, dlbP := none
      stall := q.ctl.stallP.getD q.ctl.stall, stallP := none }
    ck := { q.ck with periodMs := q.ck.periodP.getD q.ck.periodMs, periodP := none } }

/-- The frame of a launch (R91, R104): a launch table entry's offsets over its entry point. -/
def newFrame (g : Image) (e : Lte) (entry : Nat) (learn : Bool) (cut launch step0 buf : Nat) (rerun : Bool) : Frame :=
  let emit := launch + e.emitOfs * 65536
  { entry := entry, ept := e.ept, learn := learn, cut := cut, launch := launch, guardT := emit - 1000 * 65536, emitT := emit
    deadline := launch + e.deadlineOfs * 65536, idx := 0, steps := g.stepsOf e.ept learn
    cycles := match g.entries[e.ept]? with | some x => x.cycles | none => []
    step0 := step0, buf := buf, infDone := false, overrun := false, slackSpent := false, rerun := rerun
    heldInf := 0, heldUpd := 0, holds := 0, kinds := 0 }

/-- A frame launches (R99, R100): it is journalled and counted, its input tensor stands in the slots, its emission is to come; pending launch
entries take effect after it (R97). [DEDUCED log entry 102] -/
def State.launchFrame (s : State) (p : Nat) (g : Trigger) : State :=
  match (s.part p).img.image with
  | none => s
  | some im =>
    let s1 := s.pendingValues p
    let q := s1.part p
    let e := s1.lte g.entry
    let f := { newFrame im e g.entry q.ctl.learn g.cut g.launch q.ctl.stepCount (g.buf.getD 0) false with
      kinds := if q.run.held then q.run.kindsOn s.cc else 0 }
    let s2 := (s1.journalAppend p 0 g.entry e.ept q.ctl.learn g.cut g.launch g.data).2
    let s3 := ((s2.hbmStore p (s2.regionOff q 2) g.data).remote p 1 (s2.regionOff q 2) g.data.length).modPart p fun q => { q with
      run := { q.run with frame := some f, emits := insertEmit { entry := g.entry, guardT := f.guardT, emitT := f.emitT, launched := true, step := f.step0 } q.run.emits }
      ctl := { q.ctl with lastLaunch := some g.launch, lastEpt := some e.ept, lastLearn := q.ctl.learn }
      cnt := { q.cnt with frames := satAdd q.cnt.frames 1 }
      pwr := { q.pwr with watts := if q.pwr.drawN = 0 then q.pwr.watts else q.pwr.drawSum / q.pwr.drawN, drawSum := 0, drawN := 0 } }
    ((s3.modLte g.entry fun x => { x with fired := x.fired + 1 }).ltesEffect p).beginFrame p

/-- A launch during a restart or the catch-up of SHADOW (R69, R528): journalled, to be re-executed; its emission falls back. [DEDUCED log entry 94] -/
def State.journalLaunch (s : State) (p : Nat) (g : Trigger) : State :=
  let s1 := s.pendingValues p
  let q := s1.part p
  let e := s1.lte g.entry
  let r := s1.journalAppend p 0 g.entry e.ept q.ctl.learn g.cut g.launch g.data
  let s2 := r.2.modPart p fun q => { q with
    ck := { q.ck with catchUp := q.ck.catchUp ++ [r.1] }
    ctl := { q.ctl with lastLaunch := some g.launch, lastEpt := some e.ept, lastLearn := q.ctl.learn } }
  (s2.ltesEffect p).emitOnly p g

/-- A partition rejoins or takes over at a launch (R525, R528, R534): RUNNING, as follower, in its former role, or as lead. [DEDUCED log entry 102] -/
def State.rejoinNow (s : State) (p : Nat) : State :=
  let t := (s.part p).twin
  let s1 := match t.hslot with
    | some n => ((s.modPTwin p fun t => { t with hslot := none, rejoin := false, was := 0 }).moveRole p 1).finish n stOk []
    | none => (s.modPTwin p fun t => { t with rejoin := false, was := 0 }).moveRole p (if t.was = 0 then 2 else t.was)
  (s1.modCk p fun k => { k with stage := 0 }).toState p .running

/-- A launch falls before L + T_min (R106). [DESIGN CHOICE log entry 42] -/
def Part.throttled (q : Part) (l : Nat) : Bool := match q.ctl.lastLaunch with | some x => decide (l < x + q.pwr.tmin * 65536) | none => false

/-- The decision for the entry that prevails (R99, R523). -/
def State.decide1 (s : State) (p : Nat) (g : Trigger) : State :=
  let q := s.part p
  let e := s.lte g.entry
  let suppressed := e.trig = 1 && s.noLock e.src
  if q.st = .faulted then s.emitOnly p g
  else if q.st = .shadow ∧ q.twin.role ≠ 0 ∧ !s.twinned p then s.emitOnly p g
  else
    let fol := s.following p
    let live := q.st = .running || q.st = .held || q.ck.stage = 4
    if live && !q.ctl.stop.isEmpty && q.run.frame.isNone then s.emitOnly p g
    else if fol && (g.lead = 2 || g.lead = 0) then s.skipLaunch p g 1
    else if fol && g.lead = 3 then s.skipLaunch p g 2
    else if !fol && suppressed then s.skipLaunch p g 4
    else if !live then
      if !fol && q.throttled g.launch then s.skipLaunch p g 2
      else if !s.journalRoom p g.data then s.skipLaunch p g 3
      else s.journalLaunch p g
    else if fol && (q.twin.fresh || q.twin.resync || q.run.frame.isSome) &&
        (q.twin.resync || q.run.frame.isSome || q.twin.hisN != q.ck.journalN) && (q.st = .running || q.st = .held) then
      ((s.modPTwin p fun t => { t with fresh := false, resync := false, fromLead := true }).twinFault p 0x22).skipLaunch p g 1
    else
      let s1 := s.modPTwin p fun t => { t with fresh := false }
      if q.run.frame.isSome || g.buf.isNone then s1.skipLaunch p g 1
      else if !fol && q.throttled g.launch then s1.skipLaunch p g 2
      else if !s.journalRoom p g.data then s1.skipLaunch p g 3
      else
        let s2 := if q.st = .restarting then (s1.modCk p fun k => { k with stage := 0 }).toState p .running
          else if q.st = .shadow && q.twin.rejoin then s1.rejoinNow p else s1
        s2.launchFrame p g

/-- The lowest launch instant that waits. [DEDUCED log entry 83] -/
def PRun.nextLaunch (r : PRun) : Option Nat := r.triggers.foldl (fun m g => match m with | some x => some (min x g.launch) | none => some g.launch) none

/-- Pending entries of a partition left without an enabled one, by ONCE, take effect at once where no frame runs (R97). -/
def State.entriesSpent (s : State) (p : Nat) : State :=
  if !s.anyEnabled p && (s.part p).run.frame.isNone && !(s.part p).ctl.lteP.isEmpty then s.ltesEffect p else s

/-- LAUNCH_DECISION (R99, R63): the triggers of a partition that fall due in one cc, once it has come. The lowest entry prevails, the others
are collisions; a dropped event is a skipped launch (R95). [DEDUCED log entry 83, DEDUCED log entry 87] -/
def execLaunchDecision (p : Nat) (s : State) : Host.Outcome State Fault Refusal :=
  .next (match (s.part p).run.nextLaunch with
  | none => s
  | some l =>
    if !(s.time.runs && decide (l ≤ s.now)) then s else
    let hit := fun (g : Trigger) => decide (g.launch < l + 26215)
    let gs := (s.part p).run.triggers.filter hit
    let s1 := gs.foldl (fun z g => if (z.lte g.entry).trig = 2 then z else z.onceDone g.entry) (s.modRun p fun r => { r with triggers := r.triggers.filter fun g => !hit g })
    if !(s.part p).st.triggers then s1 else State.entriesSpent (
    let due := gs.filter fun g => !g.suppressed
    let s2 := (gs.filter fun g => g.suppressed).foldl (fun z g => if (z.part p).st = .faulted then z.emitOnly p g else z.skipLaunch p g 4) s1
    match due with
    | [] => s2
    | a :: t =>
      let w := t.foldl (fun m g => if g.entry < m.entry then g else m) a
      (s2.modCnt p fun c => { c with coll := satAdd c.coll t.length }).decide1 p w) p)

end Sys2Proof.Machine
end

