-- ==== Sys2Proof/Machine/Frames.lean ====
section
/-! DEFINITION. The guard and emission instants (R101 to R103, R377 to R381), deadlines, the step barrier and the end of a frame (R136). -/

namespace Sys2Proof.Machine

/-! ### The guard (R101) -/

/-- STEP_END has completed on every core of a partition. -/
def State.allComplete (s : State) (p : Nat) : Bool := (s.part p).res.place.all fun c => (s.core c).seq.complete.isSome

/-- The emission belongs to the frame that runs. -/
def Emit.ofFrame (e : Emit) (r : PRun) : Bool := match r.frame with | some f => !f.rerun && f.entry == e.entry && f.emitT == e.emitT | none => false

/-- The inference step of an emission's launch has begun and has ended on every logical core. [DEDUCED log entry 86] -/
def State.outputReady (s : State) (p : Nat) (e : Emit) : Bool :=
  let r := (s.part p).run
  e.launched && (if e.ofFrame r then (match r.frame with | some f => f.infDone || (r.stepRun && s.allComplete p) | none => true) else true)

/-- What the guard takes for an emission (R101, R139). [DEDUCED log entry 86] -/
def State.guardTakes (s : State) (p : Nat) (e : Emit) : Emit :=
  let q := s.part p
  let ok := s.outputReady p e && !q.run.byBreak
  { e with took := some ok, vals := if ok then s.outputPart p else [] }

/-- The guard's read of the output slots reaches the pseudo-channels (R351). -/
def State.guardReads (s : State) (p : Nat) (e : Emit) : State :=
  match (s.part p).img.image with
  | some g => if e.took == some true then s.remote p 1 (s.regionOff (s.part p) 2 + g.slotsIn) g.slotsOut else s
  | none => s

def PRun.modEmit (r : PRun) (old new : Emit) : PRun := { r with emits := r.emits.map fun x => if x == old then new else x }

/-- GUARD_INSTANT (R101): the output tensor if the inference step has ended, fallback values otherwise. Slack that holds have spent is
noted (R105). -/
def execGuardInstant (p : Nat) (s : State) : Host.Outcome State Fault Refusal :=
  .next (match (s.part p).run.emits.find? fun e => e.took.isNone && decide (e.guardT ≤ s.now) with
  | none => s
  | some e =>
    let g := s.guardTakes p e
    let spent := e.launched && g.took == some false && e.ofFrame (s.part p).run
    (s.guardReads p g).modRun p fun r => { r.modEmit e g with frame := r.frame.map fun f => if spent && f.heldInf != 0 then { f with slackSpent := true } else f })

/-- EMISSION_WINDOW (R381): from 2 us before E the ports of the partition start no other transmission. -/
def execEmissionWindow (p : Nat) (s : State) : Host.Outcome State Fault Refusal :=
  .next (match (s.part p).run.emits.find? fun e => !e.emitted && !e.window && decide (e.emitT ≤ s.now + 2000 * 65536) with
  | none => s
  | some e => s.modRun p fun r => r.modEmit e { e with window := true })

/-- The values that the guard gives for a tensor without emitting them, widened (R534, log entry 47). -/
def State.guardedValues (s : State) (p : Nat) (vals : Bytes) : List Nat × Bool :=
  let g := (s.part p).img.image
  let rs := (s.pointsOf p true).map fun x =>
    let el := match g with | some g => (g.slots[x.2.slot]?).map fun t => elemAt t.fmt (vals.drop t.offset) x.2.elem | none => none
    let r := x.2.guard g (if x.2.hasL then some x.2.lastVal else none) el
    ((convert x.2.wfmt 8 true false r.1).code, r.2.1)
  (rs.map (·.1), rs.any (·.2))

/-- PORT_EMIT.MAXDEV (R102, R383): the first setpoint frame of each port of a partition left now, for an emission instant. [DESIGN CHOICE log entry 25] -/
def State.firstDeviation (s : State) (p emitT : Nat) : State :=
  ((s.pointsOf p true).map fun x => x.2.port).eraseDups.foldl (fun z i => z.modPort i fun x => { x with maxDev := max x.maxDev (min 65535 ((s.now - emitT) / 4096)) }) s

/-- EMISSION (R102, R367, R377 to R380, R527): every bound output point leaves once; fallback values where the guard took none, outside
RUNNING and HELD, and from an isolated follower under policy 0. Late values that are ready follow. -/
def execEmission (p : Nat) (s : State) : Host.Outcome State Fault Refusal :=
  .next (match (s.part p).run.emits.find? fun e => !e.emitted && decide (e.emitT ≤ s.now) with
  | none => s
  | some e0 =>
    let s := s.applyOutputs p e0.emitT
    let q := s.part p
    let e1 := if e0.took.isNone then s.guardTakes p e0 else e0
    let serves := (q.st == .running || q.st == .held) && !(q.twin.role == 2 && q.twin.isolated && !s.twin.isolate)
    let use := e1.took == some true && serves
    let seq := q.twin.emitP.getD q.cnt.emit
    let e := { e1 with seq := seq, emitted := true, lasts := (s.pointsOf p true).map fun x => (x.1, if x.2.hasL then some x.2.lastVal else none) }
    let shadowVals := s.guardedValues p e.vals
    let sa := if q.twin.emitP.isSome then s.record 3 0x0013 0x08 p [] else s
    let r := sa.emitAll p e (if use then some e.vals else none) none fun _ => true
    let s1 := ((r.1.firstDeviation p e.emitT).modCnt p fun c => { c with emit := (seq + 1) % 2 ^ 64 }).modPTwin p fun t => { t with emitP := none }
    let s2 := if r.2 || !use then s1.modLte e.entry fun x => { x with fallbacks := satAdd x.fallbacks 1 } else s1
    let late := e.launched && e.took == some false
    let running := e.ofFrame q.run && (match q.run.frame with | some f => !f.infDone | none => false)
    let s3 := s2.modRun p fun r => { r with emits := if late && running then (r.modEmit e0 e).emits else r.emits.filter (· != e0) }
    let s4 := if late && !running && serves then s3.emitLate p e (s3.outputPart p) else s3
    if !q.twin.tolMode then s4
    else if q.st == .shadow then (if e.took == some true then s4.sendValues p seq shadowVals.1 shadowVals.2 else s4)
    else s4.sendValues p seq ((s4.pointsOf p true).map fun x => x.2.lastVal) (r.2 || !use))

/-- DEADLINE (R62): a frame that has not ended is an overrun. -/
def execDeadline (p : Nat) (s : State) : Host.Outcome State Fault Refusal :=
  .next (match (s.part p).run.frame with
  | none => s
  | some f =>
    if f.overrun || f.rerun || decide (s.now < f.deadline) then s else
    ((s.modRun p fun r => { r with frame := some { f with overrun := true } }).modCnt p fun c => { c with overrun := satAdd c.overrun 1 }).record
      4 0x0013 0x08 p [])

/-! ### The end of a step (R57, R136, R320, R380, R524) -/

/-- Cycle at which the last core of a partition completed STEP_END. -/
def State.lastComplete (s : State) (p : Nat) : Nat := ((s.part p).res.place.map fun c => (s.core c).seq.complete.getD 0).foldl max 0

/-- The barrier of a partition's step passes (R136): exactly 160 cc after the last core completed STEP_END in slotted mode, at most 640 cc after it in queued
mode. [DEDUCED log entry 85] -/
def State.barrierDue (s : State) (p : Nat) : Bool :=
  let q := s.part p
  let t := s.lastComplete p
  q.run.stepRun && !q.run.held && s.allComplete p &&
  (if q.slotted then q.run.stepCyc == t + 160 else decide (t ≤ q.run.stepCyc) && decide (q.run.stepCyc ≤ t + 640))

/-- Output digests of a frame that emits: to the field ports, to the partner, and compared (R524, R525). -/
def State.digestOut (s : State) (p : Nat) (f : Frame) (seq : Nat) (d : Bytes) : State :=
  let q := s.part p
  let s1 := s.modRun p fun r => { r with digests := r.digests ++ [(seq, f.step0, f.emitT, d)] }
  if !s1.twinned p then s1 else
  ((s1.rachis 1 (haulmFrame 4 0 q.twin.role p seq f.emitT 32 5 0 f.step0 (fld q.cnt.bir 0 8) d)).modPTwin p fun t => { t with
    local_ := t.local_ ++ [⟨seq, f.step0, f.cut, f.deadline, d⟩] }).compareDigest p f.step0

/-- The inference step of the frame has ended: its digest, and its late values once E has passed (R380, R524). A re-executed frame under
comparison gives its digest in a REDIGEST block (R525). -/
def State.inferenceEnds (s : State) (p : Nat) (f : Frame) : State :=
  let q := s.part p
  let out := s.outputPart p
  let s1 := s.modRun p fun r => { r with frame := r.frame.map fun f => { f with infDone := true } }
  match q.img.image with
  | none => s1
  | some g =>
    if f.rerun then
      match q.twin.div with
      | some (st, _, _) => if st = f.step0 then
          let d := outputDigest g out ((q.twin.local_.find? fun x => x.step == st).elim q.cnt.emit TDig.seq) st
          ((s1.modPTwin p fun t => { t with redMine := some d }).sendObject 9 p st d).resolveDiv p
        else s1
      | none => s1
    else
      let e := q.run.emits.find? fun e => e.ofFrame q.run
      let ahead := (q.run.emits.takeWhile fun x => some x != e).filter fun x => !x.emitted
      let seq := match e with | some e => if e.emitted then e.seq else q.cnt.emit + ahead.length | none => q.cnt.emit
      let s2 := s1.digestOut p f seq (outputDigest g out seq f.step0)
      match e with
      | some e => if e.emitted then
          let s3 := s2.modRun p fun r => { r with emits := r.emits.filter (· != e) }
          if e.took == some false && (q.st == .running || q.st == .held) then s3.emitLate p e out else s3
        else s2
      | none => s2

/-- The step that ends settles the fault that arose in it (R320): no fault in the rerun makes it transient, or a detection; its unit is
charged. -/
def State.settleEnded (s : State) (p : Nat) : State :=
  let q := s.part p
  match q.ck.cls with
  | some (f, cls, idx) =>
    if f.step != q.ctl.stepCount then s else
    let c := if scheduleClass f.cause then 2 else 3
    (s.modPart p fun q => { q with ck := { q.ck with cls := none }, cnt := { q.cnt with fClass := c } }).charge cls idx
  | none => s

/-- The target step of a REPLAY has ended (R333): what it is to capture is copied and the run stops. In the rerun of a fault that arose in it (R334) the
run stops when the fault is settled. [DEDUCED log entry 90] -/
def State.replayEnded (s : State) (p : Nat) : State :=
  let q := s.part p
  match q.ck.replay with
  | some r =>
    if r.ended || (if r.aborted then q.ck.cls.isSome else r.target != q.ctl.stepCount) then s else
    let out := if r.mutSec && !r.aborted then (match q.img.image with | some g => memRead q.img.hbm (s.regionOff q 1) g.mutSize | none => []) else []
    ((s.modCk p fun k => { k with replay := some { r with ended := true } }).modImg p fun m => { m with fault := { m.fault with mutOut := out } }).stopRun p
  | none => s

/-- The hold record of a frame (R317). [DEDUCED log entry 99] -/
def State.holdRecord (s : State) (p : Nat) (f : Frame) : State :=
  let s1 := s.modCnt p fun c => { c with holdKinds := f.kinds }
  if f.heldInf + f.heldUpd = 0 then s1 else
  s1.record (if f.slackSpent then 3 else 1) 0x0012 0x08 p
    (natLe 4 (min f.heldInf 4294967295) ++ natLe 4 (min f.heldUpd 4294967295) ++ natLe 2 (min f.holds 65535) ++ natLe 1 f.kinds ++
      natLe 1 (b2n f.slackSpent + 2 * b2n f.overrun) ++ natLe 4 f.step0)

/-- What every step end does: the inference output, the classification, STEP_COUNT, a REPLAY's target. -/
def State.stepEnds (s : State) (p : Nat) (f : Frame) : State :=
  let s1 := if f.idx = 0 then s.inferenceEnds p f else s
  let s2 := (s1.settleEnded p).replayEnded p
  s2.modCtl p fun c => { c with stepCount := (c.stepCount + 1) % 2 ^ 64 }

/-- STEP_BARRIER (R136): the next step of the frame begins on every core, and STEP_COUNT has risen. A REPLAY that ends here makes the hold record of the
part of the frame that ran (R317). [DEDUCED log entry 85] -/
def execStepBarrier (p : Nat) (s : State) : Host.Outcome State Fault Refusal :=
  .next (match (s.part p).run.frame with
  | none => s
  | some f =>
    if f.idx + 1 < f.steps && s.barrierDue p then
      let s1 := s.stepEnds p f
      match (s1.part p).run.frame with
      | none => s1.holdRecord p f
      | some f1 => (s1.modRun p fun r => { r with frame := some { f1 with idx := f.idx + 1 } }).startStep p false
    else s)

/-! ### The end of a frame (R136, R317) -/

/-- Discards counted in the frame are one notice (R303), for which no table gives a code (log entry 44). -/
def State.dropNotice (s : State) (p : Nat) : State :=
  let q := s.part p
  let any := (q.res.place.any fun c => (s.core c).ch.drops) || q.culm.any fun x => x.2.drops
  if !any then s else
  let s1 := (s.eachCore p fun _ k => { k with ch := { k.ch with drops := false } }).modPart p fun q => { q with
    culm := q.culm.map fun x => (x.1, { x.2 with drops := false }) }
  (s1.record 2 (s.fresh 16) 0x08 p []).bumpFree

/-- Transmit ANs switch at the frame boundary of the partition that holds the port (R362). [DEDUCED log entry 35] -/
def State.switchAns (s : State) (p : Nat) : State :=
  let f := fun (a : Nat × Assoc) =>
    if bit (s.part p).res.ports a.2.port && a.2.anPend.isSome then (a.1, { a.2 with an := a.2.anPend, anPend := none }) else a
  s.modField fun x => { x with assocs := x.assocs.map f }

/-- The end of a re-executed frame (R69, R72): the next is to come; a STOP takes effect, and the journal ends with this frame. [DEDUCED log entry 92] -/
def State.rerunEnds (s : State) (p : Nat) : State :=
  let q := s.part p
  match q.ck.catchUp with
  | [] => s
  | j :: rest =>
    let s1 := s.modCk p fun k => { k with catchUp := rest }
    if q.ctl.stop.isEmpty then s1 else
    let after := q.ck.journal.reverse.takeWhile fun x => x.chain != j.chain
    (s1.modCk p fun k => { k with
      journal := k.journal.take (k.journal.length - after.length), journalN := k.journalN - after.length, chain := j.chain }).toArmed p

/-- FRAME_END (R136): the last step of the frame has ended. At the boundary the frame's records are made, the grant, transmit ANs and pending
entries follow, a checkpoint begins, a STOP takes effect; one with a CHECKPOINT that waits for the copy in progress waits for it (R73, log entry 137). -/
def execFrameEnd (p : Nat) (s : State) : Host.Outcome State Fault Refusal :=
  .next (match (s.part p).run.frame with
  | none => s
  | some f =>
    if !(f.idx + 1 == f.steps && s.barrierDue p) then s else
    let s1 := s.stepEnds p f
    let s2 := s1.modRun p fun r => { r with stepRun := false, frame := none }
    if (s2.part p).ck.replay.isSome then (s2.holdRecord p f).rerunEnds p else
    let s3 := (((s2.holdRecord p f).dropNotice p).takeGrant p).switchAns p
    let s4 := if s3.anyEnabled p then s3 else s3.ltesEffect p
    if f.rerun then s4.rerunEnds p
    else
      let s5 := s4.checkpointAt p
      if (s5.part p).ctl.stop.isEmpty || !(s5.part p).ctl.ckpt.isEmpty then s5 else s5.toArmed p)

end Sys2Proof.Machine
end

