-- ==== Sys2Proof/Machine/Streams.lean ====
section
/-! DEFINITION. The stream engines (08): LOAD, STORE and ZERO, their units at the due cycles, their checks and buffers. -/

namespace Sys2Proof.Machine

/-! ### The descriptor (R256 to R260) -/

def stSp (w : IWord) : Nat := wbits w 83 64
def stDesc (w : IWord) : Nat := wbits w 103 84
def stHadd (w : IWord) : Nat := wbits w 127 104

def sdSrc (d : Bytes) : Nat := fld d 8 1 % 16
def sdDst (d : Bytes) : Nat := fld d 8 1 / 16
def sdFlags (d : Bytes) : Nat := fld d 9 1
def sdStrict (d : Bytes) : Bool := bit (sdFlags d) 0
def sdSat (d : Bytes) : Bool := bit (sdFlags d) 1
/-- NDIM less 1. -/
def sdNdim (d : Bytes) : Nat := sdFlags d / 4 % 8
def sdLead (d : Bytes) : Nat := fld d 12 4
def sdPace (d : Bytes) : Nat := fld d 16 2
/-- Elements of a row. -/
def sdC0 (d : Bytes) : Nat := fld d 20 3 + 1
/-- Count of dimension i + 1. -/
def sdCnt (d : Bytes) (i : Nat) : Nat := fld d (24 + 8 * i) 2 + 1
/-- HBM stride of dimension i + 1 in bytes. -/
def sdStride (d : Bytes) (i : Nat) : Int := toSigned 48 (fld d (26 + 8 * i) 6)

/-- The format of the scratchpad side, and of the HBM side (R258). -/
def spFmt (op : Nat) (d : Bytes) : Nat := if op = 2 then sdSrc d else sdDst d
def hbmFmt (op : Nat) (d : Bytes) : Nat := if op = 2 then sdDst d else sdSrc d

def sdRows (d : Bytes) : Nat := ((List.range 4).map (sdCnt d)).foldl (· * ·) 1
/-- Scratchpad bytes of a row, and HBM bytes of a row (R178). -/
def sdRowBytes (op : Nat) (d : Bytes) : Nat := fmtBytes (spFmt op d) (sdC0 d)
def sdHbmRow (op : Nat) (d : Bytes) : Nat := fmtBytes (hbmFmt op d) (sdC0 d)
/-- Bytes from row to row in scratchpad (R258). -/
def sdPitch (op : Nat) (d : Bytes) : Nat :=
  let f := fld d 10 2
  if f = 0 then ceilDiv (sdRowBytes op d) 64 * 64 else f * 64
/-- Units of a row, and of the stream (R259). -/
def sdUpr (op : Nat) (d : Bytes) : Nat := ceilDiv (sdRowBytes op d) 64
def sdUnits (op : Nat) (d : Bytes) : Nat := sdRows d * sdUpr op d
/-- Scratchpad bytes from the first to the last unit. -/
def sdSpan (op : Nat) (d : Bytes) : Nat := (sdRows d - 1) * sdPitch op d + sdUpr op d * 64

/-- HBM offset of row r (R258). -/
def sdRowAt (w : IWord) (d : Bytes) (r : Nat) : Int :=
  let c1 := sdCnt d 0
  let c2 := sdCnt d 1
  let c3 := sdCnt d 2
  (fld d 0 8 + stHadd w * 4096 : Nat) + (r % c1 : Nat) * sdStride d 0 + (r / c1 % c2 : Nat) * sdStride d 1 +
    (r / (c1 * c2) % c3 : Nat) * sdStride d 2 + (r / (c1 * c2 * c3) : Nat) * sdStride d 3

/-- The extremes of the HBM span (R260): first byte, and the byte past the last. A LOAD reads whole units. -/
def sdHbmSpan (w : IWord) (d : Bytes) : Int × Int :=
  let ext := (List.range 4).map fun i => ((sdCnt d i : Int) - 1) * sdStride d i
  let base : Int := ((fld d 0 8 + stHadd w * 4096 : Nat) : Int)
  let n : Int := (if wOp w = 2 then sdHbmRow 2 d else ceilDiv (sdHbmRow (wOp w) d) 64 * 64 : Nat)
  (base + (ext.map (min 0)).foldl (· + ·) 0, base + (ext.map (max 0)).foldl (· + ·) 0 + n)

/-- The ranges that a stream may address (R260, R337), rising: for a STORE the mutable section and the output slots. -/
def State.streamRanges (s : State) (q : Part) (store : Bool) : List (Nat × Nat) :=
  let rs := s.regions q
  match q.img.image with
  | none => []
  | some g =>
    let at_ := fun i => match rs[i]? with | some r => (r.off, r.off + r.size) | none => (0, 0)
    let sl := (at_ 2).1
    if store then [at_ 1, (sl + g.slotsIn, sl + g.slotsIn + g.slotsOut)] else [at_ 1, at_ 2, at_ 7]

/-- A span lies in the ranges, crossing between adjacent ones. -/
def spanIn (rs : List (Nat × Nat)) (lo hi : Int) : Bool :=
  decide (0 ≤ lo) && decide (hi ≤ rs.foldl (fun (c : Int) r => if (r.1 : Int) ≤ c ∧ c < r.2 then (r.2 : Int) else c) lo)

/-- STREAM_DESC (R260): the cases in the order listed. [DEDUCED log entry 62, DEDUCED log entry 65] -/
def descBad (w : IWord) (d : Bytes) (ranges : List (Nat × Nat)) (now : Nat) (lastDue : Option Nat) : Bool :=
  let op := wOp w
  let zero := op == 3
  let src := sdSrc d
  let dst := sdDst d
  let fld64 := fun i => fld d (24 + 8 * i) 8
  let odd4 := fun f => is4 f && sdC0 d % 2 == 1
  let span := sdHbmSpan w d
  (decide (32 ≤ sdFlags d) || fld d 18 2 != 0 || fld d 23 1 != 0 || fld d 56 8 != 0 || decide (4 < sdNdim d) ||
    (List.range 4).any fun i => decide (sdNdim d ≤ i) && (if zero then fld64 i % 65536 != 0 else fld64 i != 0)) ||
  (decide (12 ≤ src) || decide (12 ≤ dst) || (if zero then src != 0 else (src == 11 || dst == 11) && src != dst)) ||
  (odd4 dst || (!zero && odd4 src)) ||
  ((!zero && (fld d 0 8 % 64 != 0 || (List.range 4).any fun i => sdStride d i % 64 != 0)) ||
    (fld d 10 2 != 0 && decide (fld d 10 2 * 64 < sdRowBytes op d))) ||
  decide (Config.spBytes < stSp w * 64 + sdSpan op d) ||
  (!zero && !spanIn ranges span.1 span.2) ||
  decide (sdLead d < if op = 1 then 1200 else 8) || decide (sdPace d < 8) ||
  (match lastDue with | some t => decide (now + sdLead d ≤ t) | none => false)

/-! ### Issue (R255, R256, R261, R262) -/

/-- D_u for a stream issued at a cycle (R261). -/
def dueOf (issue : Nat) (d : Bytes) (u : Nat) : Nat := issue + sdLead d + u * sdPace d / 256
/-- The occupancy (R261). -/
def sdOcc (op : Nat) (d : Bytes) : Nat := (sdUnits op d - 1) * sdPace d / 256 + 1
def lastDueOf (op issue : Nat) (d : Bytes) : Nat := issue + sdLead d + sdOcc op d - 1

def descOf (x : Ctx) : Bytes := memRead x.m.mem (stDesc x.word * 64) 64

/-- The request of a stream instruction: the descriptor is read, checked and compared with the scoreboard (R250, R257, R260). -/
def streamReq (s : State) (x : Ctx) : Req :=
  let w := x.word
  let op := wOp w
  let illegal := wMod w != 0 || decide (Config.spUnits ≤ stSp w) || decide (Config.spUnits ≤ stDesc w) || (op == 3 && stHadd w != 0)
  if illegal then { illegal := true } else
  let d := descOf x
  let bad := descBad w d (s.streamRanges x.q (op == 2)) x.now (x.k.eng.getD x.e {}).lastDue
  if (x.m.badIn (stDesc w * 64) 64).isSome then { badRead := x.m.badIn (stDesc w * 64) 64 }
  else if x.m.poison.contains (stDesc w) then { chk := some 0x0C, src := x.m.srcIn (stDesc w, stDesc w) }
  else if bad then { chk := some 0x17 }
  else
    let u := unitsOf (stSp w * 64) (sdSpan op d)
    let dl := lastDueOf op x.now d
    if op = 2 then
      { reads := [(stDesc w, stDesc w), u], takes := [(u.1, u.2, 0, some (max dl (x.now + Config.horizon)))], occ := sdOcc op d }
    else { reads := [(stDesc w, stDesc w)], writes := [u], takes := [(u.1, u.2, 1, some (dl + 1))], occ := sdOcc op d }

/-! ### Units -/

def Strm.op (t : Strm) : Nat := wOp t.word
def Strm.units (t : Strm) : Nat := sdUnits t.op t.recd
def Strm.due (t : Strm) (u : Nat) : Nat := dueOf t.issue t.recd u

/-- Row, first element and number of elements of a unit, and its scratchpad byte (R259). -/
def Strm.geo (t : Strm) (u : Nat) : Nat × Nat × Nat × Nat :=
  let upr := sdUpr t.op t.recd
  let r := u / upr
  let epu := 512 / fmtBits (spFmt t.op t.recd)
  let e0 := u % upr * epu
  (r, e0, min (sdC0 t.recd) (e0 + epu) - e0, stSp t.word * 64 + r * sdPitch t.op t.recd + u % upr * 64)

/-- HBM offset and bytes of the elements of a unit. -/
def Strm.hbmAt (t : Strm) (u : Nat) : Nat × Nat :=
  let g := t.geo u
  let f := hbmFmt t.op t.recd
  ((sdRowAt t.word t.recd g.1).toNat + g.2.1 * fmtBits f / 8, fmtBytes f g.2.2.1)

/-- Elements converted (R197 to R199): the packed result and the counter increments; a copy counts nothing (R192). -/
def convertRun (src dst : Nat) (strict sat : Bool) (bs : Bytes) (n : Nat) : Bytes × List (Nat × Nat) :=
  let rs := (List.range n).map fun i => convert src dst strict sat (elemAt src bs i)
  let cnt := fun (f : CvtRes → Bool) => (rs.filter f).length
  (packElems dst (rs.map CvtRes.code),
   if src = dst then [] else [(0x1A0, cnt CvtRes.madeFin), (0x1A4, cnt CvtRes.nanLost), (0x1A8, cnt CvtRes.flush), (0x1AC, n)])

def Core.modStrm (k : Core) (e n : Nat) (f : Strm → Strm) : Core :=
  { k with strms := k.strms.map fun t => if t.eng = e ∧ t.issueNo = n then f t else t }

def Core.strm (k : Core) (e n : Nat) : Option Strm := k.strms.find? fun t => t.eng == e && t.issueNo == n

/-- Units before unit u of a stream, over the instructions of its engine, that still take a buffer slot (R263). -/
def Core.slotsAhead (k : Core) (t : Strm) (u : Nat) : Nat :=
  ((k.strms.filter fun z => z.eng == t.eng && decide (z.issueNo < t.issueNo) && z.op != 3).map fun z =>
    if t.op = 2 then z.units - z.acked.length else z.units - z.moved).sum +
  (if t.op = 2 then u - (t.acked.filter fun a => decide (a < u)).length else u - t.moved)

/-- A buffer slot is free for unit u (R263, R265). -/
def Core.slotFree (k : Core) (t : Strm) (u : Nat) : Bool := decide (k.slotsAhead t u < 4096)

/-- Read requests of a LOAD leave in unit order for as long as a buffer slot is free (R263). -/
def State.sendUnits : Nat → Nat → Nat → Strm → State → State
  | 0, _, _, _, s => s
  | n + 1, p, c, t, s =>
    if t.sent < t.units ∧ (s.core c).slotFree t t.sent = true then
      let h := t.hbmAt t.sent
      let t1 := { t with sent := t.sent + 1 }
      State.sendUnits n p c t1 ((s.mRequest p mRead (c, t.eng, t.issueNo, t.sent) h.1 h.2 (mDeadline mRead (t.due t.sent))).modCore c fun k =>
        k.modStrm t.eng t.issueNo fun z => { z with sent := t.sent + 1 })
    else s

/-- The requests of the LOADs of a stream-in engine, those of one instruction before those of the next (R263). -/
def State.sendReads (s : State) (p c e : Nat) : State :=
  ((s.core c).strms.filter fun t => t.eng == e && t.op == 1).foldl (fun z t => z.sendUnits (t.units - t.sent) p c t) s

/-- The issue of a stream instruction: its units are in flight, its signal point is D_last + 1, or D_last + 1,200 for a STORE (R262);
a LOAD sends its requests (R263). -/
def streamEff (x : Ctx) (s : State) : State :=
  let op := wOp x.word
  let d := descOf x
  let dl := lastDueOf op x.now d
  let t := if op = 2 then dl + 1200 else dl + 1
  let f := { x.flight (some t) (some t) with total := sdUnits op d, recd := d, nums := [stSp x.word * 64, if op = 2 then 0 else sdSpan op d] }
  let st : Strm := ⟨x.e, x.issueNo, x.word, d, x.now, 0, [], [], [], [], 0, false, [], 0⟩
  ((s.addFlight x.c f).modCore x.c fun k => { k with
    eng := k.eng.put x.e { k.eng.getD x.e {} with lastDue := some dl }
    strms := (k.strms.filter fun z => (k.flightOf z.eng z.issueNo).isSome) ++ [st] }).sendReads x.p x.c x.e

/-- LOAD on a stream-in engine (R255, R262). -/
def execLoad (c e : Nat) (s : State) : Host.Outcome State Fault Refusal :=
  .next (if e = 2 ∨ e = 3 then s.issueRow c e 1 (streamReq s) streamEff else s)

/-- STORE on the stream-out engine. -/
def execStore (c : Nat) (s : State) : Host.Outcome State Fault Refusal := .next (s.issueRow c 4 2 (streamReq s) streamEff)

/-- ZERO on a stream-in engine. -/
def execZero (c e : Nat) (s : State) : Host.Outcome State Fault Refusal :=
  .next (if e = 2 ∨ e = 3 then s.issueRow c e 3 (streamReq s) streamEff else s)

/-- The pseudo-channel that a run of HBM bytes is charged to (R246): that of its first poisoned unit, else of its first unit. -/
def State.hbmSrc (s : State) (q : Part) (o n : Nat) : Option (Nat × Nat) :=
  let us := span (o / 64) ((o + n - 1) / 64)
  (s.pcOf q ((us.find? fun x => q.img.poisoned (x * 64)).getD (o / 64) * 64)).map fun x => (3, x.1)

/-- One unit of a LOAD or a ZERO is written to scratchpad (R259, R262). [DEDUCED log entry 69] -/
def State.loadUnit (s : State) (c : Nat) (t : Strm) (raw : Bytes) (poison : Bool) (src : Option (Nat × Nat)) : State :=
  let u := t.moved
  let g := t.geo u
  let r := if t.op = 3 then ([], []) else convertRun (hbmFmt 1 t.recd) (spFmt 1 t.recd) (sdStrict t.recd) (sdSat t.recd) raw g.2.2.1
  s.modCore c fun k => (({ k with sp := k.sp.write s.cc g.2.2.2 (fit 64 r.1) [poison] src }.count r.2).modStrm t.eng t.issueNo fun z =>
    { z with moved := u + 1, got := z.got.filter fun x => x.1 != u }).modFlight t.eng t.issueNo fun f => { f with done := u + 1 }

/-- The unit of a LOAD has moved: its slot is free for a request that waits (R263). -/
def State.loadMoves (s : State) (p c : Nat) (t : Strm) (raw : Bytes) (poison : Bool) (src : Option (Nat × Nat)) : State :=
  (s.loadUnit c t raw poison src).sendReads p c t.eng

/-- One unit of a STORE is read into the write buffer (R262): poison stops the partition (R245); of a unit that is poisoned and fails its detection code too
the poison is reported. [DEDUCED log entry 69, DESIGN CHOICE log entry 145] -/
def State.storeUnit (s : State) (p c : Nat) (q : Part) (t : Strm) : State :=
  let u := t.moved
  let g := t.geo u
  let k := s.core c
  let m := k.sp.seen s.cc
  let r := convertRun (spFmt 2 t.recd) (hbmFmt 2 t.recd) (sdStrict t.recd) (sdSat t.recd) (memRead m.mem g.2.2.2 64) g.2.2.1
  let place := placeAfter q t.issueNo
  if m.poison.contains (g.2.2.2 / 64) then s.coreFault c t.eng (wTag t.word) 0x0C place (m.srcIn (g.2.2.2 / 64, g.2.2.2 / 64))
  else match m.badIn g.2.2.2 64 with
  | some w => s.spErrorAt c t.eng (wTag t.word) place w
  | none => (s.setCore c ((k.count r.2).modStrm t.eng t.issueNo fun z => { z with moved := u + 1, wbuf := z.wbuf ++ [(u, r.1)] })).mRequest p mWrite
      (c, t.eng, t.issueNo, u) (t.hbmAt u).1 (t.hbmAt u).2 (mDeadline mWrite (t.due u))

/-- STREAM_UNIT_DUE (R262): the next unit of the engine's oldest stream that has one left moves at its due cycle, a LOAD unit once its
data stands in the buffer, a STORE unit once it has a slot. A STORE unit checked at the issue may be read while the partition is held
(R265). -/
def execStreamUnitDue (c e : Nat) (s : State) : Host.Outcome State Fault Refusal :=
  .next (match s.owner c with
  | none => s
  | some (p, _) =>
    let q := s.part p
    let k := s.core c
    let now := q.run.stepCyc
    match k.strms.find? fun t => t.eng == e && decide (t.moved < t.units) with
    | none => s
    | some t =>
      let u := t.moved
      let early := t.op == 2 && decide (t.due u ≤ t.issue + Config.horizon)
      if !q.run.stepRun || (q.run.held && !early) || decide (now < t.due u) || (k.eng.getD e {}).stopped then s
      else if t.op = 3 then s.loadUnit c t [] false none
      else if t.op = 2 then (if k.slotFree t u then s.storeUnit p c q t else s)
      else match t.got.find? fun x => x.1 == u with
        | some x => s.loadMoves p c t x.2.1 x.2.2 (if x.2.2 then s.hbmSrc q (t.hbmAt u).1 (t.hbmAt u).2 else none)
        | none => s)

/-! ### Checks, arrivals, acknowledgements -/

/-- The announcer of a stream's hold: core, engine, and the issue count with the first unit that it waits for. -/
def strmAnn (c : Nat) (t : Strm) (u : Nat) : Nat × Nat × Nat := (c, t.eng, t.issueNo * 33554432 + u)

/-- A stream engine announces a hold for units (R264, R265, R270). PC_LATE counts it where a correction delayed the first unit (R352). [DEDUCED log entry 78] -/
def State.lateHold (s : State) (p c : Nat) (t : Strm) (u : Nat) (us : List Nat) (corrected retried : Bool) : State :=
  let s1 := (s.modCore c fun k => { k.modStrm t.eng t.issueNo fun z => { z with late := z.late ++ [(u, us)] } with
      sp := { k.sp with lateCnt := satAdd k.sp.lateCnt 1 } }).announce p (lateKind corrected retried) (some (strmAnn c t u))
  if corrected && !retried then
    match s.pcOf (s.part p) (t.hbmAt u).1 with
    | some (i, _) => s1.modPc i fun x => { x with late := satAdd x.late 1 }
    | none => s1
  else s1

/-- Units of a stream whose check cycle has come and is not made yet: those from `checked` on with D_u - 96 at or before now. -/
def Strm.toCheck (t : Strm) (now : Nat) : List Nat :=
  (List.range (t.units - t.checked)).map (t.checked + ·) |>.takeWhile fun u => decide (t.due u ≤ now + Config.horizon)

/-- LOAD_CHECK (R264): the units at their check cycle whose data is incomplete make one announcement. [DEDUCED log entry 78] -/
def execLoadCheck (c e : Nat) (corrected retried : Bool) (s : State) : Host.Outcome State Fault Refusal :=
  .next (match s.liveCycle c with
  | none => s
  | some (p, _, now) =>
    match (s.core c).strms.find? fun t => t.eng == e && t.op == 1 && !(t.toCheck now).isEmpty with
    | none => s
    | some t =>
      let us := t.toCheck now
      let miss := us.filter fun u => !(t.got.any fun x => x.1 == u) && decide (t.moved ≤ u)
      let s1 := s.modCore c fun k => k.modStrm e t.issueNo fun z => { z with checked := z.checked + us.length }
      match miss with
      | [] => s1
      | u :: _ => s1.lateHold p c t u miss corrected retried)

/-- STORE_CHECK (R265): at D_u - 96, or at the issue when that is later, a unit without a free slot; at the signal point less 96, an
unacknowledged write. [DEDUCED log entry 78] -/
def execStoreCheck (c : Nat) (corrected retried : Bool) (s : State) : Host.Outcome State Fault Refusal :=
  .next (match s.liveCycle c with
  | none => s
  | some (p, _, now) =>
    let k := s.core c
    match k.strms.find? fun t => t.eng == 4 && !(t.toCheck now).isEmpty with
    | some t =>
      let us := t.toCheck now
      let miss := us.filter fun u => !k.slotFree t u
      let s1 := s.modCore c fun k => k.modStrm 4 t.issueNo fun z => { z with checked := z.checked + us.length }
      match miss with
      | [] => s1
      | u :: _ => s1.lateHold p c t u miss corrected retried
    | none =>
      match k.strms.find? fun t => t.eng == 4 && !t.sigChecked && decide (lastDueOf 2 t.issue t.recd + 1200 ≤ now + Config.horizon) with
      | some t =>
        let s1 := s.modCore c fun k => k.modStrm 4 t.issueNo fun z => { z with sigChecked := true }
        if t.acked.length = t.units then s1 else s1.lateHold p c t t.units [t.units] corrected retried
      | none => s)

/-- Ends of the holds of a stream whose units are complete (R264, R265): wait u tells that unit u is still missing. -/
def State.endLate (s : State) (p c : Nat) (t : Strm) (wait : Nat → Bool) : State :=
  let past := t.late.filter fun x => !(x.2.any wait)
  past.foldl (fun a x => (a.modCore c fun k => k.modStrm t.eng t.issueNo fun z => { z with late := z.late.filter fun y => y.1 != x.1 }).announceEnd
    p fun h => h.ann == some (strmAnn c t x.1)) s

/-- Data of a LOAD unit arrives (R263), once the memory network has brought it (R275): its request has been sent, and it stands in the buffer with the poison of its HBM units (R244). [DEDUCED log entry 69] -/
def State.unitArrives (s : State) (p c : Nat) (q : Part) (t : Strm) (u : Nat) : State :=
  let k := s.core c
  if t.op != 1 || decide (t.units ≤ u) || decide (u < t.moved) || (t.got.any fun x => x.1 == u) || !k.slotFree t u || s.mPending (c, t.eng, t.issueNo, u) mData then s else
  let h := t.hbmAt u
  let us := span (h.1 / 64) ((h.1 + h.2 - 1) / 64)
  let poison := us.any fun x => q.img.poisoned (x * 64)
  let t1 := { t with got := t.got ++ [(u, memRead q.img.hbm h.1 h.2, poison)] }
  ((s.mTake (c, t.eng, t.issueNo, u)).modCore c fun k => k.modStrm t.eng t.issueNo fun _ => t1).endLate p c t1 fun v => decide (t1.moved ≤ v) && !(t1.got.any fun x => x.1 == v)

/-- STREAM_DATA_ARRIVAL (R263, R264, R134): for a stream-in engine all the data of a unit, for engine 6 the data of the fetch into queue
`unit`. It arrives while the partition is held too (R310). -/
def execStreamDataArrival (c e issueNo unit : Nat) (s : State) : Host.Outcome State Fault Refusal :=
  .next (match s.owner c with
  | none => s
  | some (p, _) =>
    let q := s.part p
    let k := s.core c
    if e = 6 then
      let hit := fun (f : Fetch) => f.src == 0 && f.issueNo == issueNo && f.queue == unit
      match k.seq.fetches.find? hit with
      | none => s
      | some f =>
        let s1 := s.modSeq c fun z => { z with fetches := z.fetches.map fun g => if hit g then { g with data := true, late := false } else g }
        if f.late then s1.announceEnd p fun h => h.ann == some (c, 6, issueNo * 8 + unit) else s1
    else match k.strm e issueNo with
      | some t => s.unitArrives p c q t unit
      | none => s)

/-- HBM_WRITE (R343, R259, R508): the bytes of a converted unit of a STORE are in HBM; a checkpoint's copy first takes the stripes that they reach.
A refresh window in use carries no transfer (R341); the data has come through the memory network (R275), and the acknowledgement goes back. [DEDUCED log entry 69] -/
def execHbmWrite (c issueNo unit : Nat) (s : State) : Host.Outcome State Fault Refusal :=
  .next (match s.owner c with
  | none => s
  | some (p, _) =>
    match (s.core c).strm 4 issueNo with
    | none => s
    | some t =>
      match t.wbuf.find? fun x => x.1 == unit with
      | none => s
      | some x =>
        let o := (t.hbmAt unit).1
        let pc := (s.pcOf (s.part p) o).map Prod.fst
        if (match pc with | some i => s.refreshing i | none => false) || s.mPending (c, 4, issueNo, unit) mWrite then s else
        let s1 := ((s.mAnswer mWrite mAck fun f => f.of (c, 4, issueNo, unit)).hbmStore p o x.2).modCore c fun k => k.modStrm 4 issueNo fun z =>
          { z with wbuf := z.wbuf.filter fun y => y.1 != unit, written := z.written ++ [unit] }
        match pc with
        | some i => s1.touchPc i
        | none => s1)

/-- Holds of the stream-out engine that wait for slots or acknowledgements, after an acknowledgement. -/
def State.endStoreHolds (s : State) (p c : Nat) : State :=
  let k := s.core c
  (k.strms.filter fun t => t.eng == 4).foldl (fun a t =>
    a.endLate p c t fun u => if u = t.units then t.acked.length != t.units else !k.slotFree t u) s

/-- STORE_WRITE_ACK (R263): a unit written to HBM is acknowledged, once the memory network has brought the acknowledgement (R275), and its slot freed. -/
def execStoreWriteAck (c e issueNo unit : Nat) (s : State) : Host.Outcome State Fault Refusal :=
  .next (match s.owner c with
  | none => s
  | some (p, _) =>
    match (s.core c).strm e issueNo with
    | none => s
    | some t =>
      if t.written.contains unit && !t.acked.contains unit && !s.mPending (c, e, issueNo, unit) mAck then
        ((s.mTake (c, e, issueNo, unit)).modCore c fun k => (k.modStrm e issueNo fun z => { z with acked := z.acked ++ [unit] }).modFlight e issueNo fun f =>
          { f with done := f.done + 1 }).endStoreHolds p c
      else s)

end Sys2Proof.Machine
end

