-- ==== Sys2Proof/Machine/Holds.lean ====
section
/-! DEFINITION. Global holds: their starts and ends take effect, and time out (R309, R310, R314, R316). -/

namespace Sys2Proof.Machine

/-- Holds whose start takes effect now (R309). -/
def PRun.starting (r : PRun) : List Hold := r.holds.filter fun h => h.began.isNone && decide (h.start ≤ r.logical)

/-- A pulse of 10 us (R493, R496). -/
def Hold.pulse (h : Hold) : Bool := h.kind == 4 && (h.ann == some (1023, 7, 2) || h.ann == some (1023, 7, 3))

/-- HOLD_START_EFFECT (R279, R309, R310, R314): the partition stops, or the hold joins the interval in effect; its flits leave lanes 0 to 2 of slotted mode. [DEDUCED log entry 99] -/
def execHoldStartEffect (p : Nat) (s : State) : Host.Outcome State Fault Refusal :=
  .next (
    let q := s.part p
    let hs := q.run.starting
    if hs.isEmpty then s else
    let live := hs.filter fun h => !h.dead s.cc
    let rest := q.run.holds.filter fun h => !(h.began.isNone && decide (h.start ≤ q.run.logical))
    if live.isEmpty then s.modRun p fun r => { r with holds := rest } else
    let kinds := live.foldl (fun m h => m ||| 2 ^ h.kind) 0
    let again := !q.run.held && q.run.heldEnd == s.cc && decide (0 < s.cc) && decide (0 < q.cnt.holdCnt)
    let s1 := s.modPart p fun q => { q with
      run := { q.run with
        holds := rest ++ live.map fun h => { h with began := some s.cc, fin := if h.pulse then some (s.cc + 25000) else h.fin }
        held := true
        net := q.run.net.map fun f => if f.at_ < q.run.stepCyc then { f with under := true, loc := if f.timed q then none else f.loc } else f
        frame := q.run.frame.map fun f => { f with kinds := f.kinds ||| kinds, holds := if again then f.holds - 1 else f.holds } }
      cnt := { q.cnt with holdCnt := if again then q.cnt.holdCnt - 1 else q.cnt.holdCnt } }
    if q.st = .running && kinds != 128 then s1.toState p .held else s1)

/-- STR_LATE.CC (R270): the own length of a hold that a stream engine or the fetch unit announced. [DESIGN CHOICE log entry 24] -/
def State.lateLength (s : State) (h : Hold) : State :=
  match h.ann, h.began, h.fin with
  | some (c, e, _), some b, some f =>
    if decide (h.kind ≤ 3) && e != 5 && decide (c < Config.nCores) then s.modSp c fun m => { m with lateCc := satAdd m.lateCc (f - b) } else s
  | _, _, _ => s

/-- The last end takes effect (R309, R314): the interval is counted, and a frame that waited begins (R91). [DESIGN CHOICE log entry 24] -/
def State.endHeld (s : State) (p : Nat) : State :=
  let q := s.part p
  let on := q.run.holds.filter fun h => h.began.isSome
  if !q.run.held || on.isEmpty || !(on.all fun h => h.dead s.cc) then s else
  let s1 := (on.foldl State.lateLength s).modPart p fun q => { q with
    run := { q.run with
      held := false, heldEnd := s.cc, holds := q.run.holds.filter fun h => h.began.isNone
      frame := q.run.frame.map fun f => { f with holds := f.holds + 1 } }
    cnt := { q.cnt with holdCnt := satAdd q.cnt.holdCnt 1 } }
  let s2 := (s1.modCtl p fun c => { c with resume := [] }).finishAll q.ctl.resume stOk []
  (if q.st = .held then s2.toState p .running else s2).beginFrame p

/-- HOLD_END_EFFECT (R309, R314). -/
def execHoldEndEffect (p : Nat) (s : State) : Host.Outcome State Fault Refusal := .next (s.endHeld p)

/-- The die that drives the link at which the retransmitted flit of core c, or of endpoint l, still stands (R280, R316). -/
def State.lateLink (s : State) (p c l : Nat) : Option Nat :=
  match s.hbm.net.find? fun f => f.part == p && f.who.1 == c && f.kind != mRemote with
  | some f => f.path.head?.map (· / 4)
  | none => ((s.part p).run.net.find? fun f => f.retried && f.arrived.isNone && f.dst == l).map fun f => f.failAt / 4

/-- What a data hold's missing data is charged to, as class and index, and its identity (R316, R318): for a stream or a fetch the pseudo-channel of the
data, after a retransmission the die of the link; for a transfer the sending die. [DEDUCED log entry 89] -/
def State.lateUnit (s : State) (p : Nat) (h : Hold) : FaultId × Nat × Nat :=
  let q := s.part p
  match h.ann with
  | none => (⟨0x1F, q.ctl.stepCount, 1023, 7, q.run.stepCyc, none⟩, 8, p)
  | some (c, e, x) =>
    let l := (q.res.place.findIdx? (· == c)).getD c
    let k := s.core c
    let link := if h.kind = 3 then s.lateLink p c l else none
    if e = 5 then (⟨0x1F, q.ctl.stepCount, l, 5, q.run.stepCyc, none⟩, 2, link.getD (q.res.place.getD (x / 34359738368) (2 * s.stacks) / 2))
    else
      let n := if e = 6 then x / 8 else x / 33554432
      let at_ := if e = 6 then (k.seq.fetches.find? fun f => f.src == 0 && f.issueNo == n && f.queue == x % 8).map fun f => s.streamsOff q + f.addr
        else (k.strm e n).map fun t => (t.hbmAt (x % 33554432)).1
      let u := match link, at_.bind (s.pcOf q) with
        | some d, _ => (2, d)
        | none, some y => (3, y.1)
        | none, none => (1, c)
      (q.faultId k l e 0x1F (placeAfter q n), u)

/-- HOLD_TIMEOUT (R316): a data hold whose end has not taken effect 4,194,304 cc after its start raises cause 0x1F. [DEDUCED log entry 89] -/
def execHoldTimeout (p : Nat) (s : State) : Host.Outcome State Fault Refusal :=
  .next (
    let q := s.part p
    let past := fun (h : Hold) => decide (h.kind ≤ 3) && !h.timedOut &&
      (match h.began with | some b => decide (b + 4194304 ≤ s.cc) && !h.dead (b + 4194304) | none => false)
    match q.run.holds.find? past with
    | none => s
    | some h =>
      let u := s.lateUnit p h
      let s1 := s.modRun p fun r => { r with holds := r.holds.map fun x => if x == h then { x with timedOut := true } else x }
      s1.partFault p u.1 u.2.1 u.2.2)

end Sys2Proof.Machine
end

