-- ==== Sys2Proof/Machine/Image.lean ====
section
/-! DEFINITION. The checks of program images, point entries and launch entries (R54, R74, R90, R96, R241, R277, R284, R371, R541). -/

namespace Sys2Proof

/-! ### The directory (R53, R54) -/

/-- The directory's entries: type and offset in bytes. -/
def Image.directory (g : Image) : List (Nat × Nat) :=
  (List.range (fld g.header 11 1)).map fun i => (fld g.header (96 + 5 * i) 1, 4096 * fld g.header (97 + 5 * i) 4)

/-- Strictly rising numbers. -/
def rising : List Nat → Bool
  | a :: b :: t => decide (a < b) && rising (b :: t)
  | _ => true

/-- Check 2 of R541, the program digest apart. -/
def Image.formOk (g : Image) : Bool :=
  let d := g.directory
  let types := d.map Prod.fst
  let slotted := decide (g.floor ≤ 64)
  fld g.header 0 4 == 0x4950394B && fld g.header 4 2 == 1 && g.gapZero &&
  rising (0 :: d.map Prod.snd) && (d.all fun x => decide (x.2 < g.length)) &&
  ((List.range (32 - d.length)).all fun i => fld g.header (96 + 5 * (d.length + i)) 5 == 0) &&
  (types.all fun t => decide (1 ≤ t) && decide (t ≤ 10)) && decide types.Nodup &&
  ([1, 4, 5, 7, 8, 9, 10].all types.contains) && (!slotted || types.contains 2) && (fld g.header 9 1 == 0 || types.contains 6)

/-- The program digest of the header is that of bytes [255:96] and every section (R53). -/
def ImageView.digestOk (v : ImageView) : Bool := Config.shake (sub v.image.header 96 160 ++ v.body) 64 == sub v.image.header 32 64

/-- Check 3 of R541. -/
def Image.fieldsOk (g : Image) (cls : Nat) : Bool :=
  g.floor % 8 == 0 && decide (8 ≤ g.floor) && decide (g.floor ≤ 512) && decide (fld g.header 8 1 ≤ 1) && (fld g.header 8 1 == 0) == decide (g.floor ≤ 64) &&
  decide (fld g.header 9 1 ≤ 12) && decide (1 ≤ fld g.header 10 1) && decide (fld g.header 10 1 ≤ 64) && g.entries.length == fld g.header 10 1 &&
  decide (1 ≤ fld g.header 11 1) && decide (fld g.header 11 1 ≤ 32) && (g.entries.all fun e => decide (e.updates ≤ 15) && e.cycles.length == e.updates + 1) &&
  fld g.header 12 4 == cls

/-- Byte ranges of the rings that a table uses. -/
def ringSpans (rs : List RingCfg) : List (Nat × Nat) := (rs.filter fun r => r.log2 != 0).map fun r => (r.base, 2 ^ r.log2)

/-- Ranges that meet. -/
def meets (a b : Nat × Nat) : Bool := decide (a.1 < b.1 + b.2) && decide (b.1 < a.1 + a.2)

/-- No two ranges of a list meet. -/
def apart : List (Nat × Nat) → Bool
  | [] => true
  | x :: t => (t.all fun y => !meets x y) && apart t

/-- Check 4 of R541 for a core: its resident ranges and code region, and the ring tables of its entry points. -/
def coreLayoutOk (x : CoreImg) (tables : List (List RingCfg)) : Bool :=
  let code := if x.code.isEmpty then [] else [(x.codeBase / 64, (x.codeBase + x.code.length - 1) / 64)]
  let res := x.resident ++ code
  let spans := res.map fun r => (r.1 * 64, (r.2 + 1 - r.1) * 64)
  decide (res.length ≤ 16) && (res.all fun r => decide (r.1 ≤ r.2) && decide (r.2 < Config.spUnits)) &&
  (x.regions.all fun r => decide (r.1 + r.2.length ≤ Config.spBytes)) && decide (x.codeBase + x.code.length ≤ Config.spBytes) && decide (x.code.length ≤ mib) &&
  tables.all fun rs =>
    let rings := ringSpans rs
    (rs.all fun r => r.log2 == 0 || (decide (12 ≤ r.log2) && decide (r.log2 ≤ 22) && r.base % 2 ^ r.log2 == 0 && decide (r.aflag < 64))) &&
    (rings.all fun r => decide (r.1 + r.2 ≤ Config.spBytes)) && apart rings && rings.all fun r => spans.all fun y => !meets r y

def Image.layoutOk (g : Image) : Bool :=
  (List.range g.cores.length).all fun l => match g.cores[l]? with
    | some x => coreLayoutOk x (g.entries.map fun e => match e.cores[l]? with | some c => c.rings | none => [])
    | none => true

/-- Check 5 of R541 (R277) for an entry of the die at column x and row y of a block of w columns: sources valid, reserved bits 0, no source and
lane twice, no link out of the block. -/
def slotEntryOk (w x y e : Nat) : Bool :=
  let fields := (List.range 18).map fun k => bits e (6 * k + 5) (6 * k)
  let out := fun (dir : Nat) => dir = 0 && y == 0 || dir = 1 && x + 1 == w || dir = 2 && y == 3 || dir = 3 && x == 0
  let used := fields.filter fun f => f % 16 != 0
  e / 2 ^ 108 == 0 && (used.all fun f => decide (f % 16 ≤ 8) && (decide (f % 16 ≤ 4) || f / 16 == 0) && decide (f / 16 ≤ 2) && !(decide (f % 16 ≤ 4) && out (f % 16 - 1))) &&
  (fields.all fun f => f % 16 != 0 || f == 0) && decide used.Nodup &&
  (List.range 12).all fun k => (fields.getD k 0) % 16 == 0 || !out (k / 3)

def Image.slotsOk (g : Image) : Bool :=
  if 64 < g.floor then true else
  let w := g.floor / 8
  g.slotTables.length == 4 * w && (List.range (4 * w)).all fun i =>
    let t := g.slotTables.getD i []
    t.length == 256 && t.all (slotEntryOk w (i / 4) (i % 4))

/-- The mutable layout and the tensor slots agree (R74). -/
def Image.sameState (a b : Image) : Bool := a.mutSize == b.mutSize && a.slots == b.slots && a.slotsIn == b.slotsIn && a.slotsOut == b.slotsOut

end Sys2Proof

namespace Sys2Proof.Machine

/-- An image's regions fit a number of slices (R337, R338). -/
def State.regionsFit (s : State) (g : Image) (mask : Nat) : Bool :=
  decide ((g.regionSizes.map fun r => stripesOf s.stacks r.1 r.2).sum ≤ (slicesOf mask).length * Config.stripesPerSlice)

/-- The first check of R541 that fails, for an image of a type (1 program, 2 fallback); the last two are for it. -/
def State.imageCheck (s : State) (p : Nat) (v : ImageView) : Option Nat :=
  let q := s.part p
  let g := v.image
  let fits := if v.typ = 2 then
      (match q.img.image with | some m => q.res.floor == 512 && g.floor == 480 && g.sameState m | none => false)
    else g.floor == q.res.floor && (match q.img.fallback with | some m => g.sameState m | none => true)
  if v.typ = 5 then some stArg
  else if !v.opens then some stIntegrity
  else if !g.formOk || !v.digestOk then some stIntegrity
  else if !g.fieldsOk detClass then some stArg
  else if !g.layoutOk then some stArg
  else if !g.slotsOk then some stIntegrity
  else if !fits then some stArg
  else if decide (q.res.culm < fld g.header 9 1) || !s.regionsFit g q.res.slices then some stResource
  else none

/-! ### Point entries (R369 to R371) -/

/-- The RW bits of a point entry: PT.PART and PT.OWNED cleared. -/
def ptRw (b : Bytes) : Bytes :=
  sub b 0 1 ++ [b.getD 1 0 &&& 0x01] ++ sub b 2 14 ++ [b.getD 16 0 &&& 0x01, 0, 0, 0] ++ sub b 20 20 ++ zeros 24

/-- The 64 bytes that POINT_READ gives. -/
def Point.bytes (x : Point) : Bytes :=
  let own := BitVec.ofNat 8 (2 * (if x.owned then x.part else 0) + 16 * b2n x.owned)
  Sys2Proof.sub x.raw 0 1 ++ [(x.raw.getD 1 0 &&& 0x01) ||| own] ++ Sys2Proof.sub x.raw 2 38 ++ natLe 4 x.lastVal ++ timeBytes x.lastStamp ++ natLe 4 x.discards ++
  natLe 2 x.staleCnt ++ natLe 2 x.guardCnt

/-- Two entries differ only in the guard and fallback fields (R369): FBPOL, LATEPOL, MIN, MAX, RATE, FBVAL. -/
def guardOnly (a b : Point) : Bool := a.f 8 0 == b.f 8 0 && a.f 119 16 == b.f 119 16 && a.f 127 122 == b.f 127 122 && a.f 191 160 == b.f 191 160

/-- A binary32 limit that a wire format represents exactly. -/
def exactIn (w v : Nat) : Bool := let c := (convert w 8 true false (convert 8 w true false v).code).code; f32Le c v && f32Le v c

/-- A quantity code of R388. -/
def trackCode (c : Nat) : Bool := decide (c ≤ 7) || (decide (66 ≤ c) && decide (c ≤ 127)) || (decide (130 ≤ c) && decide (c ≤ 191))

/-- What R369 to R371 ask of one bound entry of a partition. -/
def State.pointOk (s : State) (p : Nat) (x : Point) : Bool :=
  match (s.part p).img.image with
  | none => false
  | some g =>
    let ports := (s.part p).res.ports
    let mode := (s.port x.port).mode
    let slot := match g.slots[x.slot]? with
      | some t => t.output == x.output && decide (x.elem < t.elems) && t.fmt == x.fmt && t.unit == x.unit
      | none => false
    let dflt := (convert x.fmt 8 true false (dfltOf g x)).code
    let within := fun v => !codeNan 8 v && f32Le x.min v && f32Le v x.max
    slot && decide (x.src ≤ 2) && (!x.output || x.src == 0) && decide (x.fmt ≤ 10) && decide (x.wfmt ≤ 10) && !(decide (14 ≤ x.unit) && decide (x.unit ≤ 127)) &&
    (match x.src with
      | 0 => bit ports x.port && (x.sub == 0 || mode == 3) && (mode != 1 || x.msa == 0)
      | 1 => bit ports x.port && (x.sub == 0 || mode == 3) && x.wfmt == 8 && decide (x.vidx ≤ 15) && decide (x.stream ≤ 63) && x.cal == 0
      | _ => x.port == 0 && x.sub == 0 && x.msa == 0 && x.wfmt == 8 && trackCode x.vidx && (decide (x.stream ≤ 11) || (decide (64 ≤ x.stream) && decide (x.stream ≤ 127))) && x.cal == 0) &&
    (!x.output || x.cal == 0) && (x.output || !x.latepol) && x.fbpol != 3 &&
    !codeNan 8 x.min && !codeNan 8 x.max && f32Le x.min x.max && exactIn x.wfmt x.min && exactIn x.wfmt x.max &&
    !codeNan 8 x.rate && (x.rate < 2147483649 : Bool) && within x.fbval && (x.fbpol != 2 || within dflt) &&
    (!x.output || (mode != 2 && mode != 3) || !(s.destOf x.stream x.port x.sub).isEmpty)

/-- SRC, FBPOL and UNIT are codes of their tables (R369, R370). -/
def pointForm (b : Bytes) : Bool :=
  let x : Point := { raw := b }
  x.src != 3 && x.fbpol != 3 && !(decide (14 ≤ x.unit) && decide (x.unit ≤ 127))

/-- What R371 asks of the points of a partition together. -/
def pointsOk (pts : List Point) : Bool :=
  let ins := (pts.filter fun x => !x.output).map fun x => (x.slot, x.elem)
  let outs := groupPoints ((pts.filter fun x => x.output).map fun x => (0, x))
  decide ins.Nodup && (outs.all fun g =>
    let w := match g.2 with | x :: _ => x.2.wfmt | [] => 0
    (g.2.all fun x => x.2.wfmt == w) && (List.range g.2.length).all fun i => g.2.any fun x => x.2.vidx == i) &&
  (List.range 8).all fun port => decide ((outs.filter fun g => g.1.1 == port).length ≤ 256)

/-! ### Launch entries (R90, R96) -/

/-- The 64 bytes of an entry as SET_LAUNCH reads it. -/
def Lte.bytes (e : Lte) : Bytes :=
  let b0 := ((e.raw.getD 0 0) &&& 0x0F) ||| BitVec.ofNat 8 (if e.owned then 16 * e.part + 128 else 0)
  [b0] ++ sub e.raw 1 43 ++ zeros 4 ++ natLe 8 e.fired ++ natLe 4 e.fallbacks ++ zeros 4

/-- R96: emission after the inference step and the guard, deadline after every step. -/
def lteFits (g : Image) (e : Lte) : Bool :=
  match g.entries[e.ept]? with
  | none => false
  | some x =>
    decide (e.emitOfs * 25000 ≥ x.cycles.headD 0 * 10001 + 25000000) && decide (e.deadlineOfs ≥ e.emitOfs) && decide (e.deadlineOfs * 25000 ≥ x.cycles.sum * 10001)

/-- An entry that SET_LAUNCH takes (R90, R96), enabled or not. -/
def lteOk (g : Image) (b : Bytes) : Bool :=
  let e : Lte := { raw := b }
  let src := match e.trig with
    | 0 => e.src == 0
    | 1 => decide (e.src ≤ 11) || (decide (64 ≤ e.src) && decide (e.src ≤ 127))
    | _ => decide (e.src ≤ 1)
  e.trig != 3 && src && (e.trig != 0 || e.period == 0 || decide (655360000 ≤ e.period)) && (e.trig != 1 || e.every != 0) && decide (4000 ≤ e.cutLead) && lteFits g e

end Sys2Proof.Machine
end

