-- ==== Sys2Proof/Machine/Restart.lean ====
section
/-! DEFINITION. Restart, classification, checkpoints and background verification (R52, R68 to R74, R320, R347, R348, R507 to R514, R528). -/

namespace Sys2Proof.Machine

/-! ### Remap of a pseudo-channel (R347, R348) -/

/-- The units of a partition on a pseudo-channel that cannot be read are rebuilt (R347): outside the protected regions as poison; within them from the
other granules of the stripe with its parity. A protected unit whose stripe holds another one that cannot be read gets the poison code. The plaintext of a
rebuilt unit is as it was (log entry 136). -/
def State.rebuildUnits (s : State) (p i : Nat) : State :=
  let q := s.part p
  let on := fun u => (s.pcOf q (u * 64)).map Prod.fst == some i
  let bad := q.img.hbmUe ++ q.img.hbmPoison
  let spoilt := bad.filterMap fun v => if on v then none else match s.stripeOf q v with
    | some (r, k, b) => (s.unitAt r k b (i / 32)).bind fun u => if on u then some u else none
    | none => none
  let bare := (bad.filter on).filter fun u => match s.stripeOf q u with | some (r, k, _) => (q.img.parity.get? (r.stripe + k)).isNone | none => true
  s.modImg p fun m => { m with
    hbmPoison := (spoilt ++ bare).foldl setIns (m.hbmPoison.filter fun u => !on u)
    hbmUe := m.hbmUe.filter fun u => !on u
    hbmCe := m.hbmCe.filter fun u => !on u }

/-- A retired pseudo-channel leaves its slice: the stack's spare takes its place, or the slice is lost and each partition that holds it goes to
FAULTED. [DEDUCED log entry 114] -/
def State.remapPc (s : State) (i : Nat) : State :=
  let c := s.pc i
  let st := i / 32
  let sp := 32 * st + 31
  if c.role = 3 || 31 ≤ c.slice then s.modPc i fun c => { c with role := 3 }
  else if (s.pc sp).role = 1 && !s.disabled 3 sp then
    let s1 := (s.holders c.slice).foldl (fun z p => z.rebuildUnits p i) s
    ((s1.modPc i fun c => { c with role := 3 }).modPc sp fun x => { x with role := 2, slice := c.slice, selfref := false, lastReq := s.opTicks }).record 4 0x0011 0x03 i
      (natLe 1 0x03 ++ natLe 1 3 ++ natLe 2 i)
  else
    let hs := s.holders c.slice
    let s1 := s.modPc i fun c => { c with role := 3 }
    let s2 := ({ s1 with ctl := { s1.ctl with lostSlices := s1.ctl.lostSlices ++ [(c.slice, hs)] } }).degrade
    hs.foldl (fun z p => if (z.part p).st.live then z.faultedWith p Config.causeNoResource else z) s2

/-- Retired pseudo-channels of a partition's slices that still serve (R347). [DEDUCED log entry 114] -/
def State.pendingPcs (s : State) (p : Nat) : List Nat :=
  (List.range 1024).filter fun i => s.disabled 3 i && (s.pc i).role != 3 && bit (s.part p).res.slices (s.pc i).slice

/-! ### Restart (R512, R52, R74) -/

/-- Places a partition again (R52): its block or rows with healthy cores. [DEDUCED log entry 26] -/
def State.replaceFor (s : State) (p f : Nat) : Option (List Nat × List Nat) :=
  let q := s.part p
  let n := ceilDiv f 32
  if q.res.place.length = f ∧ q.res.place.all s.healthy then some (q.res.rows, q.res.place)
  else if f ≤ 64 ∨ q.res.rows.length ≠ n then s.placeFor p f
  else
    let used := s.mapped p
    let own := ((List.range Config.nCores).filter fun c => q.res.rows.contains (c / 32) && s.healthy c && !used.contains c).take f
    let more := ((List.range Config.nCores).filter fun c => !q.res.rows.contains (c / 32) && s.healthy c && !used.contains c).take (f - own.length)
    if own.length + more.length = f then some (q.res.rows, own ++ more) else none

/-- The placement of a restart: where the full floor cannot be placed, the fallback image takes its place if one is set (R74, R98). -/
def State.placeRestart (s : State) (p : Nat) : State :=
  let q := s.part p
  let few := decide (s.healthyAt p < 512)
  let s0 := s.coreCheck p
  let f := match q.img.image with | some g => g.floor | none => q.res.floor
  let put := fun (z : State) (r : List Nat × List Nat) => z.modPart p fun q => { q with res := { q.res with rows := r.1, place := r.2 } }
  match (if few && f = 512 then none else s0.replaceFor p f) with
  | some r => put s0 r
  | none =>
    match q.img.fallback, s0.placeFor p 480 with
    | some g, some r =>
      if f != 512 then s0.faultedWith p Config.causeNoResource else
      let s1 := ((((put s0 r).modImg p fun m => { m with image := some g, onFallback := true, streamsPoison := [] }).putConstant p g.constant).rebir.setProfile p g).modPTwin p fun t =>
        if t.role != 0 then { t with tolMode := true, wantTol := 16, runTol := 0 } else t
      (s1.ltes.filter fun e => e.2.owned && e.2.part == p && e.2.en && !lteFits g e.2).foldl (fun z _ => z.record 3 0x0013 0x08 p []) s1
    | _, _ => s0.faultedWith p Config.causeNoResource

/-- The links of a retired die re-train (R503): a failing wire of a link moves onto the link's spare wire; a link whose spare is in use keeps it.
[DESIGN CHOICE log entry 126] -/
def Die.retrained (x : Die) : Die := { x with wires := x.wires ||| x.failing, failing := x.failing &&& x.wires }

/-- The dies of a list of cores that are retired, both cores of each, re-train. -/
def State.retrain (s : State) (cores : List Nat) : State :=
  ((cores.map (· / 2)).filter fun d => s.disabled 1 (2 * d) && s.disabled 1 (2 * d + 1)).eraseDups.foldl (fun z d => z.modDie d Die.retrained) s

/-- A fault settles the fault under classification (R320): F2 identical to F1 of the schedule class is a program fault; F1 of the detection class is charged in
any case; with F2 in an earlier step F1 is recorded as unclassified. Answers whether it is a program fault. [DEDUCED log entry 90, DEDUCED log entry 93] -/
def State.settleFault (s : State) (p : Nat) : Bool × State :=
  let q := s.part p
  match q.ck.cls, q.ck.f1 with
  | some (f1, cls, idx), some f2 =>
    let s1 := s.modCk p fun k => { k with cls := none }
    if !scheduleClass f1.cause then (false, s1.charge cls idx)
    else if f2.step < f1.step then (false, s1.record 5 0x0010 cls idx (faultData f1 5 0))
    else if f1.same f2 then (true, s1.modCnt p fun c => { c with fClass := 4 })
    else (false, s1.charge cls idx)
  | _, _ => (false, s)

/-- What a stop of the run leaves: pending CHECKPOINTs and the copy in progress end, the emission of the killed frame falls back. -/
def State.killRun (s : State) (p : Nat) : State :=
  let q := s.part p
  let es := (q.run.emits.filter fun e => !e.emitted).map fun e => if e.ofFrame q.run then { e with launched := false, took := none, vals := [], step := 2 ^ 64 - 1 } else e
  let s1 := (s.modRun p fun r => { r with emits := es }).stopRun p
  let s2 := (((s1.dropCkpts p).endResume p).endHandover p).finishAll q.ck.slots stAborted []
  s2.modPart p fun q => { q with ck := { q.ck with copying := none, slots := [] } }

/-- A checkpoint's content stands in the partition (R56, R57, R240): the mutable section, STEP_COUNT, the seed where it
carries it (R58); the cores are loaded. [DEDUCED log entry 95] -/
def State.restoreFrom (s : State) (p : Nat) (k : Ckpt) : State :=
  let q := s.part p
  match q.img.image with
  | none => s
  | some g =>
    let o := s.regionOff q 1
    let n := g.mutSize
    let pk := q.img.hbmPoison.filter fun u => !(decide (o ≤ u * 64 ∧ u * 64 < o + n))
    let inside := fun u => decide (o ≤ u * 64 ∧ u * 64 < o + n)
    let s1 := s.modPart p fun q => { q with
      img := { q.img with
        hbm := memCopy (memClear q.img.hbm o n) o k.mut_
        hbmPoison := (k.mutPoison.map (· + o / 64)).foldl setIns pk
        hbmUe := q.img.hbmUe.filter fun u => !inside u, hbmCe := q.img.hbmCe.filter fun u => !inside u }
      ctl := { q.ctl with stepCount := k.step, seed := if k.seed.isEmpty then q.ctl.seed else k.seed } }
    s1.loadCores p

/-- RESTART_BEGIN (R512, R315, R320): the STOP hold has taken effect. The fault is settled against the one under classification; units retire;
the links of retired dies re-train (R503), the partition is placed and its pseudo-channels remapped. A fault in a REPLAY aborts it, and its rerun from the starting checkpoint classifies it (R334). -/
def execRestartBegin (p : Nat) (s : State) : Host.Outcome State Fault Refusal :=
  .next (
    let q := s.part p
    if !(q.run.holds.any fun h => h.kind == 7 && h.began.isSome) then s else
    match q.ck.replay, q.ck.f1 with
    | some r, some f =>
      let x := s.settleFault p
      let s1 := x.2.stopRun p
      if x.1 then s1.modCk p fun k => { k with replay := some { r with ended := true, aborted := true }, f1 := none, catchUp := [] }
      else (s1.modCk p fun k => { k with
        replay := some { r with aborted := true }, cls := some (f, q.ck.f1Cls, q.ck.f1Idx), f1 := none, catchUp := r.frames }).restoreFrom p r.start
    | _, f =>
      if !q.st.live then s.stopRun p else
      let x := s.settleFault p
      let s1 := x.2.killRun p
      let s2 := if q.st = .restarting then s1 else s1.toState p .restarting
      if x.1 then s2.toFaulted p
      else
        let weight := match f with | some f => f.cause == 0x23 | none => false
        let s3 := s2.modPart p fun q => { q with
          ck := { q.ck with stage := 1, began := s.opTicks, restarts := satAdd q.ck.restarts 1, leafBad := if weight then q.ck.leafBad else none, cls := f.map fun f => (f, q.ck.f1Cls, q.ck.f1Idx), f1 := none, catchUp := [] }
          twin := { q.twin with rejoin := false, runMatch := 0, runTol := 0, fromLead := q.twin.fromLead || (match f with | some f => f.cause == 0x22 | none => false) } }
        if weight && !(q.twin.role != 0 && s3.twin.pair == 2) then s3.toFaulted p else
        let s4 := (s3.pendingPcs p).foldl State.remapPc s3
        if (s4.part p).st != .restarting then s4 else
        let s5 := (s4.retrain q.res.place).placeRestart p
        if (s5.part p).st != .restarting then s5 else s5.modCk p fun k => { k with stage := 2 })

/-! ### Restore (R513, R528) -/

/-- The journal entries after a checkpoint that are launched frames. [DEDUCED log entry 95] -/
def PCkpt.after (k : PCkpt) (n : Nat) : List JEntry := (k.journal.drop (n - (k.journalN - k.journal.length))).filter fun j => j.cause == 0

/-- The checkpoint that a CKPT object gives (R519, log entry 43): the header's first 512 bytes, then the mutable plaintext. -/
def ckptOfBlock (b : Bytes) : Ckpt :=
  { valid := true, step := fld b 8 8, bir := sub b 88 256, journalN := fld b 16 8, chain := sub b 24 64
    mut_ := memWrite [] 0 (b.drop 512) }

/-- The restore is complete: STOP, SHADOW or catch-up follow (R66, R72, R513). [DEDUCED log entry 96] -/
def State.restored (s : State) (p : Nat) (k : Ckpt) : State :=
  let s1 := ((s.restoreFrom p k).remoteMutable p 2).modPart p fun q => { q with
    ck := { q.ck with stage := 3, restartUs := (s.opTicks - q.ck.began) / 2500, catchUp := q.ck.after k.journalN, lastOverdue := s.opTicks }
    pwr := { q.pwr with ramp := some 0 } }
  let s2 := s1.takeGrant p
  let q := s2.part p
  if !q.ctl.stop.isEmpty && q.st == .restarting then
    let keep := k.journalN - (q.ck.journalN - q.ck.journal.length)
    (s2.modCk p fun c => { c with journal := c.journal.take keep, journalN := k.journalN, chain := k.chain }).toArmed p
  else if q.twin.role != 0 && s2.twin.pair == 2 && q.st == .restarting then s2.toState p .shadow
  else s2

/-- RESTORE_COMPLETE (R513, R528): the newest committed checkpoint, or the other slot where its content fails, or the lead's. okA, okB: the
CONTENT digest of the slot holds. With neither, an unpaired module stops the partition. A weight leaf that does not match is rebuilt before, where a partner is (R512, R514).
[DEDUCED log entry 96, DEDUCED log entry 97] -/
def execRestoreComplete (p : Nat) (okA okB : Bool) (s : State) : Host.Outcome State Fault Refusal :=
  .next (
    let q := s.part p
    if !(q.ck.stage = 2 && (q.st = .restarting || q.st = .shadow)) then s else
    if q.ck.leafBad.isSome then (if q.twin.role != 0 && s.twin.pair == 2 then s else s.toFaulted p) else
    if q.twin.fromLead then
      if q.twin.rxCkpt.length < 512 then s else
      let k := ckptOfBlock q.twin.rxCkpt
      ((s.modPart p fun q => { q with
        ck := { q.ck with journal := [], journalN := k.journalN, chain := k.chain }, twin := { q.twin with fromLead := false, rxCkpt := [], fresh := false } })).restored p k
    else
      let bir := s.bir p
      let fits := fun (k : Ckpt) (ok : Bool) => k.valid && ok && (q.img.onFallback || sub k.bir 6 138 == sub bir 6 138)
      let a := fits q.ck.slotA okA
      let b := fits q.ck.slotB okB
      let pick := if q.ck.newest then (if b then some q.ck.slotB else if a then some q.ck.slotA else none)
        else if a then some q.ck.slotA else if b then some q.ck.slotB else none
      match pick with
      | some k => s.restored p k
      | none =>
        if q.twin.role != 0 && s.twin.pair == 2 then s.modPTwin p fun t => { t with fromLead := true, rxCkpt := [] }
        else s.faultedWith p Config.causeIntegrity)

/-! ### Catch-up (R69, R528) -/

/-- CATCH_UP_FRAME (R69, R333): the next journalled frame is re-executed from its tensor, without emission. -/
def execCatchUpFrame (p : Nat) (s : State) : Host.Outcome State Fault Refusal :=
  .next (
    let q := s.part p
    let on := q.ck.stage = 3 && (q.st = .restarting || q.st = .shadow || (match q.ck.replay with | some r => !r.ended | none => false))
    match q.ck.catchUp, q.img.image with
    | j :: _, some g =>
      if !on || q.run.frame.isSome || q.run.held || !q.run.holds.isEmpty then s else
      let f := { newFrame g (s.lte j.entry) j.entry j.learn j.cut j.launch q.ctl.stepCount 0 true with
        ept := j.ept, steps := g.stepsOf j.ept j.learn, cycles := match g.entries[j.ept]? with | some x => x.cycles | none => [] }
      (((s.hbmStore p (s.regionOff q 2) j.tensor).remote p 2 (s.regionOff q 2) j.tensor.length).modRun p fun r => { r with frame := some f }).beginFrame p
    | _, _ => s)

/-- CATCH_UP_COMPLETE (R69, R528): no journalled frame is left; the partition returns to RUNNING, or compares, at the next launch. -/
def execCatchUpComplete (p : Nat) (s : State) : Host.Outcome State Fault Refusal :=
  .next (
    let q := s.part p
    if q.ck.stage = 3 && (q.st = .restarting || q.st = .shadow) && q.ck.catchUp.isEmpty && q.run.frame.isNone && q.ck.replay.isNone then
      s.modCk p fun k => { k with stage := 4 }
    else s)

/-- CATCH_UP_OVERDUE (R69, R528): every 60 s of catch-up an error is recorded. -/
def execCatchUpOverdue (p : Nat) (s : State) : Host.Outcome State Fault Refusal :=
  .next (
    let q := s.part p
    if q.ck.stage = 3 && (q.st = .restarting || q.st = .shadow) && decide (q.ck.lastOverdue + 150000000000 ≤ s.opTicks) then
      (s.modCk p fun k => { k with lastOverdue := s.opTicks }).record 4 0x0014 0x08 p []
    else s)

/-! ### Checkpoints (R340, R508) -/

/-- The slot that a copy in progress writes: the one without the newest committed checkpoint (R508). -/
def PCkpt.toB (k : PCkpt) : Bool := k.slotA.valid && !k.newest

/-- A byte of a checkpoint slot (R509): the header, then the mutable content 1 MiB in. -/
def ckptByte (hdr : Bytes) (k : Ckpt) (x : Nat) : Byte := if x < 512 then hdr.getD x 0 else if x < mib then 0 else memGet k.mut_ (x - mib)

/-- CHECKPOINT_PARITY_PASS (R340, R508): the last stripe of the mutable section is copied, and the parity granule of each stripe of the slot is written. -/
def execCheckpointParityPass (p : Nat) (s : State) : Host.Outcome State Fault Refusal :=
  .next (match (s.part p).ck.copying with
  | some (l, false) =>
    let s1 := s.copyRest p
    let q := s1.part p
    let n := match q.img.image with | some g => g.mutSize | none => 0
    let hdr := ckptHeader q.res.keys q.ck.copy n false
    let slot := if q.ck.toB then 5 else 4
    (((s1.remote p q.ck.copyPrio (s1.regionOff q slot) 512).remote p q.ck.copyPrio (s1.regionOff q slot + mib) n).writeParity p slot 0 (mib + n) (ckptByte hdr q.ck.copy)).modCk p fun k => { k with copying := some (l, true) }
  | _ => s)

/-- A STOP that waits, at a frame boundary, for the checkpoint before it (R73). [DEDUCED log entry 137] -/
def State.stopAfterCopy (s : State) (p : Nat) : State :=
  let q := s.part p
  if q.ctl.stop.isEmpty || !q.ctl.ckpt.isEmpty || !(q.st == .running || q.st == .held) || q.run.frame.isSome || !(q.ck.stage == 0 || q.ck.stage == 4) ||
    (q.run.holds.any fun h => h.kind == 7) then s else s.toArmed p

/-- CHECKPOINT_COMMIT (R508, R510, R73): the slot that does not hold the newest committed checkpoint becomes the newest, its COMMIT word written; older
journal entries are released; the CHECKPOINTs that waited for it complete, and one that is pending at a boundary begins, a STOP after it. [DEDUCED log entry 137] -/
def execCheckpointCommit (p : Nat) (s : State) : Host.Outcome State Fault Refusal :=
  .next (match (s.part p).ck.copying with
  | some (_, true) =>
    let q := s.part p
    let toB := q.ck.toB
    let n := match q.img.image with | some g => g.mutSize | none => 0
    let s0 := s.writeParity p (if toB then 5 else 4) 0 512 (ckptByte (ckptHeader q.res.keys q.ck.copy n true) q.ck.copy)
    let s1 := s0.modCk p fun k => { k with
      slotA := if toB then k.slotA else k.copy, slotB := if toB then k.copy else k.slotB, newest := toB
      copying := none, slots := [], journal := k.journal.drop (k.copy.journalN - (k.journalN - k.journal.length)) }
    let s2 := s1.finishAll q.ck.slots stOk (natLe 8 q.ck.copy.step ++ [if toB then 1 else 0])
    (if (s2.part p).run.frame.isNone && !(s2.part p).ctl.ckpt.isEmpty then s2.beginCheckpoint p else s2).stopAfterCopy p
  | _ => s)

/-- Leaves of 1 MiB of a constant section (R514). -/
def leafCount (g : Image) : Nat := ceilDiv g.constant.length mib

/-- WEIGHT_LEAF_CHECK (R514, R351): the next leaf of the constant section is read, by requests of priority 6, and compared; a pass reads every leaf, and one
begins every 30 minutes of operation. bad: the leaf's digest is not the tree's (log entry 3); a mismatch raises cause 0x23. -/
def execWeightLeafCheck (p : Nat) (bad : Bool) (s : State) : Host.Outcome State Fault Refusal :=
  .next (
    let q := s.part p
    match q.img.image with
    | none => s
    | some g =>
      let waits := q.ck.leaf == 0 && (match q.ck.leafAt with | some t => decide (s.opMs < t + 1800000) | none => false)
      if waits || g.constant.isEmpty then s else
      let last := decide (leafCount g ≤ q.ck.leaf + 1)
      let s1 := (s.remote p 6 (s.regionOff q 7 + q.ck.leaf * mib) (min mib (g.constant.length - q.ck.leaf * mib))).modCk p fun k => { k with
        leaf := if last then 0 else k.leaf + 1
        leafAt := if k.leaf = 0 then some s.opMs else k.leafAt
        leafBad := if bad && q.st.live then some k.leaf else k.leafBad
        verifyPasses := if last then satAdd k.verifyPasses 1 else k.verifyPasses }
      if bad && q.st.live then s1.twinFault p 0x23 else s1)

end Sys2Proof.Machine
end

