-- ==== Sys2Proof/Machine/PartCmd.lean ====
section
/-! DEFINITION. The partition commands (R43, R70 to R74, R90, R96, R97, R141, R371, R423, R541), REPLAY (R332 to R334) and the envelopes that the
module seals (R471 to R474). -/

namespace Sys2Proof.Machine

/-! ### Shared -/

/-- The module states of a partition command (R70). -/
def partStates (service : Bool) : List Nat := if service then [3, 4, 5] else [3, 5]

/-- A partition command (R70, R416): legal for the partitions that `ok` names; `args` is check 7 apart from the descriptor; a REPLAY on the slot
makes it BUSY. -/
def State.partCommand (s : State) (n code : Nat) (service : Bool) (ok : Part → Bool) (mine known : Bytes → Bool) (args : Nat → Bytes → State → Bool)
    (run : Nat → Nat → Bytes → State → State × Option (Nat × Bytes)) : State :=
  s.command n code (partStates service) true mine known (some ok) fun n b z =>
    let p := fld b 0 1
    if !args p b z then refuse z stArg
    else if (z.part p).ck.replay.isSome then refuse z stBusy
    else run n p b z

/-- A partition command names window bytes of its own partition (R404). -/
def ownBytes (p off : Nat) : Bool := off / gib8 == p

/-- A command whose payload is the partition alone. -/
def bareArgs (_ : Nat) (b : Bytes) (_ : State) : Bool := payOk b 1 []

/-- A partition is in one of these states. -/
def inState (l : List PState) (q : Part) : Bool := l.contains q.st

/-- No cause of DEGRADED is left (R424). -/
def State.undegrade (s : State) : State := if s.mstate = 5 && !s.ctl.fewCores && s.ctl.lostSlices.isEmpty then s.toModule 3 else s

/-! ### CREATE and DESTROY (R43, R70, R350, R423) -/

/-- A slice is lost (R348): some stack has no pseudo-channel that serves it. -/
def State.sliceLost (s : State) (k : Nat) : Bool :=
  (List.range s.stacks).any fun st => !((List.range 32).any fun j =>
    let c := s.pc (32 * st + j)
    c.slice == k && (c.role == 0 || c.role == 2))

def createArgs (_ : Nat) (b : Bytes) (_ : State) : Bool :=
  let f := fld b 2 2
  payOk b 14 [(9, 1)] && decide (fld b 1 1 ≤ 12) && f % 8 == 0 && decide (8 ≤ f) && decide (f ≤ 512) && fld b 4 4 != 0 && decide (fld b 4 4 < 2147483648) &&
  decide (1 ≤ fld b 12 2) && decide (fld b 10 2 + fld b 12 2 ≤ 1024)

/-- The resources that CREATE asks for are free (R43). -/
def State.createFits (s : State) (b : Bytes) : Bool :=
  let qs := (List.range Config.nParts).map s.part
  decide ((qs.map fun q => q.res.floor).sum + fld b 2 2 ≤ 512) && (qs.all fun q => q.res.slices &&& fld b 4 4 == 0 && q.res.ports &&& fld b 8 1 == 0) &&
  decide ((qs.map fun q => q.res.culm).sum + fld b 1 1 ≤ 12) && ((slicesOf (fld b 4 4)).all fun k => !s.sliceLost k) &&
  (List.range (fld b 12 2)).all fun i => !(s.lte (fld b 10 2 + i)).owned

/-- The launch entries of a range become a partition's. -/
def State.takeLtes (s : State) (p first n : Nat) : State :=
  (List.range n).foldl (fun z i => { z with ltes := z.ltes.put (first + i) { owned := true, part := p } }) s

/-- CREATE (R43, R70, R350, R423). [DESIGN CHOICE log entry 57] -/
def execCreate (slot : Nat) (s : State) : Host.Outcome State Fault Refusal :=
  .next (s.partCommand slot 0x0101 false (fun q => q.st == .empty && !q.res.created) anyForm anyForm createArgs fun _ p b z =>
    match (if z.createFits b then z.placeFor p (fld b 2 2) else none) with
    | none => refuse z stResource
    | some r =>
      let res : PRes := { created := true, floor := fld b 2 2, slices := fld b 4 4, ports := fld b 8 1, culm := fld b 1 1, lteFirst := fld b 10 2
                          lteCount := fld b 12 2, place := r.2, rows := r.1
                          keys := Config.draw z.sec.draws 32 ++ Config.draw (z.sec.draws + 1) 32 }
      okReply ((((z.modSec fun x => { x with draws := x.draws + 2 }).modPart p fun _ => { res := res }).takeLtes p (fld b 10 2) (fld b 12 2)).toState p .empty) [])

/-- Everything a partition holds is released (R66, R70, R90, R350, R369, R457): its run ends, its keys, images and HBM share are cleared. Commands that
wait on it complete with ABORTED. The share is cleared under fresh keys that nothing keeps (R350). -/
def State.destroyPart (s : State) (p : Nat) : State :=
  let q := s.part p
  let waits := q.ctl.resume ++ q.ctl.stop ++ q.ctl.ckpt ++ q.ck.slots ++ (match q.ck.replay with | some r => [r.slot] | none => []) ++ q.twin.hslot.toList ++
    (s.twin.parts.filter fun x => x.1 == p).map fun x => x.2.1
  let s1 := (((s.stopRun p).dropGrant p).eachCore p fun _ k => k.cleared).toState p .empty
  let s2 := { s1 with
    parts := s1.parts.put p {}
    ltes := s1.ltes.map fun (e : Nat × Lte) => if e.2.owned && e.2.part == p then (e.1, ({} : Lte)) else e
    field := { s1.field with points := s1.field.points.filter fun (x : Nat × Point) => !(x.2.owned && x.2.part == p) }
    ctl := { s1.ctl with lostSlices := (s1.ctl.lostSlices.map fun (x : Nat × List Nat) => (x.1, x.2.filter (· != p))).filter fun (x : Nat × List Nat) => !x.2.isEmpty }
    twin := { s1.twin with parts := s1.twin.parts.filter fun (x : Nat × Nat × Nat × Nat) => x.1 != p } }
  ((s2.modSec fun x => { x with draws := x.draws + (if q.res.created then 2 else 0) }).finishAll waits stAborted []).undegrade

/-- DESTROY (R70). -/
def execDestroy (slot : Nat) (s : State) : Host.Outcome State Fault Refusal :=
  .next (s.partCommand slot 0x010B true (inState [.empty, .loaded, .armed, .faulted]) anyForm anyForm bareArgs fun _ p _ z => okReply (z.destroyPart p) [])

/-! ### Images (R53, R54, R70, R74, R423, R541) -/

/-- A segment of a loading sequence: its fields are valid. -/
def segmentArgs (p : Nat) (b : Bytes) (s : State) : Bool :=
  let off := fld b 8 8
  let n := fld b 16 4
  payOk b 20 [(2, 2)] && decide (fld b 1 1 < 4) && n % 4096 == 0 && decide (4096 ≤ n) && decide (n ≤ 1073741824) && s.intakeOk off n && ownBytes p off

/-- The segment comes in its order: taken segments are counted. -/
def segmentNext (b : Bytes) (taken : Nat) : Bool := if bit (fld b 1 1) 0 then fld b 4 4 == 0 else taken != 0 && fld b 4 4 == taken

/-- An envelope that does not open is recorded (R474, R483). [DEDUCED log entry 27] -/
def State.envelopeFailed (s : State) (st : Nat) (v : Bool) : State := if st = stIntegrity && !v then s.securityLimited 0x03 60000 else s

/-- The first link of the journal's digest chain (R475). -/
def chain0 (g : Image) : Bytes := Config.shake ([0x4B, 0x39, 0x4A, 0x30] ++ sub g.header 32 64) 64

/-- LOAD_PROGRAM's effect (R53, R57, R58, R70, R475): HBM, STEP_COUNT, the seed, a new journal; no cut since has found
a point valid (R374). What the sections do not give is 0 (log entry 8). [DEDUCED log entry 27] -/
def State.loadImage (s : State) (p : Nat) (v : ImageView) (place : List Nat × List Nat) : State :=
  let g := v.image
  let s0 := s.modPart p fun q => { q with
    res := { q.res with rows := place.1, place := place.2 }
    img := { q.img with image := some g, onFallback := false, loading := 0, parity := [], fault := {}, streamsPoison := [], hbm := q.img.hbm.filter fun c => decide (c.1 < 8589934592)
                        hbmPoison := q.img.hbmPoison.filter fun u => decide (u * 64 < 8589934592)
                        hbmCe := q.img.hbmCe.filter fun u => decide (u * 64 < 8589934592), hbmUe := q.img.hbmUe.filter fun u => decide (u * 64 < 8589934592) }
    ctl := { q.ctl with stepCount := 0, seed := v.seed.getD (Config.draw s.sec.draws 32), lastLaunch := none, lastEpt := none, lteP := [] }
    ck := { q.ck with slotA := {}, slotB := {}, newest := false, copying := none, copy := {}, journal := [], journalN := 0, chain := chain0 g
                      jbuf := [], jcount := 0, rbuf := [], rcount := 0
                      stage := 0, catchUp := [], f1 := none, cls := none, leaf := 0, leafAt := none, leafBad := none }
    culm := q.culm.map fun x => (x.1, x.2.zeroed)
    cnt := { q.cnt with holdCnt := 0, holdAnn := 0, holdCc := 0 } }
  let s0 := (s0.eachCore p fun _ k => k.zeroed).modField fun f => { f with points := f.points.map fun x => if x.2.owned && x.2.part == p then (x.1, { x.2 with valid := none }) else x }
  let s1 := if v.seed.isNone then s0.modSec fun x => { x with draws := x.draws + 1 } else s0
  let q := s1.part p
  let s2 := ((s1.hbmStore p (s1.regionOff q 1) g.mutable_).remote p 2 (s1.regionOff q 1) g.mutable_.length).putConstant p g.constant
  ((s2.setProfile p g).rebir).toState p .loaded

/-- LOAD_PROGRAM (R423, R541). The view is what opening the envelope gives when its last segment has come. -/
def execLoadProgram (slot : Nat) (view : ImageView) (s : State) : Host.Outcome State Fault Refusal :=
  .next (s.partCommand slot 0x0102 false (fun q => (q.st == .empty && q.res.created) || q.st == .faulted) anyForm anyForm segmentArgs fun _ p b z =>
    let drop := z.modImg p fun m => { m with loading := 0 }
    if !segmentNext b (z.part p).img.loading then refuse drop stArg else
    let z := z.winTouch (fld b 8 8) (fld b 16 4)
    let drop := z.modImg p fun m => { m with loading := 0 }
    if !bit (fld b 1 1) 1 then okReply (z.modImg p fun m => { m with loading := fld b 4 4 + 1 }) []
    else if view.typ != 1 && view.typ != 5 then refuse (drop.envelopeFailed stIntegrity false) stIntegrity
    else match z.imageCheck p view with
      | some st => refuse (drop.envelopeFailed st view.opens) st
      | none => match z.replaceFor p view.image.floor with
        | none => refuse drop stResource
        | some r => okReply (z.loadImage p view r) [])

/-- SET_FALLBACK_IMAGE (R74, R423, R541). -/
def execSetFallbackImage (slot : Nat) (view : ImageView) (s : State) : Host.Outcome State Fault Refusal :=
  .next (s.partCommand slot 0x010A false (inState [.loaded, .armed, .running, .held, .faulted]) anyForm anyForm segmentArgs fun _ p b z =>
    let drop := z.modImg p fun m => { m with loadingF := 0 }
    if !segmentNext b (z.part p).img.loadingF then refuse drop stArg else
    let z := z.winTouch (fld b 8 8) (fld b 16 4)
    let drop := z.modImg p fun m => { m with loadingF := 0 }
    if !bit (fld b 1 1) 1 then okReply (z.modImg p fun m => { m with loadingF := fld b 4 4 + 1 }) []
    else if view.typ != 2 && view.typ != 5 then refuse (drop.envelopeFailed stIntegrity false) stIntegrity
    else match z.imageCheck p view with
      | some st => refuse (drop.envelopeFailed st view.opens) st
      | none => okReply (z.modImg p fun m => { m with fallback := some view.image, loadingF := 0 }) [])

/-! ### BIND_POINTS (R369 to R371, R423) -/

def bindArgs (p : Nat) (b : Bytes) (s : State) : Bool :=
  let n := fld b 8 4
  payOk b 52 [(1, 3)] && decide (1 ≤ n) && decide (n ≤ 65536) && decide (fld b 4 4 + n ≤ 65536) && s.intakeOk (fld b 12 8) (64 * n) && ownBytes p (fld b 12 8) &&
  (List.range n).all fun i => let x := s.point (fld b 4 4 + i); !x.owned || x.part == p

/-- The point as it stands once pending changes apply. -/
def Point.latest (x : Point) : Bytes := x.pend.getD (x.nexts.foldl (fun _ n => n.2) x.raw)

/-- The entries of a partition as a BIND_POINTS leaves them. [DESIGN CHOICE log entry 58] -/
def State.boundAfter (s : State) (p first : Nat) (es : List Bytes) : List Point :=
  let kept := (s.field.points.filter fun x => x.2.owned && x.2.part == p && !(decide (first ≤ x.1) && decide (x.1 < first + es.length))).map fun x =>
    ({ raw := x.2.latest } : Point)
  (kept ++ es.map fun e => ({ raw := e } : Point)).filter Point.valid?

/-- An entry takes effect at once: held values go with a changed binding, the last emitted value at every binding (R371, R372, R378). [DESIGN CHOICE log entry 58] -/
def Point.bindNow (x : Point) (p : Nat) (raw : Bytes) : Point :=
  let same := guardOnly { raw := raw } x
  { x with raw := raw, owned := bit (fld raw 0 1) 0, part := p, hasL := false, held := if same then x.held else [], valid := if same then x.valid else none, pend := none, nexts := [] }

/-- BIND_POINTS (R371). An entry with VALID 0 is released. -/
def execBindPoints (slot : Nat) (s : State) : Host.Outcome State Fault Refusal :=
  .next (s.partCommand slot 0x0103 false (inState [.loaded, .armed, .running, .held]) anyForm anyForm bindArgs fun _ p b z =>
    let first := fld b 4 4
    let d := z.winRead (fld b 12 8) (64 * fld b 8 4)
    let z := z.winTouch (fld b 12 8) (64 * fld b 8 4)
    if Config.shake d 32 != sub b 20 32 then refuse z stIntegrity else
    let es := (List.range (fld b 8 4)).map fun i => sub d (64 * i) 64
    let rws := es.map ptRw
    let bound := (rws.map fun e => ({ raw := e } : Point)).filter Point.valid?
    let live := (z.part p).st == .running || (z.part p).st == .held
    if live && !((List.range rws.length).all fun i => guardOnly { raw := rws.getD i [] } (z.point (first + i))) then refuse z stState
    else if !(es.all pointForm) || !(bound.all (z.pointOk p)) || !pointsOk (z.boundAfter p first rws) then refuse z stArg
    else okReply ((List.range rws.length).foldl (fun t i =>
      let raw := rws.getD i []
      t.modPoint (first + i) fun x => if live then { x with pend := some raw } else x.bindNow p raw) z) [])

/-! ### SET_LAUNCH (R90, R96, R97, R423) -/

def launchArgs (read : Bool) (p : Nat) (b : Bytes) (s : State) : Bool :=
  let n := fld b 4 2
  payOk b 48 (if read then [(6, 2), (16, 32)] else [(6, 2)]) && decide (fld b 2 2 + n ≤ 1024) &&
  ownBytes p (fld b 8 8) && (if read then s.outputOk (fld b 8 8) (64 * n) else s.intakeOk (fld b 8 8) (64 * n)) &&
  (List.range n).all fun i => let e := s.lte (fld b 2 2 + i); e.owned && e.part == p

def launchKnown (b : Bytes) : Bool := decide (fld b 1 1 ≤ 1)

/-- SET_LAUNCH, bit 0 clear: entries are written, at once in LOADED and ARMED, else as R97 says; a later write replaces a pending one (R12). -/
def execSetLaunch (slot : Nat) (s : State) : Host.Outcome State Fault Refusal :=
  .next (s.partCommand slot 0x0104 false (inState [.loaded, .armed, .running, .held]) (fun b => fld b 1 1 == 0) launchKnown (launchArgs false) fun _ p b z =>
    let first := fld b 2 2
    let d := z.winRead (fld b 8 8) (64 * fld b 4 2)
    let z := z.winTouch (fld b 8 8) (64 * fld b 4 2)
    if Config.shake d 32 != sub b 16 32 then refuse z stIntegrity else
    let es := (List.range (fld b 4 2)).map fun i => (first + i, sub d (64 * i) 64)
    let live := (z.part p).st == .running || (z.part p).st == .held
    let g := (z.part p).img.image
    let ok := match g with | some g => es.all fun e => lteOk g e.2 | none => false
    let kept := (z.part p).ctl.lteP.filter fun x => !es.any fun y => y.1 == x.1
    let later := kept ++ es
    let en := fun (x : Nat × Lte) => match later.reverse.find? (fun e => e.1 == x.1) with | some e => bit (fld e.2 0 1) 0 | none => x.2.en
    if !ok then refuse z stArg
    else if !live then okReply (es.foldl State.lteEffect (z.modCtl p fun c => { c with lteP := kept })) []
    else if !(z.ltes.any fun x => x.2.owned && x.2.part == p && en x) then refuse z stArg
    else
      let z1 := z.modCtl p fun c => { c with lteP := later }
      okReply (if !z.anyEnabled p && (z.part p).run.frame.isNone then z1.ltesEffect p else z1) [])

/-- SET_LAUNCH, bit 0 set: entries are read into the output area. -/
def execSetLaunchRead (slot : Nat) (s : State) : Host.Outcome State Fault Refusal :=
  .next (s.partCommand slot 0x0104 false (inState [.loaded, .armed, .running, .held]) (fun b => fld b 1 1 == 1) launchKnown (launchArgs true) fun _ _ b z =>
    okReply (z.winWrite (fld b 8 8) ((List.range (fld b 4 2)).flatMap fun i => (z.lte (fld b 2 2 + i)).bytes)) [])

/-! ### ARM, START, STOP, CHECKPOINT (R67, R70 to R73, R489, R507) -/

/-- Granary admits a grant (R489). -/
def State.admits (s : State) (p : Nat) : Bool :=
  let w := (s.part p).pwr
  let ps := s.granted.filter (· != p)
  decide (w.full + (ps.map fun i => (s.part i).pwr.grant).sum ≤ s.gMax) && decide (w.peak + (ps.map fun i => (s.part i).pwr.peak).sum ≤ s.peakLimit)

/-- The grant is P_full, and the targets follow (R489, R490). -/
def State.giveFull (s : State) (p : Nat) : State := (s.modPwr p fun w => { w with grant := w.full, target := w.full }).regrant

/-- The pseudo-channels of a partition leave self-refresh (R342). -/
def State.wakeSlices (s : State) (p : Nat) : State :=
  let mask := (s.part p).res.slices
  let wake := fun (x : Nat × Pc) => if x.2.selfref && bit mask x.2.slice then (x.1, { x.2 with selfref := false, lastReq := s.opTicks }) else x
  { s with hbm := { s.hbm with pcs := s.hbm.pcs.map wake } }

/-- ARM (R54, R70, R106, R240, R489). [DEDUCED log entry 59] -/
def execArm (slot : Nat) (s : State) : Host.Outcome State Fault Refusal :=
  .next (s.partCommand slot 0x0105 false (inState [.loaded]) anyForm anyForm bareArgs fun _ p _ z =>
    if !z.admits p then refuse z stResource
    else okReply ((((z.wakeSlices p).loadCores p).toState p .armed).giveFull p) [])

/-- START (R66, R67, R486, R534): the cores ramp, and launches are enabled from 100 us later. -/
def execStart (slot : Nat) (s : State) : Host.Outcome State Fault Refusal :=
  .next (s.partCommand slot 0x0106 false (inState [.armed]) anyForm anyForm bareArgs fun _ p _ z =>
    let q := z.part p
    let join := q.twin.tolMode && q.twin.role != 0
    let z1 := z.modPart p fun q => { q with
      ctl := { q.ctl with startAt := z.now + 100000 * 65536, lastLaunch := none }
      run := { q.run with triggers := [] }
      pwr := { q.pwr with ramp := some 0 }
      ck := { q.ck with lastCkpt := z.now, stage := if join then 2 else 0, began := z.opTicks }
      twin := { q.twin with fresh := q.twin.role != 0, fromLead := join && !q.ck.slotA.valid && !q.ck.slotB.valid } }
    okReply (z1.toState p (if join then .shadow else .running)) [])

/-- ARMED is left for LOADED (R66, R241, R489). -/
def State.disarm (s : State) (p : Nat) : State := (((s.eachCore p fun _ k => k.cleared).toState p .loaded).dropGrant p)

/-- A STOP during catch-up with no frame running: the journal ends with the last frame re-executed (R72). [DEDUCED log entry 95] -/
def State.stopCatchUp (s : State) (p : Nat) : State :=
  let k := (s.part p).ck
  match k.catchUp with
  | [] => s.toArmed p
  | j :: _ =>
    let kept := k.journal.takeWhile fun x => x.chain != j.chain
    let before := match kept.getLast? with | some x => x.chain | none => if k.newest then k.slotB.chain else k.slotA.chain
    (s.modCk p fun k => { k with journal := kept, journalN := k.journalN - (k.journal.length - kept.length), chain := before }).toArmed p

/-- STOP (R66, R71 to R73, R139): at once where no frame runs, else at the next boundary; a pending CHECKPOINT is taken before. [DEDUCED log entry 137] -/
def execStop (slot : Nat) (s : State) : Host.Outcome State Fault Refusal :=
  .next (s.partCommand slot 0x0107 false (inState [.armed, .running, .held, .restarting, .shadow]) anyForm anyForm bareArgs fun n p _ z =>
    let q := z.part p
    let wait := z.modCtl p fun c => { c with stop := c.stop ++ [n] }
    if q.st = .armed then okReply (z.disarm p) []
    else if q.st = .held && q.run.byBreak then ((if q.ctl.ckpt.isEmpty || q.ck.copying.isSome then wait else wait.beginCheckpoint p).toArmed p, none)
    else if q.ck.stage = 3 && q.run.frame.isNone && (q.st = .restarting || q.st = .shadow) then (wait.stopCatchUp p, none)
    else if (q.ck.stage = 0 || q.ck.stage = 4) && q.run.frame.isNone && !(q.run.holds.any fun h => h.kind == 7) then
      let z1 := wait.checkpointAt p
      (if (z1.part p).ctl.ckpt.isEmpty then z1.toArmed p else z1, none)
    else (wait, none))

/-- CHECKPOINT (R70, R507): at once where no frame runs and none is copying. -/
def execCheckpoint (slot : Nat) (s : State) : Host.Outcome State Fault Refusal :=
  .next (s.partCommand slot 0x0109 false (inState [.armed, .running, .held]) anyForm anyForm bareArgs fun n p _ z =>
    let z1 := z.modCtl p fun c => { c with ckpt := c.ckpt ++ [n] }
    (if (z.part p).run.frame.isNone && (z.part p).ck.copying.isNone then z1.beginCheckpoint p else z1, none))

/-! ### DBG_RESUME (R141) -/

/-- The module is debug-unlocked (R480). -/
def State.debugOn (s : State) : Bool := s.sec.unlocked.isSome

/-- DBG_RESUME: the authority check (order 5 of R416) comes before that of the partition's state. The break that holds the partition ends; the command completes when the cores have resumed, which another hold may delay (R314). -/
def execDbgResume (slot : Nat) (s : State) : Host.Outcome State Fault Refusal :=
  .next (s.command slot 0x0801 [3, 4, 5] false anyForm anyForm (if s.debugOn then some fun q => q.st == .held && q.run.byBreak else none) fun n b z =>
    let p := fld b 0 1
    if !z.debugOn then refuse z stAuth
    else if !payOk b 2 [] || decide (1 < fld b 1 1) then refuse z stArg
    else
      let z1 := if fld b 1 1 = 0 then z.eachCore p fun _ k => { k with flt := { k.flt with brkEn := false } } else z
      let z2 := z1.modRun p fun r => { r with holds := r.holds.map fun h => if h.kind == 6 && h.began.isSome then { h with fin := some z.cc } else h }
      let z3 := z2.endHeld p
      if (z3.part p).run.held then (z3.modCtl p fun c => { c with resume := c.resume ++ [n] }, none) else okReply z3 [])

/-! ### Envelopes that the module seals (R471 to R474) -/

/-- The header. -/
def envelopeHeader (typ recipients len : Nat) (binding : Bytes) : Bytes :=
  natLe 4 0x5645394B ++ natLe 2 1 ++ natLe 1 typ ++ natLe 1 recipients ++ [0, 0xFF] ++ zeros 6 ++ natLe 8 len ++ fit 32 binding ++ zeros 8

/-- The content in chunks of 1 MiB, ciphertext and tag. -/
def sealChunks (cek header : Bytes) (typ : Nat) : Nat → Nat → Bytes → List Bytes
  | 0, _, _ => []
  | n + 1, i, d => if d.isEmpty then [] else Config.gcm cek (natLe 8 i ++ natLe 4 typ) header (d.take 1048576) :: sealChunks cek header typ n (i + 1) (d.drop 1048576)

/-- A recipient record: the ciphertext and the shared secret of an encapsulation are values that Glume draws (log entry 11). -/
def recipientRecord (draw : Nat) (serial header cek : Bytes) : Bytes :=
  serial ++ Config.draw draw 1568 ++
  Config.gcm (Config.shake ([0x4B, 0x39, 0x45, 0x4E, 0x56] ++ Config.draw (draw + 1) 32 ++ header) 32) (zeros 12) (header ++ serial) (cek ++ zeros 32)

/-- Bytes of an envelope over a content. -/
def envelopeSize (recipients n : Nat) : Nat := ceilDiv (64 + 1664 * recipients + n + 16 * ceilDiv n 1048576 + 3309) 4096 * 4096

/-- Recipients of what the module seals: the owner, itself, a paired partner. -/
def State.recipients (s : State) : List Bytes := [List.replicate 16 0xFF, Config.serial] ++ (if s.twin.pair = 2 then [s.twin.partner] else [])

/-- An envelope of a type over a content, signed with the identity key. [DESIGN CHOICE log entry 28] -/
def State.envelope (s : State) (typ : Nat) (binding content : Bytes) : Bytes × State :=
  let rs := s.recipients
  let d := s.sec.draws
  let header := envelopeHeader typ rs.length content.length binding
  let cek := Config.draw d 32
  let recs := (List.range rs.length).flatMap fun i => recipientRecord (d + 1 + 2 * i) (rs.getD i []) header cek
  let chunks := sealChunks cek header typ (content.length + 1) 0 content
  let tags := chunks.flatMap fun c => c.drop (c.length - 16)
  let sig := Config.sign s.sec.signs [0x4B, 0x39, 0x45, 0x4E, 0x56, 0x45, 0x4C, 0x4F, 0x50, 0x45] (Config.shake (header ++ recs ++ tags) 64)
  (fit (envelopeSize rs.length content.length) (header ++ recs ++ chunks.flatten ++ sig),
   s.modSec fun x => { x with draws := x.draws + 1 + 2 * rs.length, signs := x.signs + 1 })

/-! ### REPLAY (R332 to R334) -/

/-- Capture entry i of the payload: core, engine, issue count. [DESIGN CHOICE log entry 28] -/
def captureEntry (b : Bytes) (i : Nat) : Nat × Nat × Nat := (fld b (40 + 16 * i) 2, fld b (42 + 16 * i) 1, fld b (44 + 16 * i) 4)

def replayArgs (p : Nat) (b : Bytes) (s : State) : Bool :=
  let out := fld b 24 8
  let n := fld b 32 4
  payOk b 168 ([(2, 6), (37, 3)] ++ (List.range 8).flatMap fun i => [(43 + 16 * i, 1), (48 + 16 * i, 8)]) && decide (fld b 1 1 < 4) && decide (fld b 36 1 ≤ 8) &&
  (if bit (fld b 1 1) 0 then s.intakeOk (fld b 16 8) 1 && ownBytes p (fld b 16 8) else fld b 16 8 == 0) && out % 4096 == 0 && n % 4096 == 0 && s.outputOk out n && ownBytes p out &&
  (List.range (fld b 36 1)).all fun i =>
    let c := captureEntry b i
    decide (c.1 < (s.part p).res.floor) && decide (c.2.1 ≤ 6) && decide (1 ≤ c.2.2)

/-- Where a REPLAY starts, and the journalled frames that it re-executes, with the target among them. -/
structure ReplayPlan where
  start : Ckpt
  frames : List JEntry
  fits : Bool

/-- A launched entry of a sealed segment. -/
def SealEntry.entryOf (e : SealEntry) : JEntry := ⟨e.entry, e.ept, e.learn, e.cut, e.launch, 0, e.step, e.tensor, 0, []⟩

/-- The starting checkpoint and its frames: the latest retained one at or below the target, or the sealed one. [DESIGN CHOICE log entry 28] -/
def State.replayPlan (s : State) (p : Nat) (sealed : Bool) (target : Nat) (v : SealView) : Option ReplayPlan :=
  let q := s.part p
  match q.img.image with
  | none => none
  | some g =>
    let covers := fun (l : List JEntry) => l.any fun j => decide (j.step ≤ target) && decide (target < j.step + g.stepsOf j.ept j.learn)
    let upTo := fun (l : List JEntry) => l.filter fun j => decide (j.step ≤ target)
    if sealed then
      let l := v.entries.map SealEntry.entryOf
      if decide (v.step ≤ target) && covers l then
        some ⟨{ valid := true, step := v.step, seed := v.seed, bir := v.bir, journalN := v.journalN, mut_ := memWrite [] 0 v.mut_ }, upTo l, true⟩
      else none
    else
      let cks := [q.ck.slotA, q.ck.slotB].filter fun k => k.valid && decide (k.step ≤ target) && decide (q.ck.journalN - q.ck.journal.length ≤ k.journalN)
      match cks.foldl (fun (m : Option Ckpt) k => match m with | some x => if x.step < k.step then some k else m | none => some k) none with
      | none => none
      | some k => let l := q.ck.after k.journalN; if covers l then some ⟨k, upTo l, true⟩ else none

/-- REPLAY (R332, R333): the present state is kept, the starting checkpoint restored, and its frames are to be re-executed. [DEDUCED log entry 101] -/
def execReplay (slot : Nat) (view : SealView) (s : State) : Host.Outcome State Fault Refusal :=
  .next (s.partCommand slot 0x0108 true (inState [.armed, .faulted]) anyForm anyForm replayArgs fun n p b z =>
    let q := z.part p
    let sealed := bit (fld b 1 1) 0
    let target := fld b 8 8
    let faulted := q.st == .faulted
    if sealed && view.output then refuse z stArg else
    if sealed && !view.opens then refuse (z.envelopeFailed stIntegrity false) stIntegrity else
    match z.replayPlan p sealed target view with
    | none => refuse z stArg
    | some plan =>
      if faulted && !z.admits p then refuse z stResource
      else if sub plan.start.bir 6 138 != sub (z.bir p) 6 138 || (sealed && !view.chainOk) then refuse z stIntegrity
      else
        let caps := (List.range (fld b 36 1)).map (captureEntry b)
        let r : Replay := { slot := n, target := target, mutSec := bit (fld b 1 1) 1, out := fld b 24 8, size := fld b 32 4, caps := caps
                            saved := z.checkpointOf p, cores := q.res.place.map fun c => (c, (z.core c).sp), start := plan.start, frames := plan.frames }
        let z1 := ((if faulted then z.giveFull p else z).copyRest p).restoreFrom p plan.start |>.remoteMutable p 5
        (z1.modPart p fun q => { q with
          ck := { q.ck with replay := some r, stage := 3, catchUp := plan.frames, f1 := none, cls := none }
          run := { q.run with holds := [], held := false }
          img := { q.img with fault := { q.img.fault with captures := caps.map fun c => (c.1, c.2.1, c.2.2, []), mutOut := [] } }
          pwr := { q.pwr with ramp := some 0 } }, none))

/-- Stage 6 of R333: the state of stage 1 stands again. [DEDUCED log entry 101] -/
def State.replayRestore (s : State) (p : Nat) (r : Replay) : State :=
  let s1 := (s.restoreFrom p r.saved).stopRun p
  let s2 := r.cores.foldl (fun z c => z.modCore c.1 fun k => { k with sp := c.2 }) s1
  let s3 := s2.modPart p fun q => { q with
    ck := { q.ck with replay := none, stage := 0, catchUp := [], f1 := none, cls := none }, pwr := { q.pwr with ramp := none } }
  if (s.part p).st = .faulted then s3.dropGrant p else s3

/-- REPLAY_COMPLETE (R333, R334): the target step has ended, or a fault has: the copies are sealed to the output area, the state of stage 1 is
restored, and the command completes. Digests that do not fit a reply of 224 bytes (R413) are not carried. [DESIGN CHOICE log entry 54] [DEDUCED log entry 90] -/
def execReplayComplete (p : Nat) (s : State) : Host.Outcome State Fault Refusal :=
  .next (
    let q := s.part p
    match q.ck.replay with
    | none => s
    | some r =>
      if !(r.ended || (q.ck.catchUp.isEmpty && q.run.frame.isNone)) then s else
      let reached := r.caps.all fun c => decide (c.2.2 ≤ ((s.core (q.res.place.getD c.1 0)).eng.getD c.2.1 {}).issued)
      let back := s.replayRestore p r
      if r.aborted then back.finish r.slot stAborted []
      else if !reached || !r.ended then back.finish r.slot stArg []
      else
        let mutOut := q.img.fault.mutOut
        let caps := q.img.fault.captures.map fun c => c.2.2.2
        let content := caps.flatten ++ mutOut
        if r.size < envelopeSize s.recipients.length content.length && !content.isEmpty then back.finish r.slot stResource []
        else
          let e := back.envelope 5 (fit 32 q.cnt.bir) content
          let out := if content.isEmpty then back else e.2.winWrite r.out e.1
          out.finish r.slot stOk ((caps.flatMap fun c => Config.shake c 32) ++ (if r.mutSec then Config.shake mutOut 32 else []) ++ fit 32 q.cnt.bir))

end Sys2Proof.Machine
end

