-- ==== Sys2Proof/Machine/FieldCmd.lean ====
section
/-! DEFINITION. The field commands (R353, R356, R358 to R362, R367, R382, R383, R425) and the time commands (R83, R85 to R87, R543). -/

namespace Sys2Proof.Machine

/-! ### PORT_CONFIG and PORT_STATUS -/

/-- The payload of PORT_CONFIG is one of those of R382. [DESIGN CHOICE log entry 36] -/
def portConfigOk (b : Bytes) : Bool :=
  payOk b 64 [(14, 2)] && decide (fld b 0 1 < 8) && decide (fld b 1 1 < 4) && decide (fld b 2 1 < 4) && (fld b 2 1 == 3 || fld b 1 1 == 0) && decide (fld b 3 1 < 16) &&
  (List.range 8).all fun i => decide (fld b (48 + 2 * i) 2 < 4095)

/-- A partition may be disturbed by no change of its ports (R382). -/
def portFixed (st : PState) : Bool := st == .armed || st == .running || st == .held || st == .restarting || st == .shadow

/-- A change of mode (R356): the link is lost, the port is no PTP source, its MACsec receive state and the held values of its input points
go; sub-port settings of the former mode too. -/
def State.changeMode (s : State) (port mode : Nat) : State :=
  let s0 := if (s.port port).lanes = 0 then s else (s.modPort port fun x => x.goDown s.opTicks).record 3 0x0030 0x05 port (natLe 1 (s.port port).lanes)
  let s1 := s0.modPort port fun x => { x with mode := mode, lanes := 0, cfg := [], last := [] }
  let s2 := s1.modField fun f => { f with
    assocs := f.assocs.map fun (a : Nat × Assoc) => if a.2.port == port && !a.2.transmit then (a.1, { a.2 with rxPn := [] }) else a
    points := f.points.map fun (x : Nat × Point) => if !x.2.output && x.2.port == port && x.2.src != 2 then (x.1, { x.2 with held := [] }) else x }
  (s2.modPtp port fun _ => {}).reselect

/-- PORT_CONFIG (R382), as a mailbox command or as a stored one (R434). [DESIGN CHOICE log entry 36] -/
def State.portConfig (s : State) (b : Bytes) : State × Option (Nat × Bytes) :=
  if !portConfigOk b then refuse s stArg else
  let port := fld b 0 1
  let old := (s.port port).subCfg (fld b 1 1)
  let moved := (s.port port).mode != fld b 2 1
  let addr := Sys2Proof.sub old 8 6 != Sys2Proof.sub b 8 6 || Sys2Proof.sub old 16 32 != Sys2Proof.sub b 16 32
  let fixed := match s.portOwner port with | some p => portFixed (s.part p).st | none => false
  if fixed && (moved || addr) then refuse s stState else
  let s1 := if moved then s.changeMode port (fld b 2 1) else s
  okReply (s1.modPort port fun x => { x with cfg := x.cfg.put (fld b 1 1) (fit 64 b) }) []

/-- PORT_CONFIG. -/
def execPortConfig (slot : Nat) (s : State) : Host.Outcome State Fault Refusal :=
  .next (s.command slot 0x0201 [3, 4, 5] true anyForm anyForm none fun _ b z => z.portConfig b)

/-- The registers 0x100 to 0x134 of a port (R383). -/
def State.portRegs (s : State) (port : Nat) : List Nat :=
  let x := s.port port
  let ms := x.cfg.any fun c => bit (fld c.2 3 1) 0
  let own := s.portOwner port
  let stat := x.mode + 4 * (x.lanes % 16) + 64 * b2n ms + 128 * own.getD 0 + 1024 * b2n own.isSome + 2048 * b2n x.down
  [stat, x.rx] ++ (List.range 6).map (fun i => x.drop.getD i 0) ++ [x.tx, x.txLate, x.txDrop, x.fecCorr, x.fecUncorr, x.maxDev % 65536]

/-- PORT_STATUS (R425). -/
def execPortStatus (slot : Nat) (s : State) : Host.Outcome State Fault Refusal :=
  .next (s.command slot 0x0202 locked4 false anyForm anyForm none fun _ b z =>
    if !payOk b 1 [] || decide (7 < fld b 0 1) then refuse z stArg
    else okReply z ((z.portRegs (fld b 0 1)).flatMap (natLe 4)))

/-! ### MACsec associations (R361, R362, R425, R469) -/

/-- A port byte: port in bits [2:0], sub-port in bits [4:3]. -/
def portByteOk (x : Nat) : Bool := decide (x < 32)

def saInstallArgs (b : Bytes) : Bool :=
  payOk b 80 [] && decide (1 ≤ fld b 0 1) && decide (fld b 0 1 ≤ 63) && portByteOk (fld b 1 1 % 128) && decide (fld b 2 1 < 4) && decide (fld b 3 1 < 2) &&
  decide (fld b 28 4 ≤ 1073741824)

/-- The association that the payload would create. [DESIGN CHOICE log entry 34] -/
def newAssoc (b : Bytes) : Assoc :=
  { port := fld b 1 1 % 8, sub := fld b 1 1 / 8 % 4, transmit := bit (fld b 1 1) 7, sci := fld b 4 8, ssci := fld b 12 4, salt := sub b 16 12, window := fld b 28 4 }

/-- A port or sub-port has room for one more secure channel of a direction (R361). [DESIGN CHOICE log entry 34] -/
def State.channelRoom (s : State) (a : Assoc) : Bool :=
  let n := (s.field.assocs.filter fun x => x.2.port == a.port && x.2.sub == a.sub && x.2.transmit == a.transmit).length
  decide (n < if a.transmit then 1 else 8)

/-- SA_INSTALL (R362, R469). sak: what unwrapping gives; the seal holds when wrapping it gives the payload's bytes (log entry 11). [DESIGN CHOICE log entry 34] -/
def execSaInstall (slot : Nat) (sak : Bytes) (s : State) : Host.Outcome State Fault Refusal :=
  .next (s.command slot 0x0203 [3, 4, 5] true anyForm anyForm none fun n b z =>
    let i := fld b 0 1
    let key := match z.sec.owner with | some k => sub k.keys 32 32 | none => []
    let old := z.field.assocs.get? i
    if !saInstallArgs b || old.isNone != bit (fld b 3 1) 0 then refuse z stArg
    else if old.isNone && !z.channelRoom (newAssoc b) then refuse z stResource
    else if Config.gcm key (natLe 8 (z.host.nums.getD n 0) ++ zeros 4) (sub b 0 32) sak != sub b 32 48 then refuse z stIntegrity
    else
      let a := old.getD (newAssoc b)
      okReply (z.modField fun f => { f with assocs := f.assocs.put i { a with saks := a.saks.put (fld b 2 1) sak, pns := a.pns.del (fld b 2 1), warned := setDel a.warned (fld b 2 1), rxPn := a.rxPn.put (fld b 2 1) 1 } }) [])

/-- SA_ACTIVATE (R362): at once, or at the frame boundary of the running partition that holds the port. -/
def execSaActivate (slot : Nat) (s : State) : Host.Outcome State Fault Refusal :=
  .next (s.command slot 0x0204 [3, 4, 5] true anyForm anyForm none fun _ b z =>
    match z.field.assocs.get? (fld b 0 1) with
    | none => refuse z stArg
    | some a =>
      let an := fld b 1 1
      if !payOk b 2 [] || !a.transmit || (a.saks.get? an).isNone then refuse z stArg else
      let runs : Bool := match z.portOwner a.port with | some p => (z.part p).st == .running || (z.part p).st == .held | none => false
      let a1 := if runs then { a with anPend := some an } else { a with an := some an, anPend := none }
      okReply (z.modField fun f => { f with assocs := f.assocs.put (fld b 0 1) a1 }) [])

/-- A bound point names an association. -/
def State.assocNamed (s : State) (i : Nat) : Bool := s.field.points.any fun x => x.2.owned && x.2.valid? && x.2.msa == i

/-- SA_CLEAR (R382, R425). -/
def execSaClear (slot : Nat) (s : State) : Host.Outcome State Fault Refusal :=
  .next (s.command slot 0x0205 [3, 4, 5] true anyForm anyForm none fun _ b z =>
    let i := fld b 0 1
    let an := fld b 1 1
    match z.field.assocs.get? i with
    | none => refuse z stArg
    | some a =>
      if !payOk b 2 [] then refuse z stArg
      else if an = 255 then
        if z.assocNamed i then refuse z stArg else okReply (z.modField fun f => { f with assocs := f.assocs.del i }) []
      else if (a.saks.get? an).isNone || (a.transmit && a.an == some an) then refuse z stArg
      else okReply (z.modField fun f => { f with assocs := f.assocs.put i { a with
        saks := a.saks.del an, pns := a.pns.del an, rxPn := a.rxPn.del an, anPend := if a.anPend == some an then none else a.anPend } }) [])

/-! ### Destinations and subscriptions (R360, R382, R390, R425) -/

/-- A bound output point uses a destination record. -/
def State.destUsed (s : State) (d : Bytes) : Bool :=
  bit (fld d 2 1) 0 && s.field.points.any fun x => x.2.owned && x.2.valid? && x.2.output && x.2.stream == fld d 4 4 && fld d 3 1 % 32 == x.2.port + 8 * x.2.sub

/-- DEST_SET (R382, R425). [DESIGN CHOICE log entry 36] -/
def execDestSet (slot : Nat) (s : State) : Host.Outcome State Fault Refusal :=
  .next (s.command slot 0x0206 [3, 4, 5] true anyForm anyForm none fun _ b z =>
    let i := fld b 0 2
    if !payOk b 35 [] || decide (4095 < i) || decide (3 < fld b 2 1) || !portByteOk (fld b 3 1) then refuse z stArg
    else if !bit (fld b 2 1) 0 && z.destUsed (z.field.dests.getD i []) then refuse z stArg
    else okReply (z.modField fun f => { f with dests := f.dests.put i (fit 35 b) }) [])

def svArgs (b : Bytes) : Bool :=
  payOk b 92 [] && decide (fld b 0 1 ≤ 63) && decide (fld b 1 1 ≤ 3) && decide (fld b 2 1 ≤ 15) && decide (fld b 3 1 ≤ 1) && portByteOk (fld b 26 1) &&
  (!bit (fld b 1 1) 0 || (decide (0x4000 ≤ fld b 10 2) && decide (fld b 10 2 ≤ 0x7FFF) && decide (1 ≤ fld b 27 1) && decide (fld b 27 1 ≤ 64)))

/-- SV_SUBSCRIBE (R360, R390): the subscription and its virtual source begin again. -/
def execSvSubscribe (slot : Nat) (s : State) : Host.Outcome State Fault Refusal :=
  .next (s.command slot 0x0207 [3, 4, 5] true anyForm anyForm none fun _ b z =>
    if !svArgs b then refuse z stArg else
    let v := fld b 0 1
    let z1 := z.modField fun f => { f with
      subs := f.subs.put v { raw := fit 92 b }
      ports := f.ports.map fun (x : Nat × Port) => (x.1, { x.2 with last := x.2.last.del (2 ^ 40 + v) }) }
    okReply (z1.modAwn (64 + v) fun a => { a with nom := fld b 3 1 == 1, state := 0, est := none, base := none, good := 0, low := 0 }) [])

/-! ### POINT_READ and EMIT_BASE (R367, R382, R425) -/

/-- POINT_READ. -/
def execPointRead (slot : Nat) (s : State) : Host.Outcome State Fault Refusal :=
  .next (s.command slot 0x0208 [3, 4, 5] false anyForm anyForm none fun _ b z =>
    let n := fld b 4 4
    if !payOk b 16 [] || decide (n < 1) || decide (65536 < n) || decide (65536 < fld b 0 4 + n) || !z.outputOk (fld b 8 8) (64 * n) then refuse z stArg
    else okReply (z.winWrite (fld b 8 8) ((List.range n).flatMap fun i => (z.point (fld b 0 4 + i)).bytes)) [])

/-- EMIT_BASE (R367). -/
def execEmitBase (slot : Nat) (s : State) : Host.Outcome State Fault Refusal :=
  .next (s.command slot 0x0209 [3, 4, 5] true anyForm anyForm (some (inState [.loaded, .armed])) fun _ b z =>
    if !payOk b 16 [(1, 7)] then refuse z stArg
    else okReply (z.modCnt (fld b 0 1) fun c => { c with emit := fld b 8 8 }) [])

/-! ### Time commands (R83, R85 to R87) -/

def timeConfigOk (b : Bytes) : Bool :=
  let port := fun (x : Nat) => decide (x < 8) || x == 255
  payOk b 10 [] && port (fld b 0 1) && port (fld b 1 1) && (fld b 1 1 == 255 || fld b 1 1 != fld b 0 1) && decide (fld b 2 1 ≤ 1) && decide (fld b 3 1 ≤ 1) &&
  (fld b 2 1 == 0 || fld b 3 1 == 0) && decide (fld b 4 1 ≤ 127) && decide (fld b 5 1 ≤ 1) && decide (fld b 6 1 ≤ 3) && decide (fld b 7 1 ≤ 1)

/-- TIME_CONFIG (R85, R86), as a mailbox command or as a stored one: it applies at once, and the servo restarts. [DESIGN CHOICE log entry 36] -/
def State.timeConfig (s : State) (b : Bytes) : State × Option (Nat × Bytes) :=
  if !timeConfigOk b then refuse s stArg
  else okReply ((s.modTime fun t => { t with cfg := fit 10 b, ports := [], ppsLocked := false, track := 0, left := 0 }).reselect) []

/-- TIME_CONFIG. -/
def execTimeConfig (slot : Nat) (s : State) : Host.Outcome State Fault Refusal :=
  .next (s.command slot 0x0210 [3, 4, 5] true anyForm anyForm none fun _ b z => z.timeConfig b)

/-- The limit of R82 accrued since entry into HOLDOVER, in ns, rounded up: 1 us per hour with 10 MHz in, 20 us per hour without. -/
def State.holdoverError (s : State) : Nat := if s.time.state = 3 then ceilDiv (s.time.holdErr * 1000) 9000000000000 else 0

/-- TIME_STATUS (R87): time state, source in use, offset estimate, error bound in ns, 10 MHz and 1PPS present, UTC offset, module time (log entry 20). -/
def execTimeStatus (slot : Nat) (s : State) : Host.Outcome State Fault Refusal :=
  .next (s.command slot 0x0211 locked4 false anyForm anyForm none fun _ _ z =>
    let t := z.time
    okReply z (natLe 1 t.state ++ natLe 1 t.source ++ natLe 8 (ofSigned 64 t.offset) ++ natLe 8 (Config.sourceUncertainty t.source + z.holdoverError) ++
      natLe 1 (b2n t.tenMhz + 2 * b2n t.ppsIn) ++ natLe 2 (ofSigned 16 t.utc) ++ timeBytes z.now))

/-- TIME_SET (R83, R85): module time is stepped to the SECONDS and NANOSECONDS of the payload, in the form of R75 (log entry 20). -/
def execTimeSet (slot : Nat) (s : State) : Host.Outcome State Fault Refusal :=
  .next (s.command slot 0x0212 [3, 4, 5] true anyForm anyForm none fun _ b z =>
    if z.time.state = 1 || z.time.state = 2 || !z.mayStep then (z, some (stState, natLe 1 z.time.state))
    else if !payOk b 12 [] || decide (1000000000 ≤ fld b 2 4) then refuse z stArg
    else
      let dest1 := fld b 6 6 * Config.tSec + fld b 2 4 * 65536
      let z1 := z.stepTime ((dest1 : Int) - z.now)
      okReply ((z1.modTime fun t => { t with count := dest1 * 4294967296, known := true }).reselect) [])

end Sys2Proof.Machine
end

