-- ==== Sys2Proof/Machine/Power.lean ====
section
/-! DEFINITION. Granary: domains, pulses, guards, thermal limits, the cap (17), and the module's input, coolant and sensors (R22, R30, R31,
R33). -/

namespace Sys2Proof.Machine

/-! ### Domains (R484 to R486) -/

/-- The ramp group of a logical core of a floor (R486). [DESIGN CHOICE log entry 117] -/
def rampGroup (floor l : Nat) : Nat := l * 64 / max 1 floor

/-- The state of a core's domain that is to be ON: RAMPING until its group ungates. [DESIGN CHOICE log entry 117] -/
def Part.coreOn (q : Part) (l : Nat) : Nat := match q.pwr.ramp with | some k => if rampGroup q.res.place.length l < k then 2 else 3 | none => 2

/-- A partition's Culm cores, in slot order after the four of Chokehus (log entry 53). -/
def State.culmHolder (s : State) (i : Nat) : Option Nat :=
  (List.range Config.nParts).find? fun p =>
    let before := 4 + ((List.range p).map fun k => (s.part k).res.culm).sum
    decide (before ≤ i) && decide (i < before + (s.part p).res.culm)

/-- A partition's state in which its core domains are ON (R485). [DEDUCED log entry 118] -/
def Part.domainsOn (q : Part) : Bool :=
  match q.st with
  | .running | .held | .shadow => true
  | .restarting => decide (3 ≤ q.ck.stage)
  | .faulted => q.ck.replay.isSome
  | _ => false

/-- The state of a power domain under the rules of R485 and R486: 0 OFF, 1 RETAIN, 2 ON, 3 RAMPING. [DEDUCED log entry 118] -/
def State.domState (s : State) (i : Nat) : Nat :=
  if s.ctl.mstate = 0 ∨ s.board.modrst ∨ s.board.failing.isSome then 0
  else if i < 576 then
    match s.owner i with
    | some (p, l) => let q := s.part p
      if q.domainsOn then q.coreOn l else if q.st = .armed ∨ q.st = .restarting then 1 else 0
    | none => if 6 ≤ s.board.stage then 2 else 0
  else if i < 864 then 2
  else if i < 896 then b2n (decide (i - 864 < s.stacks)) * 2
  else if i < 928 then b2n (decide (i - 896 < s.stacks) && (List.range 32).any fun k => !(s.pc (32 * (i - 896) + k)).selfref) * 2
  else if i < 944 then
    if i < 932 then b2n (s.ctl.mstate != 1 || 6 ≤ s.board.stage) * 2 else match s.culmHolder (i - 928) with | some p => b2n (s.part p).domainsOn * 2 | none => 0
  else if 950 ≤ i && i ≤ 957 then b2n ((s.port (i - 950)).mode != 0) * 2
  else if i = 959 ∨ i = 960 then b2n (s.twin.pair != 0) * 2
  else if i = 962 then b2n ((List.range 12).any fun k => (s.meas.awn.getD k {}).en) * 2
  else 2

/-- CORE_RAMP_GROUP (R486): the next of 64 groups ungates. -/
def execCoreRampGroup (p : Nat) (s : State) : Host.Outcome State Fault Refusal :=
  .next (match (s.part p).pwr.ramp with
  | some k => s.modPart p fun q => { q with pwr := { q.pwr with ramp := if 63 ≤ k then none else some (k + 1) } }
  | none => s)

/-! ### Pulses (R492, R493, R496) -/

def State.modGran (s : State) (f : Granary → Granary) : State := { s with gran := f s.gran }

/-- A POWER hold of a partition (R308, R309, R310): it takes effect 96 logical cycles later, after resumption where the partition is held. tag: 1 a
fast-limit event, 2 the sustained guard, 3 a hot spot; a pulse of the last two ends 10 us after it took effect (R493, R496). [DEDUCED log entry 116] -/
def State.powerHold (s : State) (p tag : Nat) : State :=
  ((s.announce p 4 (some (1023, 7, tag))).modPwr p fun w => { w with pulses := satAdd w.pulses 1 }).modGran fun g => { g with pulses := satAdd g.pulses 1 }

/-- The fast-limit holds that have been in effect for 4 us are to end (R492). -/
def State.endPulses (s : State) (p : Nat) : State :=
  s.announceEnd p fun h => h.kind == 4 && h.ann == some (1023, 7, 1) && match h.began with | some b => decide (b + 10000 ≤ s.cc) | none => false

/-- The domain registers after a sample (R498). -/
def State.sampleDomains (s : State) (doms : List DomSample) : State :=
  s.modGran fun g => { g with doms := (List.range 964).map fun i =>
    let d := g.doms.getD i {}
    let st := s.domState i
    (i, match doms.find? fun x => x.dom == i with
      | some x => { state := st, ma := x.ma % 2 ^ 32, mv := x.mv % 65536, mw := x.mw % 2 ^ 32, uj := (d.uj + x.uj) % 2 ^ 64, imax := max d.imax (x.ma % 2 ^ 32) }
      | none => { d with state := st }) }

/-- GRANARY_SAMPLE (R392, R492, R498): input power in W and its average over 1 ms, voltage, blade currents, the draw of partitions over the last
10 us in W, domain telemetry. [DESIGN CHOICE log entry 119] -/
def execGranarySample (watts mean volts i1 i2 : Nat) (draws : List (Nat × Nat)) (doms : List DomSample) (s : State) : Host.Outcome State Fault Refusal :=
  .next (
    if !s.alive then s else
    let high := if s.gran.loss then 9001 else 16000
    let low := if s.gran.loss then 9000 else 15000
    let s0 := (s.sampleDomains doms).modGran fun g => { g with power := mean, volts := volts % 65536, i1 := i1 % 65536, i2 := i2 % 65536 }
    let s1 := draws.foldl (fun (z : State) x => if x.1 < Config.nParts then z.modPart x.1 fun q => { q with
      pwr := { q.pwr with drawSum := q.pwr.drawSum + x.2, drawN := q.pwr.drawN + 1 } } else z) s0
    if high ≤ watts then
      let gs := s1.granted
      let past := gs.filter fun p => draws.any fun x => x.1 == p && decide ((s1.part p).pwr.peak < x.2)
      let hit := if past.isEmpty then gs else past
      let s2 := hit.foldl (fun (z : State) p => z.powerHold p 1) s1
      if hit.isEmpty then s2 else
      let tell := match s2.gran.pulseTold with | some t => t / 1000 != s2.opMs / 1000 | none => true
      let s3 := s2.modGran fun g => { g with lastPulse := some s2.opMs, pulseTold := if tell then some s2.opMs else g.pulseTold }
      if tell then s3.record 3 0x0040 0 0 [] else s3
    else if watts ≤ low then (List.range Config.nParts).foldl State.endPulses s1
    else s1)

/-- GRANARY_CYCLE (R493): the 5 ms average draw of partitions, in mW, against their grants. -/
def execGranaryCycle (avgs : List (Nat × Nat)) (s : State) : Host.Outcome State Fault Refusal :=
  .next (avgs.foldl (fun (z : State) x =>
    let p := x.1
    let w := (z.part p).pwr
    if w.grant = 0 then z.modPart p (fun q => { q with pwr := { q.pwr with guardOn := false } }) else
    let on := if w.grant * 102000 < x.2 * 100 then true else if x.2 * 100 ≤ w.grant * 101000 then false else w.guardOn
    let due := on && (match w.guardLast with | some t => decide (t + 250000 ≤ z.opTicks) | none => true)
    let tell := on && (match w.guardTold with | some t => decide (t + 60000 ≤ z.opMs) | none => true)
    let z1 := z.modPart p fun q => { q with pwr := { q.pwr with
      guardOn := on, guardLast := if due then some z.opTicks else if on then q.pwr.guardLast else none
      guardTold := if tell then some z.opMs else q.pwr.guardTold } }
    let z2 := if due then z1.powerHold p 2 else z1
    if tell then z2.record 3 0x0040 0x08 p [] else z2) s)

/-! ### Thermal limits (R494 to R496) -/

/-- The hottest reading of a table, if there is one. -/
def hottest (t : Tbl Int) : Option Int := t.foldl (fun m x => match m with | some y => some (max y x.2) | none => some x.2) none

/-- Hottest reading of the compute, root and edge dies, and of the stacks. -/
def State.hottestDie (s : State) : Option Int := hottest ((s.dies.flatMap fun d => d.2.temp) ++ s.meas.root ++ s.meas.edge)
def State.hottestStack (s : State) : Option Int := hottest s.hbm.temp

/-- Some reading is at or above, or every reading is below, a pair of limits for dies and stacks in whole degrees. -/
def State.tempAtLeast (s : State) (die stack : Int) : Bool :=
  (match s.hottestDie with | some t => decide (8 * die ≤ t) | none => false) || (match s.hottestStack with | some t => decide (8 * stack ≤ t) | none => false)

/-- The grade's highest cap (R3). [DESIGN CHOICE log entry 10] -/
def State.capMax (s : State) : Nat := if s.board.ext then 13500 else 15000

/-- THERMAL_CAP_ADJUST (R495): every 10 ms. -/
def execThermalCapAdjust (s : State) : Host.Outcome State Fault Refusal :=
  .next (
    if !s.alive then s
    else if s.tempAtLeast 100 90 then
      let s1 := s.modGran fun g => { g with thermal := max 6000 (g.thermal - 250), derate := true }
      (if s.gran.derate then s1 else s1.record 3 0x0041 0 0 []).regrant
    else if !s.tempAtLeast 97 87 then
      let s1 := s.modGran fun g => { g with thermal := min s.capMax (g.thermal + 250), derate := false }
      let s2 := if s.gran.derate then s1.record 3 0x0041 0 0 [] else s1
      if s.gran.thermal = min s.capMax (s.gran.thermal + 250) then s2 else s2.regrant
    else s)

/-- The units at or above their hot-spot limit, or above its release since they reached it: compute dies (class 2), stacks (class 3), and the
root and edge dies (class 0). -/
def State.hotUnits (s : State) : List (Nat × Nat) :=
  let keep := fun (c i : Nat) (t : Tbl Int) (lim rel : Int) => match hottest t with
    | some x => decide (8 * lim ≤ x) || (decide (8 * rel < x) && s.gran.hot.any fun h => h.1 == c && h.2.1 == i)
    | none => false
  (s.dies.filter fun d => keep 2 d.1 d.2.temp 105 104).map (fun d => (2, d.1)) ++
  (s.hbm.temp.filter fun t => keep 3 t.1 [t] 95 94).map (fun t => (3, t.1)) ++
  (if keep 0 0 (s.meas.root ++ s.meas.edge) 105 104 then [(0, 0)] else [])

/-- A die and its neighbours in the mesh (R14). -/
def dieArea (d : Nat) : List Nat :=
  [d] ++ (if d % 16 = 0 then [] else [d - 1]) ++ (if d % 16 = 15 then [] else [d + 1]) ++ (if d < 16 then [] else [d - 16]) ++ (if 272 ≤ d then [] else [d + 16])

/-- The partitions that a hot unit's pulses go to (R496). -/
def State.hotTargets (s : State) (u : Nat × Nat) : List Nat :=
  let l := (List.range Config.nParts).filter fun p => let q := s.part p
    (u.1 == 2 && q.res.place.any fun c => (dieArea u.2).contains (c / 2)) || (u.1 == 3 && q.res.created && q.res.slices != 0)
  if l.isEmpty then s.granted else l

/-- HOT_SPOT_PULSE (R496): every hot unit draws a pulse of 10 us every 20 us. [DESIGN CHOICE log entry 61] -/
def execHotSpotPulse (s : State) : Host.Outcome State Fault Refusal :=
  .next (
    let hot := s.hotUnits
    let last := fun (u : Nat × Nat) => (s.gran.hot.find? fun h => h.1 == u.1 && h.2.1 == u.2).map fun h => h.2.2
    let due := hot.filter fun u => match last u with | some t => decide (t + 50000 ≤ s.opTicks) | none => true
    let s1 := s.modGran fun g => { g with hot := hot.map fun u => (u.1, u.2, if due.contains u then s.opTicks else (last u).getD 0) }
    let s2 := due.foldl (fun (z : State) u => (z.hotTargets u).foldl (fun (y : State) p => y.powerHold p 3) z) s1
    match hot with
    | [] => s2
    | u :: _ =>
      if (match s.gran.hotTold with | some t => decide (t + 60000 ≤ s.opMs) | none => true) then
        (s2.modGran fun g => { g with hotTold := some s.opMs }).record 4 0x0041 (if u.1 = 2 then 2 else 0) (if u.1 = 2 then u.2 else 0) []
      else s2)

/-! ### The blades (R22) -/

/-- BLADE_LOSS (R22, R39): holds announced at once on every partition with a grant, the budget of 9,000 W, a fault, the alert. pb1, pb2: the presence contacts as
they then stand. -/
def execBladeLoss (pb1 pb2 : Bool) (s : State) : Host.Outcome State Fault Refusal :=
  .next (
    if !s.alive then s else
    let s := { s with board := { s.board with pb1 := pb1, pb2 := pb2 } }
    if s.gran.loss then s else
    let s1 := s.granted.foldl (fun (z : State) p => z.powerHold p 1) s
    let s2 := (s1.modGran fun g => { g with loss := true, lastPulse := if s.granted.isEmpty then g.lastPulse else some s.opMs }).regrant
    let s3 := (s2.record 5 0x0040 0 0 []).event 3
    { s3 with board := { s3.board with alert := true } })

/-- BLADE_BUDGET_RESTORE (R22): both blades, present, have shared for 1 s. -/
def execBladeBudgetRestore (s : State) : Host.Outcome State Fault Refusal :=
  .next (if s.gran.loss then
    (({ s with board := { s.board with pb1 := true, pb2 := true } }).modGran fun g => { g with loss := false }).regrant else s)

/-! ### Coolant, leak, junction (R30, R31, R33) -/

/-- COOLANT_SAMPLE (R30): coupling temperatures in 0.125 degrees C; the flow in 0.01 L/min is estimated from them and the measured input power.
[DESIGN CHOICE log entry 120] -/
def execCoolantSample (inlet outlet : Int) (s : State) : Host.Outcome State Fault Refusal :=
  .next (
    if !s.alive then s else
    let flow := Config.coolantFlow inlet outlet s.gran.power
    let bad := decide (flow < 2400) || decide (320 < inlet)
    let tell := bad && (match s.board.coolWarned with | some t => decide (t + 60000 ≤ s.opMs) | none => true)
    let s1 : State := { s with board := { s.board with
      inlet := inlet, outlet := outlet, flow := flow, coolWarned := if tell then some s.opMs else if bad then s.board.coolWarned else none } }
    if tell then s1.record 3 0x0041 0 0 [] else s1)

/-- LEAK_DETECTED (R31, R39, R409). -/
def execLeakDetected (s : State) : Host.Outcome State Fault Refusal :=
  .next (
    if !s.alive then s else
    let s1 := (s.record 6 0x0042 0 0 []).event 2
    { s1 with board := { s1.board with alert := true } })

/-- JUNCTION_HOURLY_UPDATE (R33): the hour's hottest compute-die reading enters the long-term average; a mean above the grade's limit is a
notice every 24 operating hours. -/
def execJunctionHourlyUpdate (s : State) : Host.Outcome State Fault Refusal :=
  .next (match s.board.jMax with
  | none => s
  | some m =>
    if !s.alive then s else
    let h := s.board.jHours + 1
    let sum := s.board.jSum + m
    let limit : Int := if s.board.ext then 680 else 760
    let above := decide (limit * h < sum)
    let tell := above && (match s.board.jNotice with | some t => decide (t + 86400000 ≤ s.opMs) | none => true)
    let s1 : State := { s with board := { s.board with
      jHours := h, jSum := sum, jMax := none, jNotice := if tell then some s.opMs else if above then s.board.jNotice else none } }
    if tell then s1.record 2 0x0041 0 0 [] else s1)

/-- The long-term average junction temperature, rounded down (R33). -/
def Board.junction (b : Board) : Int := if b.jHours = 0 then 0 else b.jSum / b.jHours

/-! ### SET_CAP and POWER_STATUS (R491, R500) -/

/-- SET_CAP's payload check and effect (R491), as a mailbox command or as a stored one: status and reply. -/
def State.setCap (s : State) (b : Bytes) : State × Option (Nat × Bytes) :=
  let cap := fld b 0 2
  if !payOk b 8 [(2, 6)] || decide (cap < 6000) || decide (s.capMax < cap) then refuse s stArg else
  let s1 := s.modGran fun g => { g with cap := cap }
  let gs := s1.granted
  if s1.gMax < (gs.map fun p => (s1.part p).pwr.idle + 100).sum then refuse s stResource else
  let s2 := s1.regrant
  let changed := gs.foldl (fun m p => if (s2.part p).pwr.target = (s.part p).pwr.target then m else m + 2 ^ p) 0
  okReply s2 (natLe 2 cap ++ natLe 2 s1.gMax ++ natLe 1 changed)

/-- SET_CAP (R491). -/
def execSetCap (slot : Nat) (s : State) : Host.Outcome State Fault Refusal :=
  .next (s.command slot 0x0601 [3, 4, 5] true anyForm anyForm none fun _ b z => z.setCap b)

/-- A reading in 16 bits, 0 for none. -/
def reading (t : Option Int) : Bytes := natLe 2 (ofSigned 16 (t.getD 0))

/-- POWER_STATUS (R500). -/
def execPowerStatus (slot : Nat) (s : State) : Host.Outcome State Fault Refusal :=
  .next (s.command slot 0x0602 locked4 false anyForm anyForm none fun _ _ z =>
    let g := z.gran
    let gs := z.granted
    let pulse := match g.lastPulse with | some t => decide (z.opMs < t + 1000) | none => false
    let flags := b2n g.loss + 2 * b2n g.derate + 4 * b2n pulse + 8 * b2n ((List.range 8).any fun p => (z.part p).pwr.guardOn) + 16 * b2n (!g.hot.isEmpty)
    okReply z (natLe 4 g.power ++ natLe 2 g.volts ++ natLe 2 g.i1 ++ natLe 2 g.i2 ++ natLe 2 g.cap ++ natLe 2 g.thermal ++ natLe 2 z.gMax ++ natLe 2 z.pBase ++
      natLe 2 (gs.map fun p => (z.part p).pwr.grant).sum ++ natLe 2 (gs.map fun p => (z.part p).pwr.peak).sum ++ natLe 1 flags ++ zeros 1 ++
      reading z.hottestDie ++ reading z.hottestStack ++ natLe 4 g.pulses ++ (List.range 8).flatMap fun p => natLe 2 (z.part p).pwr.grant))

end Sys2Proof.Machine
end

