-- ==== Sys2Proof/Machine/Secure.lean ====
section
/-! DEFINITION. Trust (16): owner keys and sessions (R459 to R461, R465 to R470), quotes (R476 to R478), debug unlock (R479, R480), zeroisation (R481,
R482), the policy (R483), firmware (R460, R533), SERVICE (R422), overlays (R435, R436, R450). -/

namespace Sys2Proof.Machine

/-! ### Segments and chunks (R465) -/

/-- A segment's payload is well formed. -/
def segArgs (b : Bytes) : Bool :=
  let n := fld b 4 2
  payOk b 16 [(6, 10)] && decide (fld b 1 1 < 4) && decide (1 ≤ n) && decide (n ≤ 208) && decide (16 + n ≤ b.length)

def segFirst (b : Bytes) : Bool := bit (fld b 1 1) 0
def segLast (b : Bytes) : Bool := bit (fld b 1 1) 1

/-- What the object is with this segment. -/
def State.segData (s : State) (key : Nat) (b : Bytes) : Bytes :=
  (if segFirst b then [] else match s.sec.segs.get? key with | some g => g.data | none => []) ++ sub b 16 (fld b 4 2)

/-- The segment comes in its order. -/
def State.segOrder (s : State) (key : Nat) (b : Bytes) : Bool :=
  if segFirst b then fld b 2 2 == 0 else match s.sec.segs.get? key with | some g => fld b 2 2 == g.next | none => false

/-- A segmented object (R465): it is kept until its last segment, with which it is checked; out of order it is abandoned. -/
def State.segmented (s : State) (key : Nat) (b : Bytes) (run : Bytes → State → State × Option (Nat × Bytes)) : State × Option (Nat × Bytes) :=
  let drop := s.modSec fun x => { x with segs := x.segs.del key }
  if !segArgs b || !s.segOrder key b then refuse drop stArg
  else if segLast b then run (s.segData key b) drop
  else okReply (s.modSec fun x => { x with segs := x.segs.put key ⟨fld b 2 2 + 1, s.segData key b⟩ }) []

/-- Chunk i of a chunked read. -/
def chunkReply (obj : Bytes) (i : Nat) : Option Bytes :=
  let n := ceilDiv obj.length 216
  let d := (obj.drop (216 * i)).take 216
  if n ≤ i then none else some (natLe 2 i ++ natLe 2 n ++ natLe 2 d.length ++ zeros 2 ++ d)

/-- A chunk as an answer; past the end BAD_ARG. [DESIGN CHOICE log entry 54] -/
def giveChunk (s : State) (obj : Bytes) (i : Nat) : State × Option (Nat × Bytes) := match chunkReply obj i with | some r => okReply s r | none => refuse s stArg

/-! ### Signed objects (R461) -/

/-- The owner slot in force, a pending key's included; none on a module without owner (R459). -/
def Sec.ownerSlot (x : Sec) : Option Nat := if x.pend.isSome then some x.owners.length else if x.owners.isEmpty then none else some (x.owners.length - 1)

/-- A vendor slot is in force (R458). -/
def Sec.vendorOk (x : Sec) (k : Nat) : Bool := match x.vendors.get? k with | some v => !v.revoked | none => false

def objKind (o : Bytes) : Nat := fld o 6 1
def objSigner (o : Bytes) : Nat := fld o 7 1
def objArg (o : Bytes) : Nat := fld o 60 4

/-- The object's form (R461): magic, version, the body length of its kind. -/
def objForm (o : Bytes) (body : Nat) : Bool := fld o 0 4 == 0x4753394B && fld o 4 2 == 1 && fld o 56 4 == body && o.length == 64 + body + 3309

/-- A signed object is checked: its form, then its signature, serial, signer and nonce; a failure is recorded (R483). sigOk: the signature
verifies under the key of the slot that SIGNER names. -/
def State.checkSigned (s : State) (o : Bytes) (body : Nat) (sigOk signer : Bool) (nonce : Option Bytes) (run : State → State × Option (Nat × Bytes)) :
    State × Option (Nat × Bytes) :=
  if !objForm o body then refuse s stArg
  else if !sigOk || sub o 8 16 != Config.serial || !signer || nonce != some (sub o 24 32) then refuse (s.securityLimited 0x02 60000) stAuth
  else run s

/-- The owner signs, and the module holds the owner's full keys (R459). -/
def State.byOwner (s : State) (o : Bytes) : Bool := !s.sec.ownerLost && s.sec.ownerSlot == some (objSigner o)

/-! ### AUTH_OWNER (R461, R468, R483) -/

/-- The key under which a command's segments are kept: its code and form. -/
def authKey : Nat := 0x001000

/-- The kind of the object that a last segment completes, with those that AUTH_OWNER knows. [DESIGN CHOICE log entry 29] -/
def State.authRow (s : State) (kind : Nat) (b : Bytes) : Bool :=
  !segLast b || (let k := objKind (s.segData authKey b); k == kind || k == 0 || 3 < k)

/-- AUTH_OWNER for an object of a kind (R468): other kinds than 1 to 3 fail. [DESIGN CHOICE log entry 29] -/
def State.authOwner (s : State) (slot kind : Nat) (run : Bytes → State → State × Option (Nat × Bytes)) : State :=
  s.command slot 0x0010 locked4 false (s.authRow kind) (fun _ => true) none fun _ b z =>
    if fld b 0 1 != 0 then refuse z stArg else
    z.segmented authKey b fun o z => if objKind o != kind then refuse (z.securityLimited 0x02 60000) stAuth else run o z

/-- AUTH_OWNER_SESSION (R468): an established session becomes the owner session; LOCKED is left for READY. -/
def execAuthOwnerSession (slot : Nat) (sigOk : Bool) (s : State) : Host.Outcome State Fault Refusal :=
  .next (s.authOwner slot 1 fun o z =>
    let k := z.sec.sess.find? fun x => x.num == objArg o
    z.checkSigned o 0 sigOk (z.byOwner o) (k.map Session.bind) fun z =>
      match k with
      | none => refuse z stAuth
      | some k =>
        let z1 := z.modSec fun x => { x with owner := some { k with n := 0, last := z.opMs }, sess := x.sess.filter fun y => y.num != k.num }
        let z2 := if z1.mstate = 2 then z1.toModule 3 else z1
        okReply (if z2.ctl.fewCores || !z2.ctl.lostSlices.isEmpty then z2.degrade else z2) [])

/-- The key that an owner record's body gives. -/
def ownerKeyOf (o : Bytes) (kind : Nat) : OwnerKey := ⟨kind, 0, Config.shake (sub o 64 1952) 64, Config.shake (sub o 2016 1568) 64⟩

/-- Both flash copies failed, and the record is that of the slot in force: it names the slot, and its keys match it (R459). -/
def State.ownerAgain (s : State) (o : Bytes) : Bool :=
  s.sec.ownerLost && s.sec.ownerSlot == some (objArg o) && objForm o 3520 && sub o 8 16 == Config.serial &&
  (match (s.sec.pend <|> s.sec.owners.getLast?) with | some k => (ownerKeyOf o 0).sig == k.sig && (ownerKeyOf o 0).kem == k.kem | none => false)

/-- AUTH_OWNER_RECORD (R459, R461): a first enrolment by a vendor key, or a transfer by the owner, whose key is pending at once; or the record of the slot
in force again, which programs nothing. -/
def execAuthOwnerRecord (slot : Nat) (sigOk : Bool) (s : State) : Host.Outcome State Fault Refusal :=
  .next (s.authOwner slot 2 fun o z =>
    if z.ownerAgain o then okReply (z.modSec fun x => { x with ownerLost := false }) [] else
    let first := z.sec.ownerSlot.isNone
    let signer := if first then 128 ≤ objSigner o && z.sec.vendorOk (objSigner o - 128) else z.byOwner o
    z.checkSigned o 3520 sigOk signer (some (zeros 32)) fun z =>
      if 8 ≤ z.sec.owners.length then refuse z stResource
      else if objArg o != z.sec.owners.length then refuse z stArg
      else
        let k := ownerKeyOf o (b2n (!first))
        let z1 := z.modSec fun x => { x with pend := some k, ownerLost := false, owner := none, sess := [] }
        okReply ((z1.extend 7 10 (k.sig ++ k.kem)).security 0x04 []) [])

/-- The policy's fields lie in range (R483). -/
def policyOk (p : Bytes) : Bool :=
  decide (fld p 4 1 < 8) && fld p 5 3 == 0 && decide (1 ≤ fld p 8 4) && decide (fld p 8 4 ≤ 604800) && decide (60 ≤ fld p 12 4) && decide (fld p 12 4 ≤ 86400) && fld p 20 44 == 0

/-- AUTH_OWNER_POLICY (R483): the working copy of the security policy is replaced. -/
def execAuthOwnerPolicy (slot : Nat) (sigOk : Bool) (s : State) : Host.Outcome State Fault Refusal :=
  .next (s.authOwner slot 3 fun o z =>
    z.checkSigned o 64 sigOk (z.byOwner o) (some (zeros 32)) fun z =>
      let p := sub o 64 64
      let old := z.policy
      if objArg o != 0 || !policyOk p || fld p 16 4 ≤ fld old 16 4 || fld p 0 4 < fld old 0 4 then refuse z stArg else
      let z1 := z.modOtp fun x => { x with work := x.work.put 4 p }
      okReply ((z1.extend 3 6 (Config.shake p 64)).security 0x0B []) [])

/-! ### KEM_SESSION (R466, R467, R470) -/

/-- The session offer (R466). Its signature is made when its key pair is drawn. -/
def State.offer (s : State) : Bytes :=
  let h := natLe 4 0x4F53394B ++ zeros 4 ++ Config.serial ++ natLe 4 s.board.pcycle ++ zeros 36
  let k := Config.pubKey 2 s.sec.kemN 1568
  h ++ k ++ Config.sign (2 ^ 64 + s.sec.kemN) [0x4B, 0x39, 0x4F, 0x46, 0x46, 0x45, 0x52] (h ++ k)

/-- Rows of a command whose forms are numbered. -/
def form (k : Nat) (b : Bytes) : Bool := fld b 0 1 == k
def forms (k : Nat) (b : Bytes) : Bool := decide (fld b 0 1 ≤ k)

/-- KEM_SESSION_OFFER. -/
def execKemSessionOffer (slot : Nat) (s : State) : Host.Outcome State Fault Refusal :=
  .next (s.command slot 0x0302 locked4 false (form 0) (forms 2) none fun _ b z =>
    if !payOk b 4 [(1, 1)] then refuse z stArg else giveChunk z z.offer (fld b 2 2))

/-- KEM_SESSION_ESTABLISH (R466, R467): the session keys are derived and a new key pair is drawn. -/
def execKemSessionEstablish (slot : Nat) (s : State) : Host.Outcome State Fault Refusal :=
  .next (s.command slot 0x0302 locked4 false (form 1) (forms 2) none fun _ b z =>
    z.segmented 0x030201 b fun o z =>
      if o.length != 1696 || fld o 0 4 != 0x4553394B || fld o 4 4 != 0 || fld o 24 40 != 0 || sub o 8 16 != Config.serial then refuse z stArg else
      let dOffer := Config.shake z.offer 64
      if sub o 64 64 != dOffer then refuse z stIntegrity else
      let dEstab := Config.shake o 64
      let ss := (List.range 32).map (Config.kemByte z.sec.kemN (sub o 128 1568))
      let keys := Config.shake ([0x4B, 0x39, 0x53, 0x45, 0x53, 0x53] ++ ss ++ dOffer ++ dEstab) 96
      let bind := Config.shake ([0x4B, 0x39, 0x42, 0x49, 0x4E, 0x44] ++ dOffer ++ dEstab) 32
      let num := z.sec.sessN + 1
      okReply (z.modSec fun x => { x with sessN := num, kemN := x.kemN + 1, sess := x.sess ++ [{ num := num, keys := keys, bind := bind }] })
        (natLe 4 num ++ Config.shake (sub keys 64 32) 16))

/-- KEM_SESSION_CLOSE (R466): with the open session's number and a valid tag. -/
def execKemSessionClose (slot : Nat) (s : State) : Host.Outcome State Fault Refusal :=
  .next (s.command slot 0x0302 locked4 false (form 2) (forms 2) none fun n _ z =>
    if z.authOk n (z.slot n) then okReply (z.modSec fun x => { x with owner := none }) [] else refuse z.tagFailed stAuth)

/-- SESSION_IDLE_TIMEOUT (R470). -/
def execSessionIdleTimeout (s : State) : Host.Outcome State Fault Refusal :=
  .next (match s.sec.owner with
  | some k => if k.last + s.sessionIdleMs ≤ s.opMs then s.modSec fun x => { x with owner := none } else s
  | none => s)

/-! ### Quotes (R456, R476 to R478) -/

/-- The device certificate (R456). -/
def certificate : Bytes :=
  natLe 4 0x4344394B ++ natLe 2 1 ++ natLe 1 Config.certSlot ++ zeros 9 ++ Config.serial ++ zeros 32 ++ Config.pubKey 0 0 1952 ++ Config.pubKey 1 0 1568 ++ Config.vendorSig

/-- The section of a partition. -/
def State.quoteSection (s : State) (p : Nat) : Bytes :=
  let q := s.part p
  s.bir p ++ fit 64 q.ck.chain ++ natLe 8 q.ck.journalN ++ natLe 8 q.ctl.stepCount ++ natLe 1 q.st.code ++ zeros 15

/-- A new quote (R476): its bytes; a signature is made. -/
def State.makeQuote (s : State) (mask : Nat) (nonce : Bytes) : Bytes × State :=
  let flags := b2n s.debugOn + 2 * b2n s.sec.owner.isSome + 4 * b2n s.anyOverlay + 8 * b2n s.sec.pend.isSome
  let b := natLe 4 0x5451394B ++ natLe 2 1 ++ zeros 1 ++ natLe 1 mask ++ Config.serial ++ fit 32 nonce ++ timeBytes s.now ++ natLe 1 s.time.state ++
    natLe 1 s.mstate ++ natLe 1 flags ++ natLe 1 (s.sec.ownerSlot.getD 255) ++ natLe 4 detClass ++ natLe 4 s.sec.fw.version ++ natLe 4 s.board.pcycle ++ zeros 12 ++
    (List.range 8).flatMap (fun i => fit 64 (s.sec.meas.getD i [])) ++
    ((List.range 8).filter fun p => bit mask p).flatMap s.quoteSection
  (b ++ Config.sign s.sec.signs [0x4B, 0x39, 0x51, 0x55, 0x4F, 0x54, 0x45] b, s.modSec fun x => { x with signs := x.signs + 1 })

/-- A chunk of a quote from the one that is held (R477): chunk 0 builds a new one. -/
def State.quoteChunk (s : State) (held : Option (Nat × Bytes × Bytes)) (hold : Nat × Bytes × Bytes → State → State) (b : Bytes) : State × Option (Nat × Bytes) :=
  let mask := fld b 1 1
  let nonce := sub b 8 32
  if !payOk b 40 [(4, 4)] then refuse s stArg
  else if fld b 2 2 = 0 then
    let q := s.makeQuote mask nonce
    giveChunk (hold (mask, nonce, q.1) q.2) q.1 0
  else match held with
    | some (m, n, q) => if m == mask && n == nonce then giveChunk s q (fld b 2 2) else refuse s stArg
    | none => refuse s stArg

/-- QUOTE, form 0. -/
def execQuote (slot : Nat) (s : State) : Host.Outcome State Fault Refusal :=
  .next (s.command slot 0x0301 locked4 false (form 0) (forms 1) none fun _ b z =>
    z.quoteChunk z.sec.quote (fun h z => z.modSec fun x => { x with quote := some h }) b)

/-- QUOTE, form 1: the device certificate. -/
def execQuoteCertificate (slot : Nat) (s : State) : Host.Outcome State Fault Refusal :=
  .next (s.command slot 0x0301 locked4 false (form 1) (forms 1) none fun _ b z =>
    if !payOk b 4 [(1, 1)] then refuse z stArg else giveChunk z certificate (fld b 2 2))

/-- SIDEBAND_QUOTE (R38, R478): a request to the module's address; the response leaves as an MCTP message: enterprise number, 0x81, a status, the reply.
Out channel 12. [DESIGN CHOICE log entry 37] -/
def execSidebandQuote (addr : Nat) (req : Bytes) (s : State) : Host.Outcome State Fault Refusal :=
  .next (
    if !s.glumeRuns || addr != s.board.smbus then s else
    let b := fit 40 req
    let r := if !locked4.contains s.mstate then refuse s stState
      else if !bit (fld s.policy 4 1) 2 then refuse s stUnsupported
      else if fld b 0 1 = 0 then s.quoteChunk s.sec.side (fun h z => z.modSec fun x => { x with side := some h }) b
      else if fld b 0 1 = 1 then giveChunk s certificate (fld b 2 2)
      else refuse s stArg
    let a := r.2.getD (stOk, [])
    r.1.emit 12 0 (natBe 4 0x0000D96B ++ [0x81] ++ natLe 1 a.1 ++ a.2))

/-! ### Commands in flight that end -/

/-- Commands in flight that satisfy a test, but for one slot, complete with ABORTED (R479, R482). -/
def State.abortFlight (s : State) (n : Nat) (hit : Bytes → Bool) : State :=
  s.finishAll ((s.host.accepted ++ s.host.waiting).filter fun m => m != n && hit (s.slot m)) stAborted []

/-- A partition command (R70). -/
def partCode (c : Nat) : Bool := 0x0101 ≤ c && c ≤ 0x010B

/-- Every partition is destroyed (R479 to R481). -/
def State.destroyAll (s : State) : State :=
  (List.range Config.nParts).foldl (fun z p => if (z.part p).res.created then z.destroyPart p else z) s

/-- Every MACsec SAK is cleared (R457). -/
def State.clearSaks (s : State) : State :=
  s.modField fun f => { f with assocs := f.assocs.map fun (a : Nat × Assoc) => (a.1, { a.2 with saks := [], an := none, anPend := none }) }

/-! ### DEBUG_UNLOCK (R479, R480) -/

/-- A fresh 32-byte nonce. -/
def State.nonce (s : State) : Bytes := Config.draw s.sec.draws 32

/-- DEBUG_UNLOCK, form 0. -/
def execDebugUnlockNonce (slot : Nat) (s : State) : Host.Outcome State Fault Refusal :=
  .next (s.command slot 0x0303 [3, 4, 5] false (form 0) (forms 2) none fun _ _ z =>
    okReply (z.modSec fun x => { x with dbgNonce := some z.nonce, draws := x.draws + 1 }) z.nonce)

/-- DEBUG_UNLOCK, form 1: every partition is destroyed first. -/
def execDebugUnlock (slot : Nat) (sigOk : Bool) (s : State) : Host.Outcome State Fault Refusal :=
  .next (s.command slot 0x0303 [3, 4, 5] false (form 1) (forms 2) none fun n b z =>
    z.segmented 0x030301 b fun o z =>
      if !((List.range Config.nParts).all fun p => let x := (z.part p).st; !(x == .running || x == .held || x == .restarting || x == .shadow)) then refuse z stState
      else if !bit (fld z.policy 4 1) 0 then refuse z stAuth
      else z.checkSigned o 0 (sigOk && objKind o == 4) (z.byOwner o) z.sec.dbgNonce fun z =>
        if objArg o < 1 || fld z.policy 8 4 < objArg o then refuse z stArg else
        let z1 := ((z.abortFlight n fun x => partCode (slotCode x)).destroyAll.clearSaks).modSec fun x => { x with
          dbgNonce := none, unlocked := some (z.opMs + 1000 * objArg o) }
        okReply ((z1.extend 7 11 [1]).security 0x07 []) [])

/-- The unlock ends (R480): every partition is destroyed again, the break registers read as reset. [DESIGN CHOICE log entry 33] -/
def State.relock (s : State) : State :=
  if !s.debugOn then s else
  let s1 := s.destroyAll
  let clear := fun (k : Core) => { k with flt := { k.flt with brkEn := false, brkEng := 0, brkMode := false, brkHit := false, brkTag := 0, brkMask := 0, brkCount := 0 } }
  let s2 := ({ s1 with cores := s1.cores.map fun (x : Nat × Core) => (x.1, clear x.2) }).modSec fun x => { x with unlocked := none }
  (s2.extend 7 11 [0]).security 0x08 []

/-- DEBUG_UNLOCK, form 2. [DESIGN CHOICE log entry 33] -/
def execDebugRelock (slot : Nat) (s : State) : Host.Outcome State Fault Refusal :=
  .next (s.command slot 0x0303 [3, 4, 5] false (form 2) (forms 2) none fun _ _ z => okReply z.relock [])

/-- DEBUG_UNLOCK_EXPIRY (R480). -/
def execDebugUnlockExpiry (s : State) : Host.Outcome State Fault Refusal :=
  .next (match s.sec.unlocked with | some t => if t ≤ s.opMs then s.relock else s | none => s)

/-! ### ZEROISE (R481, R482) -/

/-- ZEROISE, form 0. -/
def execZeroiseNonce (slot : Nat) (s : State) : Host.Outcome State Fault Refusal :=
  .next (s.command slot 0x0304 locked4 false (form 0) (forms 1) none fun _ _ z =>
    okReply (z.modSec fun x => { x with zeroNonce := some z.nonce, draws := x.draws + 1 }) z.nonce)

/-- Every secret, overlay, working copy and scratchpad is cleared. -/
def State.clearSecrets (s : State) : State :=
  let wipe := fun (k : Core) => { k with keys := [], sp := { k.sp with mem := [], poison := [], bad := [], src := [], was := none } }
  let s1 := { s.clearSaks with cores := s.cores.map fun (x : Nat × Core) => (x.1, wipe x.2) }
  let s2 := s1.modSec fun x => { x with sess := [], owner := none, dbgNonce := none, zeroNonce := none, unlocked := none, kemN := x.kemN + 1, segs := [] }
  { s2 with otp := { s2.otp with work := [], past := [] }, meas := { s2.meas with user := [] }, units := { s2.units with overlay := [] } }

/-- Commands in flight that are committed and have no further reply (R417, R482): a STOP that waits for its boundary, a DBG_RESUME for the cores. -/
def State.committed (s : State) : List Nat := s.parts.flatMap fun x => x.2.ctl.stop ++ x.2.ctl.resume

/-- ZEROISE, form 1 (R480 to R482): partitions, secrets and, in mode 1, the identity seed are destroyed; commands in flight end, those committed with
their status, and so does a debug unlock. [DEDUCED log entry 109] -/
def execZeroise (slot : Nat) (sigOk : Bool) (s : State) : Host.Outcome State Fault Refusal :=
  .next (s.command slot 0x0304 locked4 false (form 1) (forms 1) none fun n b z =>
    z.segmented 0x030401 b fun o z =>
      let mode := objArg o
      if mode = 1 && z.mstate != 4 then refuse z stState
      else if mode = 1 && !bit (fld z.policy 4 1) 1 then refuse z stAuth
      else z.checkSigned o 0 (sigOk && objKind o == 5) (z.byOwner o) z.sec.zeroNonce fun z =>
        if 1 < mode then refuse z stArg else
        let z1 := (((z.finishAll z.committed stOk []).abortFlight n fun _ => true).destroyAll).relock.clearSecrets
        let z2 := if mode = 1 then z1.modSec fun x => { x with dead := true } else z1
        okReply ((z2.toModule 6).security 0x09 (natLe 1 mode)) [])

/-! ### SERVICE (R422, R461) -/

/-- The pending owner key is programmed (R459, R461). [DESIGN CHOICE log entry 30] -/
def State.programOwner (s : State) : State :=
  match s.sec.pend with
  | none => s
  | some k =>
    let s1 := s.modSec fun x => { x with owners := x.owners ++ [{ k with time := s.opMs % 2 ^ 40 }], pend := none }
    (s1.extend 7 10 (k.sig ++ k.kem)).security 0x05 []

/-- SERVICE, byte 1. [DESIGN CHOICE log entry 33] -/
def execServiceEnter (slot : Nat) (s : State) : Host.Outcome State Fault Refusal :=
  .next (s.command slot 0x0003 [3, 4, 5] true (form 1) (forms 1) none fun _ _ z =>
    if !((List.range Config.nParts).all fun p => inState [.empty, .loaded, .armed, .faulted] (z.part p)) then refuse z stState
    else okReply (z.programOwner.toModule 4) [])

/-- SERVICE, byte 0. [DESIGN CHOICE log entry 33] -/
def execServiceLeave (slot : Nat) (s : State) : Host.Outcome State Fault Refusal :=
  .next (s.command slot 0x0003 [3, 4, 5] true (form 0) (forms 1) none fun _ _ z =>
    if z.mstate != 4 then okReply z [] else okReply (z.toModule (if z.ctl.fewCores || !z.ctl.lostSlices.isEmpty then 5 else 3)) [])

/-! ### Firmware (R460, R463, R533) -/

/-- FW_STAGE (R533): the image goes into the flash slot that is not running. img: what stands at the window bytes. [DESIGN CHOICE log entry 30] -/
def execFwStage (slot : Nat) (img : FwImg) (s : State) : Host.Outcome State Fault Refusal :=
  .next (s.command slot 0x0020 [3, 4, 5] true anyForm anyForm none fun _ b z =>
    let off := fld b 0 8
    let n := fld b 8 4
    if !payOk b 44 [] || !z.intakeOk off n then refuse z stArg
    else let z := z.winTouch off n
    if Config.shake (z.winRead off n) 32 != sub b 12 32 || !img.ok || !z.sec.vendorOk img.slot || img.svn < fld z.policy 0 4 then refuse z stIntegrity
    else okReply (z.modSec fun x => if x.letter = 0 then { x with flashB := img } else { x with flashA := img }) (natLe 4 img.version ++ natLe 4 img.svn ++ [if img.sig == z.sec.fw.sig then 1 else 0]))

/-- Vendor slots as an image's vendor key record leaves them (R460). -/
def Sec.vendorAfter (x : Sec) (img : FwImg) : Tbl VendorKey :=
  let v := match img.newKey with
    | some (k, d) => if (x.vendors.get? k).isSome || decide (4 ≤ k) then x.vendors else x.vendors.put k ⟨d, false⟩
    | none => x.vendors
  v.map fun y => if img.revokes.contains y.1 then (y.1, { y.2 with revoked := true }) else y

/-- The image that runs is measured (R464). [DESIGN CHOICE log entry 31, DESIGN CHOICE log entry 55] -/
def State.measureImage (s : State) : State :=
  (s.extend 1 3 (fit 64 s.sec.fw.digest ++ natLe 1 s.sec.letter)).extend 2 4 (fit 64 s.sec.fw.sig)

/-- The staged image (R533): the one in the flash slot that is not running. [DESIGN CHOICE log entry 32] -/
def Sec.staged (x : Sec) : FwImg := if x.letter = 0 then x.flashB else x.flashA

/-- FW_ACTIVATE (R460, R463, R533): the staged image, verified again, becomes image A and runs, and the slots exchange roles; the owner session ends.
[DESIGN CHOICE log entry 32] -/
def execFwActivate (slot : Nat) (s : State) : Host.Outcome State Fault Refusal :=
  .next (s.command slot 0x0021 [4] true anyForm anyForm none fun _ _ z =>
    let img := z.sec.staged
    let v := z.sec.vendorAfter img
    if !img.ok || !z.sec.vendorOk img.slot || img.svn < fld (z.otp.inForce 4) 0 4 || (v.all fun y => y.2.revoked) then refuse z stIntegrity else
    let z1 := if v == z.sec.vendors then z else (z.modSec fun x => { x with vendors := v }).security 0x06 []
    let z2 := z1.modSec fun x => { x with flashA := img, flashB := if x.letter = 0 then x.flashA else x.flashB, fw := img, letter := 0, owner := none }
    okReply z2.measureImage.rebir [])

/-! ### Overlays (R434 to R436, R438, R450) -/

/-- A stored command is applied (R434); one that fails is skipped and recorded. -/
def State.applyOne (s : State) (code : Nat) (b : Bytes) : State :=
  let r := match code with
    | 0x0201 => s.portConfig b
    | 0x0210 => s.timeConfig b
    | 0x0601 => s.setCap b
    | _ => refuse s stArg
  match r.2 with
  | some (0, _) => r.1
  | _ => s.record 4 0x0060 0 0 (natLe 2 code)

/-- The stored commands of a user configuration, in order. -/
def State.applyStored : Nat → Bytes → State → State
  | 0, _, s => s
  | n + 1, b, s => if b.length < 4 then s else applyStored n (b.drop (4 + fld b 2 2)) (s.applyOne (fld b 0 2) ((b.drop 4).take (fld b 2 2)))

/-- The units of a block-7 overlay; none where a record is not one that it may carry (R438). -/
def overlayUnits (c : Bytes) : Option (List (Nat × Nat)) :=
  let l := (List.range (c.length / 16)).map fun i => sub c (16 * i) 16
  let ok := fun (r : Bytes) =>
    let k := fld r 0 1
    let cls := fld r 1 1
    let i := fld r 2 2
    fld r 15 1 == 0xA5 && fld r 13 2 == 0 && ((k == 1 && cls == 1 && decide (i < 576)) || (k == 3 && cls == 3 && decide (i < 1024)) || (k == 5 && cls == 4 && decide (i < 48)) ||
      (k == 6 && ((cls == 1 && decide (i < 576)) || (cls == 3 && decide (i < 1024)))))
  if c.length % 16 = 0 && l.all ok then some (l.map fun r => (fld r 1 1, fld r 2 2)) else none

/-- The overlay takes effect (R433, R434, R396, R437, R464); one of block 7 only disables units, so those of an earlier one stay disabled (R438).
[DEDUCED log entry 122] -/
def State.overlayEffect (s : State) (blk seq : Nat) (c : Bytes) : State :=
  let s1 := (s.modOtp fun o => { o with past := o.past.put blk ⟨seq, c⟩ }).record 2 0x0060 0 0 (natLe 1 blk ++ natLe 8 seq)
  match blk with
  | 4 => ((s1.modOtp fun o => { o with work := o.work.put 4 c }).extend 3 6 (Config.shake c 64)).security 0x0B []
  | 5 => ((s1.modOtp fun o => { o with work := o.work.put 5 c }).extend 4 7 (Config.shake c 64)).applyStored c.length c
  | 6 => ({ s1 with meas := { s1.meas with user := calRecords c } }).extend 5 8 (Config.shake c 64)
  | _ =>
    let us := (overlayUnits c).getD []
    let s2 := { s1 with units := { s1.units with overlay := s1.units.overlay ++ us.filter fun u => !s1.units.overlay.contains u } }
    us.foldl (fun (z : State) u => z.unserved u.1 u.2) (s2.mapChanged.coreCheck 8)

/-- OVERLAY_SET (R436, R450): the object is checked with its last segment. -/
def execOverlaySet (slot : Nat) (sigOk : Bool) (s : State) : Host.Outcome State Fault Refusal :=
  .next (s.command slot 0x0404 locked4 false anyForm anyForm none fun _ b z =>
    let blk := fld b 0 1
    if blk < 4 || 7 < blk then refuse z stArg else
    z.segmented (0x040400 + blk) b fun o z =>
      let n := fld o 32 4
      let c := sub o 64 n
      if fld o 0 4 != 0x564F394B || fld o 4 1 != blk || fld o 5 3 != 0 || fld o 36 28 != 0 || o.length != 64 + n + 3309 then refuse z stArg
      else if !sigOk || z.sec.ownerLost || z.sec.ownerSlot.isNone then refuse (z.securityLimited 0x02 60000) stAuth
      else if sub o 16 16 != Config.serial then refuse z stIntegrity
      else if (blk != 7 && z.otp.spares blk != 0) || (blk = 4 && !policyOk c) || (blk = 4 && n != 64) || (blk = 5 && decide (5056 < n)) || (blk = 6 && n != 16 * calIndexes.length) || (blk = 7 && (overlayUnits c).isNone) then refuse z stArg
      else okReply (z.overlayEffect blk (fld o 8 8) c) [])

end Sys2Proof.Machine
end

