-- ==== Sys2Proof/Machine/TwinLink.lean ====
section
/-! DEFINITION. The Rachis link as it is received (R517 to R531), pairing (R520, R521), the union of maps (R530 to R532), HANDOVER (R534) and
TWIN_STATUS (R536). -/

namespace Sys2Proof.Machine

/-! ### Records (R518, R519) -/

/-- A sealed record arrives: it is discarded and counted when its tag fails or its COUNTER is not above the last accepted (R518). -/
def State.rachisIn (s : State) (counter : Nat) (ok : Bool) (run : State → State) : State :=
  if !s.linkUp then s
  else if s.twin.pair != 2 || !ok || decide (counter < s.twin.rx) then s.modTwin fun t => { t with discarded := satAdd t.discarded 1 }
  else run (s.modTwin fun t => { t with rx := counter + 1 })

/-- The header of a twin block is one of a kind (R519). -/
def blockOk (b : Bytes) (kind : Nat) : Bool :=
  fld b 0 4 == 0x4254394B && fld b 4 1 == kind && decide (fld b 5 1 < 8) && fld b 6 2 == 0 && fld b 36 28 == 0 && decide (fld b 32 4 ≤ 65536) && b.length == 64 + fld b 32 4

def blockPart (b : Bytes) : Nat := fld b 5 1
def blockStep (b : Bytes) : Nat := fld b 8 8

/-- A block joins its object: the object, once it is whole. -/
def State.joinBlock (s : State) (kind : Nat) (b : Bytes) : Option Bytes × State :=
  let p := blockPart b
  let had := if fld b 16 8 = 0 then [] else (s.part p).twin.rx.getD kind []
  if fld b 16 8 != had.length then (none, s.modPTwin p fun t => { t with rx := t.rx.del kind })
  else
    let o := had ++ b.drop 64
    if fld b 24 8 ≤ o.length then (some o, s.modPTwin p fun t => { t with rx := t.rx.del kind })
    else (none, s.modPTwin p fun t => { t with rx := t.rx.put kind o })

/-- A block of a paired partition. -/
def State.blockIn (s : State) (counter : Nat) (ok : Bool) (kind : Nat) (b : Bytes) (run : Nat → Bytes → State → State) : State :=
  s.rachisIn counter ok fun z =>
    if !blockOk b kind then z else
    match z.joinBlock kind b with
    | (some o, z1) => if (z1.part (blockPart b)).twin.role = 0 then z1 else run (blockPart b) o z1
    | (none, z1) => z1

/-! ### The link (R517, R527) -/

/-- RACHIS_LINK_UP (R517, R527): lanes align; when the link comes up, a pair exchanges STATE. crossed: training finds the two cables crossed between their
receptacles; the link is refused and an error recorded (R35), of which the spec gives neither DATA nor unit. [DESIGN CHOICE log entry 127] -/
def execRachisLinkUp (lanes : Nat) (crossed : Bool) (s : State) : Host.Outcome State Fault Refusal :=
  .next (
    if !s.alive || s.board.laneRefBad then s
    else if crossed then s.record 4 0x0030 0 0 []
    else
    let s1 := s.modTwin fun t => { t with lanes := (t.lanes ||| lanes % 65536) &&& (65535 ^^^ (t.retired &&& 65535)) }
    if s.linkUp || !s1.linkUp || s1.twin.pair != 2 then s1 else (List.range Config.nParts).foldl State.sendState s1)

/-- RACHIS_LINK_DOWN (R527, R520): each paired partition runs isolated; a pairing in progress fails. -/
def execRachisLinkDown (lanes : Nat) (s : State) : Host.Outcome State Fault Refusal := .next (s.rachisLost lanes)

/-! ### CUT and DIGEST (R523 to R525) -/

/-- One record of a CUT frame is written into a tensor: the value, then its mask byte. Answers also whether it differed. -/
def cutRecord (g : Image) (pts : List (Nat × Point)) (x : Bytes × Nat) (r : Bytes) : Bytes × Nat :=
  match pts.find? fun y => y.1 == fld r 0 2 with
  | none => x
  | some y => match g.slots[y.2.slot]? with
    | none => x
    | some t =>
      let v := putElem t.fmt x.1 t.offset y.2.elem (fld r 4 4)
      let w := putElem 5 v t.mask y.2.elem (fld r 2 1)
      (w, if w == x.1 then x.2 else x.2 + 1)

/-- The trigger of a follower for the lead's cut of an entry: its own that still waits, or a new one; the entry's own cut of it is passed over. -/
def State.cutTrigger (s : State) (p entry cut : Nat) : State :=
  let e := s.lte entry
  if (s.part p).run.triggers.any fun g => g.entry == entry && (g.lead == 0 || (g.lead == 1 && g.cut == cut)) then s else
  let t := if e.trig = 2 then cut else cut + e.cutLead * 65536
  let g : Trigger := { entry := entry, at_ := t, cut := cut, launch := cut + e.cutLead * 65536, buf := (s.part p).run.freeBuf, suppressed := false
                       data := match (s.part p).img.image with | some g => defaultInputs g | none => [] }
  (s.modRun p fun r => { r with triggers := r.triggers ++ [g] }).modLte entry fun x => match x.trig with
    | 0 => { x with lastT := some t }
    | 1 => { x with trigN := (s.nextTrigger entry).map Prod.snd }
    | _ => { x with evt := none }

/-- The lead's cut takes the place of the follower's (R523). [DEDUCED log entry 82, DEDUCED log entry 84] -/
def State.takeCut (s : State) (p : Nat) (f : Bytes) : State :=
  let entry := fld f 36 2
  let cut := timeOf (sub f 20 12)
  let s1 := s.cutTrigger p entry cut
  match (s1.part p).img.image, (s1.part p).run.triggers.find? fun g => g.entry == entry && (g.lead == 0 || (g.lead == 1 && g.cut == cut)) with
  | some im, some g =>
    if fld f 32 2 = 0 && bit (fld f 6 1) 2 then
      s1.modRun p fun r => { r with triggers := r.triggers.map fun x => if x == g then { x with lead := if bit (fld f 6 1) 0 then 3 else 2 } else x }
    else
      let recs := (List.range (fld f 32 2)).map fun i => sub f (64 + 8 * i) 8
      let x := recs.foldl (cutRecord im (s1.pointsOf p false)) (g.data, 0)
      let g1 := { g with data := x.1, lead := 1, cut := cut, launch := cut + (s1.lte entry).cutLead * 65536 }
      s1.modPart p fun q => { q with
        run := { q.run with
          triggers := q.run.triggers.map fun y => if y == g then g1 else y
          buf0 := if g.buf == some 0 then x.1 else q.run.buf0, buf1 := if g.buf == some 1 then x.1 else q.run.buf1 }
        twin := { q.twin with cutDiff := satAdd q.twin.cutDiff x.2 } }
  | _, _ => s1

/-- CUT_FRAME (R518, R523). -/
def execCutFrame (counter : Nat) (ok : Bool) (body : Bytes) (s : State) : Host.Outcome State Fault Refusal :=
  .next (s.rachisIn counter ok fun z =>
    let p := fld body 8 4
    if (haulmCheck body [3]).isSome || decide (7 < p) || !z.following p || !((z.lte (fld body 36 2)).owned && (z.lte (fld body 36 2)).part == p) then z
    else z.takeCut p body)

/-- DIGEST_FRAME (R524, R525). fault: the partner's partition meets step 1 of R525 (log entry 21). -/
def execDigestFrame (counter : Nat) (ok : Bool) (body : Bytes) (fault : Bool) (s : State) : Host.Outcome State Fault Refusal :=
  .next (s.rachisIn counter ok fun z =>
    let p := fld body 8 4
    if (haulmCheck body [4]).isSome || decide (7 < p) || !z.twinned p then z else
    let step := fld body 40 8
    (z.modPTwin p fun t => { t with partner := t.partner ++ [(step, sub body 64 32, fault)] }).compareDigest p step)

/-- DIGEST_WAIT_TIMEOUT (R525): a frame without the partner's digest 1 ms after its deadline is missing. [DEDUCED log entry 98] -/
def execDigestWaitTimeout (p : Nat) (s : State) : Host.Outcome State Fault Refusal :=
  .next (
    let late := fun (d : TDig) => decide (d.deadline + 1000000 * 65536 ≤ s.now)
    let t := (s.part p).twin
    let n := (t.local_.filter late).length
    if n = 0 then s else s.modPTwin p fun t => { t with local_ := t.local_.filter fun d => !late d, missing := satAdd t.missing n })

/-! ### The union of maps (R530, R531) -/

/-- The units of a canonical form. -/
def mapUnitsOf (b : Bytes) : List (Nat × Nat) := (List.range (fld b 0 4)).map fun i => (fld b (4 + 4 * i) 1, fld b (6 + 4 * i) 2)

/-- Units that the module lacks. -/
def State.lacking (s : State) (us : List (Nat × Nat)) : List (Nat × Nat) :=
  us.filter fun u => ((u.1 == 1 && decide (u.2 < 576)) || (u.1 == 3 && decide (u.2 < 1024))) && !s.disabled u.1 u.2

/-- A unit is disabled by union; a pseudo-channel that no partition holds is remapped at once. -/
def State.adoptUnit (s : State) (u : Nat × Nat) : State :=
  let s1 := s.retire 0x06 u.1 u.2 0
  if u.1 = 3 && (s1.holders (s1.pc u.2).slice).isEmpty then s1.remapPc u.2 else s1

/-- Both modules' maps as one (R531). -/
def State.adopt (s : State) (us : List (Nat × Nat)) : State := (s.lacking us).foldl State.adoptUnit s

/-- MAP_BLOCK (R531). -/
def execMapBlock (counter : Nat) (ok : Bool) (body : Bytes) (s : State) : Host.Outcome State Fault Refusal :=
  .next (s.rachisIn counter ok fun z =>
    if !blockOk body 4 then z else
    match z.joinBlock 4 body with
    | (some o, z1) => (z1.modTwin fun t => { t with map := mapUnitsOf o }).adopt (mapUnitsOf o)
    | (none, z1) => z1)

/-! ### Pairing (R520, R521) -/

/-- HELLO of this module (R519): its certificate and its serial. -/
def helloBody : Bytes := certificate ++ Config.serial

/-- The pairing ends: its command completes. -/
def State.pairEnds (s : State) (pair st : Nat) : State :=
  let l := s.twin.slot.toList
  (s.modTwin fun t => { t with pair := pair, slot := none }).finishAll l st []

/-- HELLO_BLOCK (R520): certOk, owners, classes: what step 2 finds of the partner's certificate, its owner and its determinism class; ss: the
shared secret of step 3 (log entry 21). -/
def execHelloBlock (body : Bytes) (certOk owners classes : Bool) (ss : Bytes) (s : State) : Host.Outcome State Fault Refusal :=
  .next (
    if !s.linkUp then s
    else if s.twin.pair != 1 || !blockOk body 1 then s.modTwin fun t => { t with discarded := satAdd t.discarded 1 }
    else
      let his := sub body (body.length - 16) 16
      if !certOk || his != s.twin.partner then s.pairEnds 0 stIntegrity
      else if !owners then s.pairEnds 0 stAuth
      else if !classes then s.pairEnds 0 stArg
      else
        let low := leNat Config.serial.reverse < leNat his.reverse
        let k := Config.shake ([0x4B, 0x39, 0x50, 0x41, 0x49, 0x52] ++ ss ++ (if low then Config.serial ++ his else his ++ Config.serial)) 64
        let s1 := (s.modTwin fun t => { t with keys := k, tx := 0, rx := 0 }).pairEnds 2 stOk
        s1.sendObject 4 0 0 (canonMap s1.mapUnits))

/-- PAIR_TIMEOUT (R520, R521): 60 s have passed. -/
def execPairTimeout (s : State) : Host.Outcome State Fault Refusal :=
  .next (
    let past := fun (t : Nat) => decide (t + 150000000000 ≤ s.opTicks)
    let s1 := if s.twin.pair = 1 && past s.twin.since then s.pairEnds 0 stResource else s
    let old := s1.twin.parts.filter fun x => past x.2.2.2
    (s1.modTwin fun t => { t with parts := t.parts.filter fun x => !past x.2.2.2 }).finishAll (old.map fun x => x.2.1) stResource [])

/-- A finite binary32 value that is not negative. -/
def tolOk (c : Nat) : Bool := decide (c < 0x7F800000) || c == 0x80000000

def pairForm (op : Nat) (b : Bytes) : Bool := fld b 0 1 == op
def pairArgs (b : Bytes) : Bool := payOk b 32 [(3, 1), (12, 4)]

/-- PAIR op 0: the module sends HELLO and awaits the partner's. -/
def execPairModules (slot : Nat) (s : State) : Host.Outcome State Fault Refusal :=
  .next (s.command slot 0x0701 [3, 5] true (pairForm 0) (forms 3) none fun n b z =>
    if !pairArgs b || decide (1 < fld b 2 1) then refuse z stArg
    else if z.twin.pair != 0 then refuse z stState
    else if !z.linkUp then refuse z stResource
    else ((z.modTwin fun t => { t with
      pair := 1, isolate := fld b 2 1 == 1, partner := sub b 16 16, slot := some n, since := z.opTicks }).sendObject 1 0 0 helloBody, none))

/-- PAIR op 1: legal states by role (R521); it completes when the partner's STATE shows the other role. [DESIGN CHOICE log entry 38] -/
def execPairPartition (slot : Nat) (s : State) : Host.Outcome State Fault Refusal :=
  .next (s.command slot 0x0701 [3, 5] true (pairForm 1) (forms 3) none fun n b z =>
    let p := fld b 1 1
    let role := fld b 2 1
    if !pairArgs b || decide (7 < p) || !(role == 1 || role == 2) || !tolOk (fld b 4 4) || !tolOk (fld b 8 4) then refuse z stArg
    else if !z.paired || (z.part p).twin.role != 0 || z.twin.parts.any (fun x => x.1 == p) ||
        !inState (if role = 1 then [.loaded, .armed, .running, .held] else [.loaded, .armed]) (z.part p) then refuse z stState
    else
      let z1 := (z.modTwin fun t => { t with parts := t.parts ++ [(p, n, role, z.opTicks)] }).modPTwin p fun t => { t with tolA := fld b 4 4, tolR := fld b 8 4 }
      (z1.sendObject 2 p (z1.part p).ctl.stepCount ((z1.stateBody p).set 1 (BitVec.ofNat 8 role)), none))

/-- Comparison of a partition ends, and the module serves it alone. [DESIGN CHOICE log entry 39] -/
def State.unpair (s : State) (p : Nat) : State :=
  let s1 := s.endHandover p
  s1.modPTwin p fun t => { t with
    role := 0, tolMode := false, isolated := false, local_ := [], partner := [], vals := [], hisVals := [], pState := [], fresh := false, resync := false
    fromLead := false, rx := [], rxCkpt := [], rejoin := false, emitP := none, div := none, redMine := none, redHis := none }

/-- PAIR op 2. -/
def execUnpairPartition (slot : Nat) (s : State) : Host.Outcome State Fault Refusal :=
  .next (s.command slot 0x0701 [3, 5] true (pairForm 2) (forms 3) none fun _ b z =>
    if !pairArgs b || decide (7 < fld b 1 1) then refuse z stArg else okReply (z.unpair (fld b 1 1)) [])

/-- PAIR op 3. [DESIGN CHOICE log entry 39] -/
def execUnpairModules (slot : Nat) (s : State) : Host.Outcome State Fault Refusal :=
  .next (s.command slot 0x0701 [3, 5] true (pairForm 3) (forms 3) none fun _ b z =>
    if !pairArgs b then refuse z stArg else
    let l := z.twin.slot.toList ++ z.twin.parts.map fun x => x.2.1
    let z1 := (List.range Config.nParts).foldl State.unpair z
    okReply ((z1.modTwin fun t => { t with pair := 0, keys := [], partner := [], slot := none, parts := [], map := [] }).finishAll l stAborted []) [])

/-- Op 1 has been issued on both modules (R521): equal: its four comparisons agree (log entry 21). The lead sends SEED and its PART_EMIT. -/
def State.pairDone (s : State) (p n role his : Nat) (equal : Bool) : State :=
  let s0 := s.modTwin fun t => { t with parts := t.parts.filter fun x => x.1 != p }
  if role + his != 3 || !equal then s0.finishAll [n] stArg [] else
  let s1 := s0.modPTwin p fun t => { t with role := role, isolated := false, runMatch := 0 }
  let s2 := if role = 1 then s1.sendObject 3 p (s1.part p).ctl.stepCount (s1.part p).ctl.seed else s1
  (s2.sendState p).finishAll [n] stOk []

/-! ### Twin blocks of a partition (R519 to R528, R534) -/

/-- The chain value of journal entry n (R475), where it is retained. -/
def PCkpt.chainAt (k : PCkpt) (n : Nat) : Option Bytes :=
  if n = k.journalN then some k.chain
  else if n < k.journalN && k.journalN - k.journal.length < n then (k.journal[n - 1 - (k.journalN - k.journal.length)]?).map JEntry.chain
  else none

/-- A checkpoint as a CKPT object (R519, log entry 43). -/
def ckptObject (k : Ckpt) (size : Nat) : Bytes :=
  fit 512 (natLe 4 0x4B43394B ++ natLe 2 1 ++ zeros 2 ++ natLe 8 k.step ++ natLe 8 k.journalN ++ fit 64 k.chain ++ fit 256 k.bir) ++ memRead k.mut_ 0 size

/-- The journal entries from index n as a JOURNAL object. -/
def State.journalObject (s : State) (p n : Nat) : Bytes :=
  let k := (s.part p).ck
  let first := k.journalN - k.journal.length
  match (s.part p).img.image with
  | none => []
  | some g => ((List.range k.journal.length).drop (n - first)).flatMap fun i => match k.journal[i]? with
    | none => []
    | some j =>
      let kind := if j.cause = 0 then 0 else if j.cause = 2 then 2 else 1
      journalHeader kind j.learn j.ept j.entry j.step j.cut j.launch (first + i + 1) ++ (if kind = 0 then g.inputSlots j.tensor else [])

/-- A serving module supplies a partner that has begun to restore (R528, log entry 21): its newest committed checkpoint, read by requests of priority 5
(R351), and the journal from it. -/
def State.supply (s : State) (p : Nat) : State :=
  let q := s.part p
  let k := if q.ck.newest then q.ck.slotB else q.ck.slotA
  match q.img.image with
  | some g => if k.valid then ((s.remote p 5 (s.regionOff q (if q.ck.newest then 5 else 4)) (mib + g.mutSize)).sendObject 5 p k.step (ckptObject k g.mutSize)).sendObject 6 p k.step (s.journalObject p k.journalN) else s
  | none => s

/-- What a STATE of the partner changes (R515, R521, R527). -/
def State.takeState (s : State) (p : Nat) (o : Bytes) : State :=
  let old := (s.part p).twin
  let serves := (s.part p).st == .running || (s.part p).st == .held
  let same := sub o 82 32 == fit 32 (s.part p).cnt.bir
  let s1 := s.modPTwin p fun t => { t with pState := fit 128 o, isolated := false }
  let t := (s1.part p).twin
  let idle := (s1.part p).st == .loaded || (s1.part p).st == .armed
  let s2 := if t.role = 2 && idle && !old.isolated then s1.modCnt p fun c => { c with emit := t.hisEmit } else s1
  let s3 := if old.isolated && t.role = 2 then s2.modPTwin p fun t => { t with
      resync := t.resync || (s.part p).ck.chainAt t.hisN != some t.hisChain
      emitP := if t.hisEmit = (s.part p).cnt.emit then t.emitP else some t.hisEmit } else s2
  let s4 := s3.modPTwin p fun t => { t with
    tolMode := if same && t.hslot.isNone then false else t.tolMode || (serves && t.hisState == 7 && !same) }
  let s5 := if serves && t.hisState == 5 && old.hisState != 5 then s4.supply p else s4
  if (s5.part p).twin.tolMode && serves && t.hisState == 3 && ((s5.part p).res.place.any fun c => s5.disabled 1 c) then s5.twinFault p 0x22 else s5

/-- STATE_BLOCK (R515, R519, R521, R522, R527). [DESIGN CHOICE log entry 21] -/
def execStateBlock (counter : Nat) (ok : Bool) (body : Bytes) (equal : Bool) (s : State) : Host.Outcome State Fault Refusal :=
  .next (s.rachisIn counter ok fun z =>
    if !blockOk body 2 then z else
    match z.joinBlock 2 body with
    | (some o, z1) =>
      let p := blockPart body
      (match z1.twin.parts.find? fun x => x.1 == p with
      | some x => if fld o 1 1 = 0 then z1 else z1.pairDone p x.2.1 x.2.2.1 (fld o 1 1) equal
      | none => if (z1.part p).twin.role = 0 then z1 else z1.takeState p o)
    | (none, z1) => z1)

/-- STATE_BLOCK_SEND (R519): at each state change and every 1 ms. [DEDUCED log entry 100] -/
def execStateBlockSend (p : Nat) (s : State) : Host.Outcome State Fault Refusal := .next (s.sendState p)

/-- SEED_BLOCK (R521): the follower replaces its seed; in ARMED the Thresh key tables are written again. -/
def execSeedBlock (counter : Nat) (ok : Bool) (body : Bytes) (s : State) : Host.Outcome State Fault Refusal :=
  .next (s.blockIn counter ok 3 body fun p o z =>
    if (z.part p).twin.role != 2 then z else
    let z1 := z.modCtl p fun c => { c with seed := fit 32 o }
    if (z.part p).st == .armed then z1.eachCore p fun _ k => { k with keys := (List.range 256).map (threshKey (fit 32 o)) } else z1)

/-- CKPT_BLOCK (R528): the lead's checkpoint, where the restore waits for it. -/
def execCkptBlock (counter : Nat) (ok : Bool) (body : Bytes) (s : State) : Host.Outcome State Fault Refusal :=
  .next (s.blockIn counter ok 5 body fun p o z =>
    if (z.part p).twin.fromLead then z.modPTwin p fun t => { t with rxCkpt := o } else z)

end Sys2Proof.Machine

namespace Sys2Proof

/-- A tensor from its input slots as a journal entry holds them. -/
def Image.tensorOf (g : Image) (b : Bytes) : Bytes :=
  let put := fun (t : Bytes) (o : Nat) (d : Bytes) => t.take o ++ d ++ t.drop (o + d.length)
  ((g.slots.filter fun x => !x.output).foldl (fun (a : Bytes × Bytes) x =>
    let n := Machine.fmtBytes x.fmt x.elems
    (put (put a.1 x.offset (sub a.2 0 n)) x.mask (sub a.2 n x.elems), a.2.drop (n + x.elems))) (zeros g.slotsIn, b)).1

end Sys2Proof

namespace Sys2Proof.Machine

/-- The entries of a JOURNAL object that continue the journal are appended and, where they launched, are to be re-executed (R528). -/
def State.takeJournal (p : Nat) (g : Image) (len : Nat) : Nat → Bytes → State → State
  | 0, _, s => s
  | n + 1, b, s =>
    if b.length < 64 || fld b 0 4 != 0x454A394B then s else
    let kind := fld b 4 1
    let body := if kind = 0 then (b.drop 64).take len else []
    let k := (s.part p).ck
    let chain := Config.shake (k.chain ++ Config.shake (b.take 64 ++ body) 64) 64
    let j : JEntry := ⟨fld b 8 2, fld b 6 1, fld b 5 1 == 1, timeOf (sub b 24 12), timeOf (sub b 36 12), if kind = 0 then 0 else if kind = 2 then 2 else 1, fld b 16 8,
      if kind = 0 then g.tensorOf body else [], 64 + body.length, chain⟩
    let s1 := if fld b 48 8 != k.journalN + 1 then s else s.modCk p fun k => { k with
      journal := k.journal ++ [j], journalN := k.journalN + 1, chain := chain, catchUp := if kind = 0 then k.catchUp ++ [j] else k.catchUp }
    let s2 := if fld b 48 8 != k.journalN + 1 then s1 else s1.journalWrite p (kind == 0) (b.take 64 ++ body)
    takeJournal p g len n (b.drop (64 + body.length)) s2

/-- JOURNAL_BLOCK (R528). -/
def execJournalBlock (counter : Nat) (ok : Bool) (body : Bytes) (s : State) : Host.Outcome State Fault Refusal :=
  .next (s.blockIn counter ok 6 body fun p o z =>
    match (z.part p).img.image with
    | none => z
    | some g =>
      if !((z.part p).st == .shadow || (z.part p).st == .restarting) || (z.part p).ck.stage != 3 then z
      else z.takeJournal p g ((g.inputSlots (zeros g.slotsIn)).length) (o.length / 64 + 1) o)

/-- VALUES_BLOCK (R534). -/
def execValuesBlock (counter : Nat) (ok : Bool) (body : Bytes) (s : State) : Host.Outcome State Fault Refusal :=
  .next (s.blockIn counter ok 7 body fun p o z =>
    (z.modPTwin p fun t => { t with hisVals := t.hisVals ++ [(fld o 0 8, o.drop 9, fld o 8 1 == 1)] }).compareVals p (fld o 0 8))

/-- CONST_BLOCK (R514): the plaintext of the leaf that the restart rebuilds (log entry 21). -/
def execConstBlock (counter : Nat) (ok : Bool) (body : Bytes) (s : State) : Host.Outcome State Fault Refusal :=
  .next (s.blockIn counter ok 8 body fun p o z =>
    match (if (z.part p).st == .restarting then (z.part p).ck.leafBad else none) with
    | none => z
    | some leaf =>
      let z := (z.modCk p fun k => { k with leafBad := none }).remote p 2 (z.regionOff (z.part p) 7 + leaf * mib) (min mib o.length)
      let z1 := z.hbmStore p (z.regionOff (z.part p) 7 + leaf * mib) (o.take mib)
      z1.writeParity p 7 (leaf * mib) (min mib o.length) fun x => memGet (z1.part p).img.hbm (z1.regionOff (z1.part p) 7 + x))

/-- REDIGEST_BLOCK (R525). -/
def execRedigestBlock (counter : Nat) (ok : Bool) (body : Bytes) (s : State) : Host.Outcome State Fault Refusal :=
  .next (s.blockIn counter ok 9 body fun p o z =>
    match (z.part p).twin.div with
    | some (st, _, _) => if st = blockStep body then (z.modPTwin p fun t => { t with redHis := some (fit 32 o) }).resolveDiv p else z
    | none => z)

/-! ### UNION_MAP, HANDOVER, TWIN_STATUS (R532, R534, R536) -/

/-- A unit takes its place in a rising list of units, once. -/
def insUnit : List (Nat × Nat) → Nat × Nat → List (Nat × Nat)
  | [], u => [u]
  | x :: l, u => if u == x then x :: l else if u.1 < x.1 || (u.1 == x.1 && decide (u.2 < x.2)) then u :: x :: l else x :: insUnit l u

/-- UNION_MAP's answer: the two canonical forms to the output area, the counts, the digest of the union. -/
def State.unionReply (s : State) (off added : Nat) : State × Option (Nat × Bytes) :=
  let mine := s.mapUnits
  let his := s.twin.map
  let both := his.foldl insUnit mine
  okReply (s.winWrite off (canonMap mine ++ canonMap his)) (natLe 2 mine.length ++ natLe 2 his.length ++ natLe 2 added ++ Config.shake (canonMap both) 64)

/-- The arguments of UNION_MAP are right: the area holds both maps, the local one with the entries that op 1 adds. -/
def State.unionArgs (s : State) (b : Bytes) (added : Nat) : Bool :=
  payOk b 16 [(1, 7)] && s.outputOk (fld b 8 8) (8 + 4 * (s.mapUnits.length + added + s.twin.map.length))

/-- UNION_MAP, op 0. -/
def execUnionMapRead (slot : Nat) (s : State) : Host.Outcome State Fault Refusal :=
  .next (s.command slot 0x0702 [3, 4, 5] true (form 0) (forms 1) none fun _ b z => if !z.unionArgs b 0 then refuse z stArg else z.unionReply (fld b 8 8) 0)

/-- UNION_MAP, op 1: needs the link up. -/
def execUnionMapAdopt (slot : Nat) (s : State) : Host.Outcome State Fault Refusal :=
  .next (s.command slot 0x0702 [3, 4, 5] true (form 1) (forms 1) none fun _ b z =>
    if !z.unionArgs b (z.lacking z.twin.map).length then refuse z stArg
    else if !z.paired then refuse z stResource
    else (z.adopt z.twin.map).unionReply (fld b 8 8) (z.lacking z.twin.map).length)

def handoverForm (op : Nat) (b : Bytes) : Bool := fld b 1 1 == op
def handoverKnown (b : Bytes) : Bool := decide (fld b 1 1 ≤ 1)

/-- HANDOVER, op 0 (R534). layouts: the mutable layouts and tensor slots of both modules match; differ: their datapath signatures or programs differ
(log entry 21). -/
def execHandover (slot : Nat) (layouts differ : Bool) (s : State) : Host.Outcome State Fault Refusal :=
  .next (s.command slot 0x0703 [3, 5] true (handoverForm 0) handoverKnown (some (inState [.armed])) fun n b z =>
    let p := fld b 0 1
    if (z.part p).twin.role = 0 || (z.part p).twin.hisState != 3 || (z.part p).twin.hslot.isSome then refuse z stState
    else if !payOk b 12 [] || fld b 2 2 == 0 || !tolOk (fld b 4 4) || !tolOk (fld b 8 4) || !layouts || !differ then refuse z stArg
    else (z.modPTwin p fun t => { t with
      tolMode := true, tolA := fld b 4 4, tolR := fld b 8 4, wantTol := fld b 2 2, runTol := 0, tried := 0, hslot := some n }, none))

/-- HANDOVER, op 1: the one in progress completes with ABORTED. -/
def execHandoverCancel (slot : Nat) (s : State) : Host.Outcome State Fault Refusal :=
  .next (s.command slot 0x0703 [3, 5] true (handoverForm 1) handoverKnown none fun _ b z =>
    let p := fld b 0 1
    if decide (7 < p) || !payOk b 12 [] then refuse z stArg
    else if (z.part p).twin.hslot.isNone then refuse z stState
    else okReply (z.endHandover p) [])

/-- TWIN_STATUS (R536). -/
def execTwinStatus (slot : Nat) (s : State) : Host.Outcome State Fault Refusal :=
  .next (s.command slot 0x0704 locked4 false anyForm anyForm none fun _ _ z =>
    let t := z.twin
    let pair := if t.pair = 2 && !z.linkUp then 3 else t.pair
    okReply z (natLe 1 pair ++ natLe 1 (popcount 16 t.lanes) ++ natLe 1 (b2n t.isolate) ++ zeros 1 ++ fit 16 t.partner ++ natLe 4 t.discarded ++ zeros 8 ++
      (List.range Config.nParts).flatMap fun p =>
        let q := z.part p
        let flags := b2n q.twin.tolMode + 2 * b2n q.twin.isolated + 4 * b2n (q.ck.stage == 3 && (q.st == .restarting || q.st == .shadow))
        natLe 1 q.twin.role ++ natLe 1 q.twin.hisState ++ natLe 1 flags ++ zeros 1 ++ natLe 4 q.twin.runMatch))

end Sys2Proof.Machine
end

