-- ==== Sys2Proof/Machine/HostLink.lean ====
section
/-! DEFINITION. The host link (R399 to R402), BAR0 and its registers (R406 to R412, R12), the write-watcher (R414), the management restart (R417),
IDENTIFY and GET_STATE (R422). -/

namespace Sys2Proof.Machine

/-! ### The link (R399 to R401, R426) -/

/-- OWN bits that were held are reported and accepted once the mailbox takes commands (R408, R417). [DEDUCED log entry 105] -/
def State.drain (s : State) : State :=
  if s.host.ready && s.host.en then s.modHost fun h => { h with accepted := h.accepted ++ h.waiting, waiting := [] } else s

/-- One of the four events of R401: D3hot is left, and OWN bits held by MBX_CTL.EN are reported. [DEDUCED log entry 104] -/
def State.linkReset (s : State) : State := (s.hostReset.modHost fun h => { h with d3hot := false }).drain

/-- FUNCTION_LEVEL_RESET (R401). -/
def execFunctionLevelReset (s : State) : Host.Outcome State Fault Refusal := .next s.linkReset
/-- HOT_RESET (R401). -/
def execHotReset (s : State) : Host.Outcome State Fault Refusal := .next s.linkReset
/-- HOST_LINK_DOWN (R401). -/
def execHostLinkDown (s : State) : Host.Outcome State Fault Refusal := .next s.linkReset
/-- PERST_ASSERT (R401): PERST# goes low. -/
def execPerstAssert (s : State) : Host.Outcome State Fault Refusal := .next (let s1 := s.linkReset; { s1 with board := { s1.board with perst := true } })

/-- HOST_LINK_UP (R426, R37): PERST# is high, and the link trains on a good reference. [DEDUCED log entry 104] -/
def execHostLinkUp (s : State) : Host.Outcome State Fault Refusal :=
  .next (
    let s1 : State := { s with board := { s.board with perst := false } }
    if !s.glumeRuns || s.board.hostRefBad || s.host.link then s1 else s1.modHost fun h => { h with link := true, bars := true })

/-- D3HOT_ENTRY (R400). -/
def execD3hotEntry (s : State) : Host.Outcome State Fault Refusal := .next (if s.host.link then s.modHost fun h => { h with d3hot := true } else s)
/-- D3HOT_EXIT (R400). -/
def execD3hotExit (s : State) : Host.Outcome State Fault Refusal := .next (s.modHost fun h => { h with d3hot := false })

/-- BAR0 answers: the link is up, BARs decode, and stage 5 has ended (R400, R407, R426). [DESIGN CHOICE log entry 22] -/
def State.answers (s : State) : Bool := s.host.link && s.host.bars && !s.host.d3hot && s.glumeRuns && s.board.stage != 5
/-- Registers beyond identity and event summary answer only where an image verified (R426). -/
def State.serves (s : State) : Bool := s.answers && s.ctl.bootErr == 0

/-- WINDOW_ACCESS (R402, R351): within 64 aligned bytes. A read answers on out channel 13, with 1 for poisoned data. [DESIGN CHOICE log entry 107] -/
def execWindowAccess (off n : Nat) (wr : Option Bytes) (s : State) : Host.Outcome State Fault Refusal :=
  .next (
    let p := off / gib8
    let o := off % gib8
    if !s.host.link || !s.glumeRuns || n = 0 || 64 < off % 64 + n || decide (7 < p) || (match wr with | some d => d.length != n | none => false) then s
    else if !s.winOk off n then
      let s1 := s.modHost fun h => { h with unbacked := satAdd h.unbacked 1 }
      (match wr with | some _ => s1 | none => s1.emit 13 1 (zeros n))
    else
      let s1 := s.remote p 4 o n
      match wr with
      | some d => s1.hbmStore p o d
      | none => s1.emit 13 (b2n ((s.part p).img.poisoned o)) (s.winRead off n))

/-! ### Timing and reference inputs (R37) -/

/-- The field lanes that depend on a bad lane reference go down (R37, R356). -/
def State.fieldLanesLost (s : State) : State :=
  (List.range 8).foldl (fun (z : State) p => if (z.port p).lanes = 0 then z else z.modPort p fun x => ({ x with lanes := 0 }).goDown s.opTicks) s

/-- TIMING_INPUT_OUT_OF_LIMITS (R37): input 0 10 MHz, 1 1PPS, 2 the 100 MHz host reference, 3 the 156.25 MHz lane reference. A lane reference
takes down the field and Rachis lanes, a host reference the host link. The warning's DATA, which the rule does not give, is the input's number in byte 0.
[DESIGN CHOICE log entry 128] -/
def execTimingInputOutOfLimits (input : Nat) (s : State) : Host.Outcome State Fault Refusal :=
  .next (
    if !s.alive then s else
    let rec1 := fun (z : State) => z.record 3 0x0030 0 0 (natLe 1 input)
    match input with
    | 0 => if s.time.tenMhz then rec1 (s.modTime fun t => { t with tenMhz := false }).reselect else s
    | 1 => if s.time.ppsIn then rec1 (s.modTime fun t => { t with ppsIn := false, ppsLocked := false }).reselect else s
    | 2 => if s.board.hostRefBad then s else rec1 ({ s with board := { s.board with hostRefBad := true } }).linkReset
    | 3 => if s.board.laneRefBad then s else rec1 (({ s with board := { s.board with laneRefBad := true } }).fieldLanesLost.rachisLost 65535)
    | _ => s)

/-- TIMING_INPUT_RESTORED (R37): the input has stayed within limits for 10 s. -/
def execTimingInputRestored (input : Nat) (s : State) : Host.Outcome State Fault Refusal :=
  .next (
    if !s.alive then s else
    match input with
    | 0 => (s.modTime fun t => { t with tenMhz := true }).reselect
    | 1 => s.modTime fun t => { t with ppsIn := true }
    | 2 => { s with board := { s.board with hostRefBad := false } }
    | 3 => { s with board := { s.board with laneRefBad := false } }
    | _ => s)

/-! ### Registers (R9 to R12, R406 to R412) -/

/-- An access that BAR0 takes (R406): register pages 4 or 8 bytes, slots 1 to 64 bytes written, 4 to 64 read, naturally aligned. -/
def barAccess (write : Bool) (off width : Nat) : Bool :=
  off % width == 0 && (if 0x10000 ≤ off && off < 0x50000 then [1, 2, 4, 8, 16, 32, 64].contains width && (write || decide (4 ≤ width)) else width == 4 || width == 8)

/-- BAR0_MISALIGNED_ACCESS (R406): it reads all ones or is discarded, and is reported as an advisory non-fatal error. Out channel 14. [DESIGN CHOICE log entry 124] -/
def execBar0MisalignedAccess (write : Bool) (off width : Nat) (s : State) : Host.Outcome State Fault Refusal :=
  .next (if !s.answers || barAccess write off width || 64 < width then s else s.emit 14 off (if write then [] else List.replicate width 0xFF))

/-- A unit of R411. -/
def unitValid (cls i : Nat) : Bool :=
  match cls with
  | 1 => decide (i < 576)
  | 2 => decide (i < 288)
  | 3 => decide (i < 1024)
  | 4 => decide (i < 48)
  | 5 => decide (i < 8)
  | 6 => decide (i < 12) || (64 ≤ i && i ≤ 127)
  | 7 => decide (i < 964)
  | 8 => decide (i < 8)
  | _ => false

/-- USEL (R410). -/
def State.usel (s : State) : Nat := s.host.uindex + 65536 * b2n (unitValid s.host.uclass s.host.uindex) + 16777216 * s.host.uclass

/-- A write that R12, R138 or R253 refuses: a notice with the BAR0 offset and USEL (R441). -/
def State.refusedWrite (s : State) (off : Nat) : State := s.record 2 0x0020 0 0 (natLe 4 off ++ natLe 4 s.usel)

/-- A partition counts as RUNNING for R12. [DEDUCED log entry 35] -/
def Part.runs (q : Part) : Bool := q.st == .running || q.st == .held

/-- MBX_CTL (R408). [DEDUCED log entry 105] -/
def State.writeCtl (s : State) (v : Nat) : State := (s.modHost fun h => { h with en := bit v 0, cmplIrq := bit v 1, evtIrq := bit v 2 }).drain

/-- AWN_CTL.LATCH (R397): the newest estimate, where there is one. -/
def State.latchAwn (s : State) (i : Nat) : State := s.modAwn i fun a => { a with latched := match a.est with | some x => some x | none => a.latched }

/-- Break registers of a core (R138, R140); HIT set in the same cycle stays (R11). -/
def CoreFlt.write (f : CoreFlt) (now r v : Nat) : CoreFlt :=
  match r with
  | 0x160 => { f with brkEn := bit v 0, brkEng := bits v 3 1, brkMode := bit v 4, brkHit := f.brkHit && (!bit v 5 || f.hitAt == some now) }
  | 0x164 => { f with brkTag := v % 65536, brkMask := v / 65536 % 65536 }
  | _ => { f with brkCount := v }

/-- A write of an AWN_CFG (R387, R397): UNLOCKED while tracking is off. [DEDUCED log entry 108] -/
def Awn.config (a : Awn) (v : Nat) : Awn := if bit v 1 then { a with nom := bit v 0, en := true } else { a with nom := bit v 0, en := false, state := 0, good := 0, low := 0 }

/-- A 4-byte write of register r of the selected unit (R412 and the chapters that add to it); off is the BAR0 offset. A W1C bit that hardware set in
this cycle stays set (R11). [DEDUCED log entry 108] -/
def State.writeUnit (s : State) (off r v : Nat) : State :=
  let i := s.host.uindex
  let q := s.part i
  match s.host.uclass, r with
  | 1, 0x160 | 1, 0x164 | 1, 0x168 => if s.debugOn then s.modCore i fun k => { k with flt := k.flt.write s.opTicks r v } else s.refusedWrite off
  | 4, 0x104 => if bit v 0 then s.modLane i fun l => { l with low := l.low && l.lowSet == some s.opTicks } else s
  | 5, 0x100 => if bit v 11 then s.modPort i fun x => { x with down := x.down && x.downAt == some s.opTicks } else s
  | 6, 0x100 => if (List.range Config.nParts).any fun p => (s.part p).runs then s.refusedWrite off else s.modAwn i fun a => a.config v
  | 6, 0x104 => if bit v 2 then s.modAwn i fun a => { a with ovr := a.ovr && a.ovrSet == some s.opTicks } else s
  | 6, 0x108 => if bit v 0 then s.latchAwn i else s
  | 8, 0x104 => s.modCtl i fun c => if q.runs then { c with learnP := some (bit v 0) } else { c with learn := bit v 0, learnP := none }
  | 8, 0x300 => if !s.debugOn then s.refusedWrite off else s.modCtl i fun c => if q.runs then { c with stallP := some (bit v 0) } else { c with stall := bit v 0, stallP := none }
  | 8, 0x304 => s.modCtl i fun c => if q.runs then { c with dlbP := some (bit v 0) } else { c with dlb := bit v 0, dlbP := none }
  | 8, 0x380 => let t := max 100 (min 60000 v); s.modCk i fun k => if q.runs then { k with periodP := some t } else { k with periodMs := t, periodP := none }
  | _, _ => s

/-- A 4-byte write of a register of BAR0. A W1C bit that hardware set in this cycle stays set (R11). -/
def State.writeReg (s : State) (off v : Nat) : State :=
  if off = 0x3000 then s.modHost fun h => { h with
    evtSum := h.evtSum &&& (0x7FF ^^^ ((List.range 11).foldl (fun m k => if bit v k && h.evtAt.get? k != some s.opTicks then m + 2 ^ k else m) 0)) }
  else if off = 0x3004 then s.modHost fun h => { h with evtMask := v % 2048 }
  else if s.ctl.bootErr != 0 then s
  else if off = 0x1000 then s.writeCtl v
  else if off = 0x1008 then s.modHost fun h => { h with holdoff := v % 65536 }
  else if 0x1100 ≤ off && off < 0x1180 then
    s.modHost fun h =>
      let kept := fun n => !(n / 32 == (off - 0x1100) / 4 && bit v (n % 32)) || h.doneAt.get? n == some s.opTicks
      { h with done := h.done.filter kept }
  else if off = 0x2000 then s.modHost fun h => { h with uindex := v % 65536, uclass := v / 16777216 % 256 }
  else if 0x2400 ≤ off && off < 0x2800 && unitValid s.host.uclass s.host.uindex then s.writeUnit off (off - 0x2400) v
  else s

/-- REGISTER_WRITE (R12): 4 or 8 bytes, naturally aligned. -/
def execRegisterWrite (off width value : Nat) (s : State) : Host.Outcome State Fault Refusal :=
  .next (
    if !s.answers || !barAccess true off width || (0x10000 ≤ off && off < 0x50000) then s
    else
      let s1 := s.writeReg off (value % 4294967296)
      if width = 8 then s1.writeReg (off + 4) (value / 4294967296 % 4294967296) else s1)

/-- MBX_CTL_WRITE (R408). -/
def execMbxCtlWrite (value : Nat) (s : State) : Host.Outcome State Fault Refusal := .next (if s.serves then s.writeCtl value else s)

/-- AWN_CTL_LATCH (R397). -/
def execAwnCtlLatch (unit : Nat) (s : State) : Host.Outcome State Fault Refusal := .next (if s.serves && unitValid 6 unit then s.latchAwn unit else s)

/-- EVT_SUM_READ (R409, R38, R39): over BAR0, or over the sideband at the module's address. -/
def execEvtSumRead (sideband : Option Nat) (s : State) : Host.Outcome State Fault Refusal :=
  .next (if (match sideband with | none => s.answers | some a => s.glumeRuns && a == s.board.smbus) then
    { s with board := { s.board with alert := false } } else s)

/-! ### The mailbox (R408, R414, R415, R417, R469) -/

/-- The watcher sees an OWN bit set: a command with the owner session's number takes its count n; Chokehus accepts it, or the watcher holds it. [DEDUCED log entry 105] -/
def State.ownSeen (s : State) (n : Nat) : State :=
  let b := s.slot n
  let mine := match s.sec.owner with | some k => k.num != 0 && slotSession b == k.num | none => false
  let s1 := if mine then
      { s with host := { s.host with nums := s.host.nums.put n ((s.sec.owner.map Session.n).getD 0) }
               sec := { s.sec with owner := s.sec.owner.map fun k => { k with n := k.n + 1 } } } else s
  (s1.modHost fun h => { h with waiting := h.waiting ++ [n] }).drain

/-- MAILBOX_SLOT_WRITE (R406, R414): while OWN is 1 the write is discarded and counted. -/
def execMailboxSlotWrite (slot off : Nat) (data : Bytes) (s : State) : Host.Outcome State Fault Refusal :=
  .next (
    if !s.serves || decide (1024 ≤ slot) || decide (256 < off + data.length) || !barAccess true (0x10000 + 256 * slot + off) data.length then s
    else
      let b := s.slot slot
      if slotOwn b then s.modHost fun h => { h with wdrop := satAdd h.wdrop 1 }
      else
        let s1 := s.modHost fun h => { h with slots := h.slots.put slot (b.take off ++ data ++ b.drop (off + data.length)) }
        if slotOwn (s1.slot slot) then (s1.ownSeen slot).readPayload (s1.slot slot) else s1)

/-- MBX_IRQ_HOLDOFF_EXPIRY (R408). [DEDUCED log entry 106] -/
def execMbxIrqHoldoffExpiry (vector : Nat) (s : State) : Host.Outcome State Fault Refusal :=
  .next (
    let past := match s.host.vecLast.get? vector with | some t => decide (t + s.host.holdoff * 2500 ≤ s.opTicks) | none => true
    if !s.host.vecWait.contains vector || !past || !s.host.cmplIrq || !s.host.link then s
    else (s.modHost fun h => { h with vecWait := h.vecWait.filter (· != vector), vecLast := h.vecLast.put vector s.opTicks }).emit 6 vector [])

/-- MANAGEMENT_RESTART (R417, R464). [DESIGN CHOICE log entry 31] -/
def execManagementRestart (s : State) : Host.Outcome State Fault Refusal :=
  .next (if !s.host.ready then s else
    (s.modHost fun h => { h with ready := false, restart := true, restarts := satInc 16 h.restarts }).extend 7 12 [])

/-- What an uncommitted command has begun is undone (R417): a REPLAY, a pairing, a HANDOVER. [DEDUCED log entry 109] -/
def State.undo (s : State) : State :=
  let s1 := (List.range Config.nParts).foldl (fun (z : State) p =>
    let z1 := match (z.part p).ck.replay with | some r => z.replayRestore p r | none => z
    z1.modPTwin p fun t => { t with hslot := none }) s
  s1.modTwin fun t => { t with pair := if t.pair = 1 then 0 else t.pair, slot := none, parts := [] }

/-- MANAGEMENT_RESTART_END (R417): uncommitted commands complete with ABORTED; STOP and CHECKPOINT were committed at acceptance, and a DBG_RESUME
that waits for the cores was committed when it took effect. [DEDUCED log entry 109] -/
def execManagementRestartEnd (s : State) : Host.Outcome State Fault Refusal :=
  .next (if !s.host.restart then s else
    let l := s.host.accepted.filter fun n => !(slotCode (s.slot n) == 0x0107 || slotCode (s.slot n) == 0x0109 || s.parts.any fun x => x.2.ctl.resume.contains n)
    let s1 := s.undo.finishAll l stAborted []
    ((s1.modHost fun h => { h with ready := true, restart := false }).event 9).drain)

/-! ### IDENTIFY and GET_STATE (R407, R422, R540) -/

/-- The JTAG IDCODE (R540) of a B0 part. -/
def idcode : Nat := 1 + 2 * (Config.jep106 % 2048) + 0x4B09 * 4096 + 1 * 268435456

/-- BAR0 bytes 0x00 to 0x7F (R407). -/
def State.identity (s : State) : Bytes :=
  natLe 4 0x4449394B ++ natLe 2 1 ++ natLe 2 256 ++ natLe 4 detClass ++
  natLe 4 ((if s.board.half then 768 else 1536) + 65536 * b2n s.board.ext + 131072 * b2n s.board.paired) ++
  Config.serial ++ (if s.board.paired then Config.partnerSerial else zeros 16) ++ natLe 4 idcode ++
  natLe 4 (s.mstate + 16 * b2n s.debugOn + 32 * b2n s.sec.owner.isSome + 64 * s.time.state + 256 * s.ctl.bootErr) ++
  natLe 4 s.host.unbacked ++ zeros 4 ++
  (List.range Config.nParts).flatMap fun p => if (s.part p).img.image.isSome then fit 8 (s.part p).cnt.bir else zeros 8

/-- IDENTIFY (R422). -/
def execIdentify (slot : Nat) (s : State) : Host.Outcome State Fault Refusal :=
  .next (s.command slot 0x0001 locked5 false anyForm anyForm none fun _ _ z =>
    okReply z (z.identity ++ natLe 4 z.sec.fw.version ++ natLe 1 z.sec.letter ++ zeros 3 ++ fit 64 z.sec.fw.sig))

/-- GET_STATE (R422). -/
def execGetState (slot : Nat) (s : State) : Host.Outcome State Fault Refusal :=
  .next (s.command slot 0x0002 locked5 false anyForm anyForm none fun _ _ z =>
    let temp := fun (x : Int) => natLe 2 (ofSigned 16 x)
    okReply z (natLe 1 z.mstate ++ natLe 1 (b2n z.debugOn + 2 * b2n z.sec.owner.isSome + 4 * b2n z.anyOverlay) ++
      natLe 2 (b2n z.ctl.fewCores + 2 * b2n (!z.ctl.lostSlices.isEmpty)) ++
      (List.range Config.nParts).flatMap (fun p => natLe 1 ((z.part p).st.code + 16 * b2n (z.part p).res.created)) ++
      natLe 8 (z.opMs / 1000) ++ natLe 4 z.board.pcycle ++ temp z.board.junction ++ temp z.board.inlet ++ temp z.board.outlet ++ natLe 2 z.board.flow ++
      (List.range 16).flatMap (fun i => temp (z.meas.root.getD i 0)) ++ (List.range 16).flatMap (fun i => temp (z.meas.edge.getD i 0)) ++
      timeBytes z.now ++ natLe 4 z.gran.power ++ natLe 2 ((List.range Config.nCores).filter z.healthy).length ++ natLe 2 z.spareCount))

end Sys2Proof.Machine
end

