-- ==== Sys2Proof/Machine/Boot.lean ====
section
/-! DEFINITION. Power-up, measured boot, power fail, reset and board test (R19 to R27, R40 to R42, R426, R463, R464, R497). -/

namespace Sys2Proof.Machine

/-! ### Power off (R27, R41, R457) -/

/-- What a power-off or a reset of the module leaves: what OTP and flash hold, what lies outside it, and the counts over life. [DEDUCED log entry 111] -/
def State.wiped (s : State) : State :=
  let keep := fun (c : Pc) => ({ role := c.role, slice := c.slice, rowErrs := c.rowErrs, softRows := c.softRows } : Pc)
  { pending := s.pending, free := s.free, out := s.out, opTicks := s.opTicks
    board := { pcycle := s.board.pcycle, half := s.board.half, ext := s.board.ext, paired := s.board.paired, flash := s.board.flash
               jHours := s.board.jHours, jSum := s.board.jSum, jNotice := s.board.jNotice, jMax := s.board.jMax, tripped := s.board.tripped }
    hbm := { pcs := s.hbm.pcs.map fun (x : Nat × Pc) => (x.1, keep x.2) }
    units := { recs := s.units.recs, charges := s.units.charges }
    otp := { gens := s.otp.gens, summary := s.otp.summary, sumFull := s.otp.sumFull }
    sec := { vendors := s.sec.vendors, owners := s.sec.owners, dead := s.sec.dead, fw := s.sec.fw, letter := s.sec.letter
             flashA := s.sec.flashA, flashB := s.sec.flashB }
    meas := { factory := s.meas.factory } }

/-! ### Rails (R26, R40) -/

/-- The mask of all nine rails. -/
def allRails : Nat := 511

/-- Rails k to 9 are brought up in order (R26): a rail starts once the one before it is in regulation, so none starts after one that does not reach it.
good: the rails that reach regulation (log entry 3). -/
def railsUp (good : Nat) : Nat → Nat → Nat → Nat
  | 0, _, m => m
  | n + 1, k, m => if bit good k then railsUp good n (k + 1) (m ||| 2 ^ k) else m

/-- Rails go down in the reverse order (R26): the last n that are up, from rail n on. -/
def railsDown : Nat → Nat → Nat
  | 0, m => m
  | n + 1, m => railsDown n (if bit m n then m - 2 ^ n else m)

/-- The rails stand so; PWRGD is high while all are in regulation (R40). [DEDUCED log entry 112] -/
def Board.withRails (b : Board) (m : Nat) : Board := { b with rails := m, pwrgd := m == allRails }

/-! ### Stages 1 to 4 (R21, R25, R38, R497) -/

/-- The module leaves stage 4 (R25, R426): the root die is released into stage 5 if MODRST# is high. A power-up that reaches stage 5 counts once (R23). -/
def Board.release (b : Board) : Board :=
  if b.modrst then { b with stage := 4 }
  else { b with stage := 5, pcycle := if b.counted then b.pcycle else b.pcycle + 1, counted := true }

/-- POWER_UP (R25): both blades present, the start threshold held. away: the input was absent for at least 1 s before (R497). rails: those that reach
regulation; the module starts where all do. [DESIGN CHOICE log entry 113] -/
def execPowerUp (pb1 pb2 modrst perst away : Bool) (straps rails : Nat) (s : State) : Host.Outcome State Fault Refusal :=
  .next (
    if s.ctl.mstate != 0 then s else
    let held := s.board.tripped && !(away && !s.board.input)
    let b := { s.board with input := true, pb1 := pb1, pb2 := pb2, modrst := modrst, perst := perst, tripped := held }
    if held || !pb1 || !pb2 then { s with board := b } else
    let b1 := b.withRails (railsUp rails 9 0 0)
    if !b1.pwrgd then { s with board := b1 }
    else { s with board := { b1 with straps := straps % 4 }.release, ctl := { s.ctl with mstate := 1 } })

/-! ### Stage 5 (R463, R464, R456, R443, R33) -/

/-- The state byte of a vendor slot and of an owner slot: 0 spare, 1 in force, 2 revoked (log entry 55). -/
def Sec.slotBytes (x : Sec) : Bytes :=
  (List.range 4).flatMap (fun k => natLe 1 (match x.vendors.get? k with | some v => if v.revoked then 2 else 1 | none => 0)) ++
  (List.range 8).flatMap fun k => natLe 1 (b2n (decide (k < x.owners.length)))

/-- Stage k of BOOT runs (R426): the module is out of reset, and no power-fail sequence has begun (R24). -/
def State.inStage (s : State) (k : Nat) : Bool := s.ctl.mstate == 1 && s.board.stage == k && !s.board.modrst && s.board.failing.isNone

/-- An image verifies (R463 step 3): against the policy generation in force. -/
def State.verifies (s : State) (g : FwImg) : Bool := g.ok && s.sec.vendorOk g.slot && decide (fld (s.otp.inForce 4) 0 4 ≤ g.svn)

/-- BOOT stops (R426, R456): the error is reported. [DESIGN CHOICE log entry 113] -/
def State.bootFails (s : State) (err : Nat) : State :=
  { s with ctl := { s.ctl with bootErr := err }, board := { s.board with stage := 0 } }

/-- A critical summary entry that hardware or Glume writes itself (R426, R497): the record with its entry. It is no record that Stook accepts, so it
asserts no SMB_ALERT# (R39). [DESIGN CHOICE log entry 113] -/
def State.critical (s : State) (code : Nat) (data : Bytes) : State :=
  let r : Rec := ⟨s.opMs % 2 ^ 40, s.board.pcycle % 2 ^ 24, 6, true, false, 0, 0, code, s.stook.offered % 65536, fit 16 data, 0⟩
  s.summaryCommit r

/-- MEASURED_BOOT (R463). readA, readB: the image in the flash slot reads as it was written; intact: the derived keys match their digests (R456;
log entry 3). [DESIGN CHOICE log entry 103] [DESIGN CHOICE log entry 30] -/
def execMeasuredBoot (readA readB intact : Bool) (s : State) : Host.Outcome State Fault Refusal :=
  .next (
    if !s.inStage 5 then s else
    let s0 : State := { s with
      stook := {}, sec := { s.sec with meas := List.replicate 8 (zeros 64), kemN := s.sec.kemN + 1, sess := [], owner := none, sessN := 0 } }
    let okA := readA && s0.verifies s.sec.flashA
    let okB := readB && s0.verifies s.sec.flashB
    if s.sec.dead || !intact then s0.bootFails 2
    else if !okA && !okB then (s0.critical 0x0001 [1]).bootFails 1
    else
      let s1 := s0.modSec fun x => { x with fw := if okA then x.flashA else x.flashB, letter := b2n (!okA) }
      let s2 := ((s1.extend 0 1 Config.romDigest).extend 0 2 (Config.shake (Config.pubKey 0 0 1952) 64)).measureImage
      let s3 := ((s2.extend 3 5 (Config.shake (s2.otp.inForce 4) 64 ++ s2.sec.slotBytes)).extend 4 7 (Config.shake (s2.otp.inForce 5) 64)).extend 5 8
        (Config.shake (s2.otp.inForce 6) 64)
      let s4 := if okA then s3 else s3.security 0x01 []
      { s4 with board := { s4.board with stage := 6 } })

/-! ### Stages 6 to 8 (R426, R24, R346, R433, R434, R502) -/

/-- CHOKEHUS_STAGE (R426): power-fail records become Stook records, of which R24 gives the severity and no DATA: it holds the flash record's first 16
bytes; the working copies are loaded; bad: units that fail self-test, which are charged and retired (R501, R502); copies: a flash copy of the full owner keys holds (R459; log entry 3).
[DESIGN CHOICE log entry 51] -/
def execChokehusStage (bad : List (Nat × Nat)) (copies : Bool) (s : State) : Host.Outcome State Fault Refusal :=
  .next (
    if !s.inStage 6 then s else
    let s1 := s.board.flash.foldl (fun (z : State) r => z.record 5 0x0040 0 0 (r.take 16)) s
    let s2 : State := { s1 with
      board := { s1.board with flash := [], stage := 7 }
      otp := { s1.otp with work := [] }, sec := { s1.sec with ownerLost := !copies }, meas := { s1.meas with user := calRecords (s1.otp.inForce 6) } }
    bad.foldl (fun (z : State) u => (z.charge u.1 u.2).retireUnit u.1 u.2) s2)

/-- A soft row repair is made hard while 480 records are not spent (R346, R438). -/
def State.harden (s : State) (i row : Nat) : State := if s.units.recs.length < 480 then s.retire 4 3 i row else s

/-- The pseudo-channel table of a power-up (R346, R347): retired members give way to their stack's spare; hard repairs use a bank's spare row. [DEDUCED log entry 114, DEDUCED log entry 121] -/
def State.freshPcs (s : State) : State :=
  let hard := fun (i : Nat) => s.units.recs.filter fun r => r.kind == 4 && r.idx == i
  let base : Tbl Pc := (s.hbm.pcs.map Prod.fst ++ ((s.units.recs ++ s.units.extra).filter fun r => r.cls == 3).map (fun r => r.idx) ++
    (s.units.overlay.filter fun u => u.1 == 3).map Prod.snd).foldl (fun (t : Tbl Pc) i =>
    let h := hard i
    t.put i { Pc.init i with
      role := if s.disabled 3 i then 3 else (Pc.init i).role
      hard := h.length % 256, usedBanks := h.foldl (fun l r => setIns l (r.detail / 2 ^ 18)) [], rowErrs := (s.pc i).rowErrs }) []
  let swap := fun (t : Tbl Pc) (i : Nat) =>
    let sp := i / 32 * 32 + 31
    let x := t.getD sp (Pc.init sp)
    if i % 32 = 31 || s.disabled 3 sp || x.role != 1 then t else t.put sp { x with role := 2, slice := i % 32 }
  { s with hbm := { s.hbm with pcs := ((List.range 1024).filter (s.disabled 3)).foldl swap base } }

/-- HBM_TRAINING (R426, R346): soft repairs are made hard; bad: pseudo-channels that fail, which are charged and retired (R501, R502). -/
def execHbmTraining (bad : List Nat) (s : State) : Host.Outcome State Fault Refusal :=
  .next (
    if !s.inStage 7 then s else
    let rows := s.hbm.pcs.flatMap fun x => x.2.softRows.map fun r => (x.1, r)
    let s1 := rows.foldl (fun (z : State) x => z.harden x.1 x.2) s
    let s2 := (bad.foldl (fun (z : State) i => (z.charge 3 i).retireUnit 3 i) s1).freshPcs
    { s2 with board := { s2.board with stage := 8 } })

/-- BOOT_END (R426, R434, R441, R464): time counts, the stored commands apply, the module enters LOCKED. [DESIGN CHOICE log entry 10] -/
def execBootEnd (s : State) : Host.Outcome State Fault Refusal :=
  .next (
    if !s.inStage 8 then s else
    let cfg := s.otp.inForce 5
    let s1 : State := { s with time := { s.time with count := 0, runs := true }, gran := { s.gran with thermal := s.capMax, cap := min s.gran.cap s.capMax } }
    let s2 := (s1.applyStored cfg.length cfg).extend 6 9 (Config.shake (canonMap s1.mapUnits) 64)
    let s3 := (s2.record 1 0x0001 0 0 (natLe 1 s2.ctl.bootErr ++ natLe 4 s2.sec.fw.version)).record 1 0x0004 0 0 (timeBytes s2.now ++ natLe 1 s2.time.state)
    let s4 := s3.toModule 2
    let s5 : State := { s4 with board := { s4.board with stage := 0 }, cc := 0 }
    ((s5.coreCheck 8).modHost fun h => { h with ready := true }).drain)

/-! ### Power fail (R23, R24, R497) -/

/-- The power-fail sequence begins: a hold is announced on every partition (R309), domains are gated, Chokehus takes no command.
[DESIGN CHOICE log entry 51, DESIGN CHOICE log entry 110] -/
def State.failPower (s : State) (cause : Nat) : State :=
  let s1 := (List.range Config.nParts).foldl (fun (z : State) p => if (z.part p).res.created then z.announce p 5 none else z) s
  let s2 := s1.modHost fun h => { h with ready := false }
  { s2 with board := { s2.board with failing := some cause } }

/-- POWER_FAIL (R23): nothing interrupts a sequence that runs (R24); one begins with MODRST# low too, where no firmware runs to write a record.
[DESIGN CHOICE log entry 110] -/
def execPowerFail (cause : Nat) (s : State) : Host.Outcome State Fault Refusal :=
  .next (if s.ctl.mstate = 0 || s.board.failing.isSome then s else s.failPower cause)

/-- The power-fail record (R23, log entry 51): cause, module time, power-cycle count, then the partitions' states and step counters, or during BOOT
the stage that runs. -/
def State.failRecord (s : State) (cause : Nat) : Bytes :=
  natLe 1 cause ++ timeBytes s.now ++ natLe 3 s.board.pcycle ++
  (if s.ctl.mstate = 1 then natLe 1 s.board.stage
   else (List.range Config.nParts).flatMap (fun p => natLe 1 (s.part p).st.code) ++ (List.range Config.nParts).flatMap fun p => natLe 8 (s.part p).ctl.stepCount)

/-- The module is off, with the input as it stands: the rails go down (R26). [DESIGN CHOICE log entry 110] -/
def State.turnOff (s : State) : State :=
  let z := s.wiped
  { z with board := { z.board with input := s.board.input }.withRails (railsDown 9 s.board.rails) }

/-- POWER_FAIL_RECORD (R23): a record where Chokehus has started; the module turns off. -/
def execPowerFailRecord (s : State) : Host.Outcome State Fault Refusal :=
  .next (match s.board.failing with
  | none => s
  | some cause =>
    let started := s.ctl.bootErr == 0 && (s.board.stage == 0 || decide (6 ≤ s.board.stage))
    (if started then { s with board := { s.board with flash := s.board.flash ++ [s.failRecord cause] } } else s).turnOff)

/-- THERMAL_TRIP (R494, R497): cause 5. [DESIGN CHOICE log entry 113] -/
def execThermalTrip (s : State) : Host.Outcome State Fault Refusal :=
  .next (
    if !s.alive || s.board.failing.isSome || !s.tempAtLeast 115 105 then s else
    let s1 := (s.critical 0x0040 [5]).failPower 5
    { s1 with board := { s1.board with tripped := true } })

/-! ### Rails, removal, reset, board test (R27, R40, R41, R42) -/

/-- RAIL_OUT_OF_REGULATION (R40). good: the rails in regulation from now on (log entry 3): PWRGD falls with the first that leaves it and rises when all
that are up are back. [DEDUCED log entry 112] -/
def execRailOutOfRegulation (good : Nat) (s : State) : Host.Outcome State Fault Refusal :=
  .next (if s.ctl.mstate = 0 then s else { s with board := s.board.withRails (good % 512) })

/-- INPUT_REMOVED (R27): OFF; a power-fail sequence that runs goes on on hold-up power (R23, R24). [DESIGN CHOICE log entry 110] -/
def execInputRemoved (s : State) : Host.Outcome State Fault Refusal :=
  .next (
    let s1 : State := { s with board := { s.board with input := false } }
    if s.board.failing.isSome then s1 else s1.turnOff)

/-- MODRST_ASSERT (R41, R24): held in reset below the hot-swap stage; PWRGD keeps reporting the rails. A ZEROISED module stays so (R482).
[DEDUCED log entry 111] -/
def execModrstAssert (s : State) : Host.Outcome State Fault Refusal :=
  .next (
    if s.board.failing.isSome then s
    else if s.ctl.mstate = 0 || s.ctl.mstate = 6 then { s with board := { s.board with modrst := true } }
    else
      let z := s.turnOff
      { z with
        board := { z.board with
          pb1 := s.board.pb1, pb2 := s.board.pb2, rails := s.board.rails, pwrgd := s.board.pwrgd, straps := s.board.straps, perst := s.board.perst, counted := s.board.counted
          modrst := true, stage := 4 }
        ctl := { z.ctl with mstate := 1 } })

/-- MODRST_RELEASE (R41, R24): the module starts from stage 4; a boundary-scan instruction in the TAP acts as BYPASS from then on (R42).
[DEDUCED log entry 111] -/
def execModrstRelease (s : State) : Host.Outcome State Fault Refusal :=
  .next (
    let b := { s.board with modrst := false, tap := if 2 ≤ s.board.tap then 0 else s.board.tap }
    { s with board := if s.board.modrst && s.ctl.mstate = 1 && s.board.stage = 4 && s.board.failing.isNone then b.release else b })

/-! ### Board test (R38, R39, R40, R42) -/

/-- PRSNT# is tied to ground on the module (R40). -/
def prsntPin : Bool := false

/-- The cells of the boundary register that the module drives: CLKREQ#, 1PPS out, SMBus data, SMB_ALERT# and PWRGD (log entry 125). -/
def drivenCells : Nat := 0b0000010111010

/-- The pins of groups HC, FC, TM and SB that the boundary register covers (R42), in the register's order (log entry 125): PERST#, CLKREQ#, 1PPS in,
1PPS out, 10 MHz in, SMBus clock, SMBus data, SMB_ALERT#, PWRGD, PRSNT#, MODRST#, the two straps. Those that State holds read as it holds them, the others
as the carrier has them; under EXTEST the driven ones follow the boundary register. [DESIGN CHOICE log entry 125] -/
def State.pins (s : State) (levels : Nat) : Nat :=
  let b := s.board
  let own := b2n (!b.perst) + 128 * b2n (!b.alert) + 256 * b2n b.pwrgd + 512 * b2n prsntPin + 1024 * b2n (!b.modrst) + 2048 * (b.straps % 4)
  let free := levels &&& 0b0000001111110
  if b.tap = 3 then ((own ||| free) &&& (8191 ^^^ drivenCells)) ||| (b.bscan &&& drivenCells) else own ||| free

/-- JTAG_INSTRUCTION (R42, R540): 0 BYPASS, 1 IDCODE, 2 SAMPLE/PRELOAD, 3 EXTEST; anything else acts as BYPASS, and with MODRST# high so do 2 and 3. The
TAP answers while VSB is up (R26, R27). levels: the pins as the carrier has them; shifted: what is shifted into the boundary register, whose captured pins
leave. Out channel 15: the IDCODE, or with argument 1 the captured pins. [PRESUMED log entry 115] -/
def execJtagInstruction (code levels shifted : Nat) (s : State) : Host.Outcome State Fault Refusal :=
  .next (
    if !bit s.board.rails 0 then s else
    let c := if s.board.modrst then (if code ≤ 3 then code else 0) else if code ≤ 1 then code else 0
    let s1 : State := { s with board := { s.board with tap := c, bscan := if 2 ≤ c then shifted % 8192 else s.board.bscan } }
    if c = 1 then s1.emit 15 0 (natLe 4 idcode) else if 2 ≤ c then s1.emit 15 1 (natLe 2 (s.pins levels)) else s1)

end Sys2Proof.Machine
end

