-- ==== Sys2Proof/Machine/Dispatch.lean ====
section
/-! DEFINITION. The dispatch of a command to its meaning: one arm for each constructor of Instr. -/

namespace Sys2Proof.Machine

def exec (i : Instr) (s : State) : Host.Outcome State Fault Refusal :=
  match i with
  | .powerUp pb1 pb2 modrst perst away straps rails => Sys2Proof.Machine.execPowerUp pb1 pb2 modrst perst away straps rails s
  | .measuredBoot readA readB intact => Sys2Proof.Machine.execMeasuredBoot readA readB intact s
  | .chokehusStage bad copies => Sys2Proof.Machine.execChokehusStage bad copies s
  | .hbmTraining bad => Sys2Proof.Machine.execHbmTraining bad s
  | .bootEnd => Sys2Proof.Machine.execBootEnd s
  | .bladeLoss pb1 pb2 => Sys2Proof.Machine.execBladeLoss pb1 pb2 s
  | .bladeBudgetRestore => Sys2Proof.Machine.execBladeBudgetRestore s
  | .powerFail cause => Sys2Proof.Machine.execPowerFail cause s
  | .powerFailRecord => Sys2Proof.Machine.execPowerFailRecord s
  | .railOutOfRegulation good => Sys2Proof.Machine.execRailOutOfRegulation good s
  | .inputRemoved => Sys2Proof.Machine.execInputRemoved s
  | .modrstAssert => Sys2Proof.Machine.execModrstAssert s
  | .modrstRelease => Sys2Proof.Machine.execModrstRelease s
  | .thermalTrip => Sys2Proof.Machine.execThermalTrip s
  | .leakDetected => Sys2Proof.Machine.execLeakDetected s
  | .coolantSample inlet outlet => Sys2Proof.Machine.execCoolantSample inlet outlet s
  | .junctionHourlyUpdate => Sys2Proof.Machine.execJunctionHourlyUpdate s
  | .timingInputOutOfLimits input => Sys2Proof.Machine.execTimingInputOutOfLimits input s
  | .timingInputRestored input => Sys2Proof.Machine.execTimingInputRestored input s
  | .jtagInstruction code levels shifted => Sys2Proof.Machine.execJtagInstruction code levels shifted s
  | .ppsInEdge => Sys2Proof.Machine.execPpsInEdge s
  | .ppsOutMark => Sys2Proof.Machine.execPpsOutMark s
  | .ptpSync port via ident domain seq twoStep origin corr interval => Sys2Proof.Machine.execPtpSync port via ident domain seq twoStep origin corr interval s
  | .ptpFollowUp port via ident domain seq origin corr => Sys2Proof.Machine.execPtpFollowUp port via ident domain seq origin corr s
  | .ptpAnnounce port via ident domain ds interval utc => Sys2Proof.Machine.execPtpAnnounce port via ident domain ds interval utc s
  | .ptpDelayResp port via ident domain seq receipt corr => Sys2Proof.Machine.execPtpDelayResp port via ident domain seq receipt corr s
  | .ptpPdelayReq port via domain seq => Sys2Proof.Machine.execPtpPdelayReq port via domain seq s
  | .ptpPdelayResp port via domain seq followUp oneStep stamp corr => Sys2Proof.Machine.execPtpPdelayResp port via domain seq followUp oneStep stamp corr s
  | .ptpDelayReqSend port => Sys2Proof.Machine.execPtpDelayReqSend port s
  | .ptpSyncTimeout port => Sys2Proof.Machine.execPtpSyncTimeout port s
  | .timeMark => Sys2Proof.Machine.execTimeMark s
  | .inputCut entry => Sys2Proof.Machine.execInputCut entry s
  | .launchDecision p => Sys2Proof.Machine.execLaunchDecision p s
  | .flywheelTimeout src => Sys2Proof.Machine.execFlywheelTimeout src s
  | .guardInstant p => Sys2Proof.Machine.execGuardInstant p s
  | .emissionWindow p => Sys2Proof.Machine.execEmissionWindow p s
  | .emission p => Sys2Proof.Machine.execEmission p s
  | .digestFrameSend p => Sys2Proof.Machine.execDigestFrameSend p s
  | .timeFrameSend port => Sys2Proof.Machine.execTimeFrameSend port s
  | .deadline p => Sys2Proof.Machine.execDeadline p s
  | .stepEndComplete c => Sys2Proof.Machine.execStepEndComplete c s
  | .stepBarrier p => Sys2Proof.Machine.execStepBarrier p s
  | .frameEnd p => Sys2Proof.Machine.execFrameEnd p s
  | .stepTimeout c => Sys2Proof.Machine.execStepTimeout c s
  | .flagDeadlock c => Sys2Proof.Machine.execFlagDeadlock c s
  | .fetchDeliveryStart c => Sys2Proof.Machine.execFetchDeliveryStart c s
  | .fetchInstructionArrival c => Sys2Proof.Machine.execFetchInstructionArrival c s
  | .fetchCheck c corrected retried => Sys2Proof.Machine.execFetchCheck c corrected retried s
  | .sequencerRegionOverrun c => Sys2Proof.Machine.execSequencerRegionOverrun c s
  | .instructionSignalPoint c => Sys2Proof.Machine.execInstructionSignalPoint c s
  | .scalarResult c => Sys2Proof.Machine.execScalarResult c s
  | .scoreboardRelease c => Sys2Proof.Machine.execScoreboardRelease c s
  | .nop c e => Sys2Proof.Machine.execNop c e s
  | .fetch c => Sys2Proof.Machine.execFetch c s
  | .qwait c => Sys2Proof.Machine.execQwait c s
  | .lds c => Sys2Proof.Machine.execLds c s
  | .sts c => Sys2Proof.Machine.execSts c s
  | .alu c => Sys2Proof.Machine.execAlu c s
  | .sysr c => Sys2Proof.Machine.execSysr c s
  | .br c => Sys2Proof.Machine.execBr c s
  | .flagSet c => Sys2Proof.Machine.execFlagSet c s
  | .flagAdd c => Sys2Proof.Machine.execFlagAdd c s
  | .waitc c => Sys2Proof.Machine.execWaitc c s
  | .stepEnd c => Sys2Proof.Machine.execStepEnd c s
  | .fault c => Sys2Proof.Machine.execFault c s
  | .mm c => Sys2Proof.Machine.execMm c s
  | .mmContribution c => Sys2Proof.Machine.execMmContribution c s
  | .drain c => Sys2Proof.Machine.execDrain c s
  | .drainParamRead c => Sys2Proof.Machine.execDrainParamRead c s
  | .drainRowRead c => Sys2Proof.Machine.execDrainRowRead c s
  | .drainRowWrite c => Sys2Proof.Machine.execDrainRowWrite c s
  | .loadAcc c => Sys2Proof.Machine.execLoadAcc c s
  | .loadAccRowWrite c => Sys2Proof.Machine.execLoadAccRowWrite c s
  | .add c => Sys2Proof.Machine.execAdd c s
  | .sub c => Sys2Proof.Machine.execSub c s
  | .mul c => Sys2Proof.Machine.execMul c s
  | .mad c => Sys2Proof.Machine.execMad c s
  | .min c => Sys2Proof.Machine.execMin c s
  | .max c => Sys2Proof.Machine.execMax c s
  | .abs c => Sys2Proof.Machine.execAbs c s
  | .neg c => Sys2Proof.Machine.execNeg c s
  | .cvt c => Sys2Proof.Machine.execCvt c s
  | .clamp c => Sys2Proof.Machine.execClamp c s
  | .cmpeq c => Sys2Proof.Machine.execCmpeq c s
  | .cmpne c => Sys2Proof.Machine.execCmpne c s
  | .cmplt c => Sys2Proof.Machine.execCmplt c s
  | .cmple c => Sys2Proof.Machine.execCmple c s
  | .sel c => Sys2Proof.Machine.execSel c s
  | .exp2 c => Sys2Proof.Machine.execExp2 c s
  | .log2 c => Sys2Proof.Machine.execLog2 c s
  | .rcp c => Sys2Proof.Machine.execRcp c s
  | .rsqrt c => Sys2Proof.Machine.execRsqrt c s
  | .tanh c => Sys2Proof.Machine.execTanh c s
  | .rsum c => Sys2Proof.Machine.execRsum c s
  | .rmax c => Sys2Proof.Machine.execRmax c s
  | .rmin c => Sys2Proof.Machine.execRmin c s
  | .rargmax c => Sys2Proof.Machine.execRargmax c s
  | .softmax c => Sys2Proof.Machine.execSoftmax c s
  | .xadd c => Sys2Proof.Machine.execXadd c s
  | .xcvt c => Sys2Proof.Machine.execXcvt c s
  | .xcvtRecordRead c => Sys2Proof.Machine.execXcvtRecordRead c s
  | .thresh c => Sys2Proof.Machine.execThresh c s
  | .vxGroupWrite c => Sys2Proof.Machine.execVxGroupWrite c s
  | .load c e => Sys2Proof.Machine.execLoad c e s
  | .store c => Sys2Proof.Machine.execStore c s
  | .zero c e => Sys2Proof.Machine.execZero c e s
  | .streamUnitDue c e => Sys2Proof.Machine.execStreamUnitDue c e s
  | .loadCheck c e corrected retried => Sys2Proof.Machine.execLoadCheck c e corrected retried s
  | .storeCheck c corrected retried => Sys2Proof.Machine.execStoreCheck c corrected retried s
  | .streamDataArrival c e issueNo unit => Sys2Proof.Machine.execStreamDataArrival c e issueNo unit s
  | .storeWriteAck c e issueNo unit => Sys2Proof.Machine.execStoreWriteAck c e issueNo unit s
  | .send c => Sys2Proof.Machine.execSend c s
  | .take c => Sys2Proof.Machine.execTake c s
  | .rread c => Sys2Proof.Machine.execRread c s
  | .rwrite c => Sys2Proof.Machine.execRwrite c s
  | .ringOpen c => Sys2Proof.Machine.execRingOpen c s
  | .ringClose c => Sys2Proof.Machine.execRingClose c s
  | .ringReset c => Sys2Proof.Machine.execRingReset c s
  | .reservationHandled p ep => Sys2Proof.Machine.execReservationHandled p ep s
  | .reservationReply p ep => Sys2Proof.Machine.execReservationReply p ep s
  | .flitDelivery p ep => Sys2Proof.Machine.execFlitDelivery p ep s
  | .flitWrite p ep => Sys2Proof.Machine.execFlitWrite p ep s
  | .remoteReadRequest p ep => Sys2Proof.Machine.execRemoteReadRequest p ep s
  | .acknowledgementReceived p ep => Sys2Proof.Machine.execAcknowledgementReceived p ep s
  | .receiveCheck p ep => Sys2Proof.Machine.execReceiveCheck p ep s
  | .flitAtRouter die src lane => Sys2Proof.Machine.execFlitAtRouter die src lane s
  | .flitCrcError die port mem p n again => Sys2Proof.Machine.execFlitCrcError die port mem p n again s
  | .holdWordDisagreement die port => Sys2Proof.Machine.execHoldWordDisagreement die port s
  | .holdStartEffect p => Sys2Proof.Machine.execHoldStartEffect p s
  | .holdEndEffect p => Sys2Proof.Machine.execHoldEndEffect p s
  | .holdTimeout p => Sys2Proof.Machine.execHoldTimeout p s
  | .restartBegin p => Sys2Proof.Machine.execRestartBegin p s
  | .restoreComplete p okA okB => Sys2Proof.Machine.execRestoreComplete p okA okB s
  | .catchUpFrame p => Sys2Proof.Machine.execCatchUpFrame p s
  | .catchUpComplete p => Sys2Proof.Machine.execCatchUpComplete p s
  | .catchUpOverdue p => Sys2Proof.Machine.execCatchUpOverdue p s
  | .checkpointParityPass p => Sys2Proof.Machine.execCheckpointParityPass p s
  | .checkpointCommit p => Sys2Proof.Machine.execCheckpointCommit p s
  | .weightLeafCheck p bad => Sys2Proof.Machine.execWeightLeafCheck p bad s
  | .hbmRead p off errs => Sys2Proof.Machine.execHbmRead p off errs s
  | .hbmWrite c issueNo unit => Sys2Proof.Machine.execHbmWrite c issueNo unit s
  | .refreshWindow stack => Sys2Proof.Machine.execRefreshWindow stack s
  | .selfRefreshEntry slice => Sys2Proof.Machine.execSelfRefreshEntry slice s
  | .patrolScrub pc errs newer => Sys2Proof.Machine.execPatrolScrub pc errs newer s
  | .rowRepair pc row => Sys2Proof.Machine.execRowRepair pc row s
  | .hbmFail pc => Sys2Proof.Machine.execHbmFail pc s
  | .portLinkUp port lanes => Sys2Proof.Machine.execPortLinkUp port lanes s
  | .portLinkDown port lanes => Sys2Proof.Machine.execPortLinkDown port lanes s
  | .ethernetFrame port sub sec frame => Sys2Proof.Machine.execEthernetFrame port sub sec frame s
  | .haulmDataIn port sub msa frame => Sys2Proof.Machine.execHaulmDataIn port sub msa frame s
  | .svAsdu v smpCnt confRev smpSynch values track => Sys2Proof.Machine.execSvAsdu v smpCnt confRev smpSynch values track s
  | .neighborSolicitation port sub target source => Sys2Proof.Machine.execNeighborSolicitation port sub target source s
  | .awnSample samples => Sys2Proof.Machine.execAwnSample samples s
  | .laneEyeMeasurement lane vmin hmin => Sys2Proof.Machine.execLaneEyeMeasurement lane vmin hmin s
  | .laneCharge lane lost => Sys2Proof.Machine.execLaneCharge lane lost s
  | .granarySample watts mean volts i1 i2 draws doms => Sys2Proof.Machine.execGranarySample watts mean volts i1 i2 draws doms s
  | .granaryCycle avgs => Sys2Proof.Machine.execGranaryCycle avgs s
  | .temperatureSample dies stks root edge => Sys2Proof.Machine.execTemperatureSample dies stks root edge s
  | .hotSpotPulse => Sys2Proof.Machine.execHotSpotPulse s
  | .thermalCapAdjust => Sys2Proof.Machine.execThermalCapAdjust s
  | .coreRampGroup p => Sys2Proof.Machine.execCoreRampGroup p s
  | .stookRecordEntry => Sys2Proof.Machine.execStookRecordEntry s
  | .summaryEntryWrite => Sys2Proof.Machine.execSummaryEntryWrite s
  | .logFreezeExpiry => Sys2Proof.Machine.execLogFreezeExpiry s
  | .sessionIdleTimeout => Sys2Proof.Machine.execSessionIdleTimeout s
  | .debugUnlockExpiry => Sys2Proof.Machine.execDebugUnlockExpiry s
  | .rachisLinkUp lanes crossed => Sys2Proof.Machine.execRachisLinkUp lanes crossed s
  | .rachisLinkDown lanes => Sys2Proof.Machine.execRachisLinkDown lanes s
  | .cutFrame counter ok body => Sys2Proof.Machine.execCutFrame counter ok body s
  | .digestFrame counter ok body fault => Sys2Proof.Machine.execDigestFrame counter ok body fault s
  | .digestWaitTimeout p => Sys2Proof.Machine.execDigestWaitTimeout p s
  | .helloBlock body certOk owners classes ss => Sys2Proof.Machine.execHelloBlock body certOk owners classes ss s
  | .stateBlock counter ok body equal => Sys2Proof.Machine.execStateBlock counter ok body equal s
  | .stateBlockSend p => Sys2Proof.Machine.execStateBlockSend p s
  | .seedBlock counter ok body => Sys2Proof.Machine.execSeedBlock counter ok body s
  | .mapBlock counter ok body => Sys2Proof.Machine.execMapBlock counter ok body s
  | .ckptBlock counter ok body => Sys2Proof.Machine.execCkptBlock counter ok body s
  | .journalBlock counter ok body => Sys2Proof.Machine.execJournalBlock counter ok body s
  | .valuesBlock counter ok body => Sys2Proof.Machine.execValuesBlock counter ok body s
  | .constBlock counter ok body => Sys2Proof.Machine.execConstBlock counter ok body s
  | .redigestBlock counter ok body => Sys2Proof.Machine.execRedigestBlock counter ok body s
  | .pairTimeout => Sys2Proof.Machine.execPairTimeout s
  | .functionLevelReset => Sys2Proof.Machine.execFunctionLevelReset s
  | .hotReset => Sys2Proof.Machine.execHotReset s
  | .hostLinkDown => Sys2Proof.Machine.execHostLinkDown s
  | .perstAssert => Sys2Proof.Machine.execPerstAssert s
  | .d3hotEntry => Sys2Proof.Machine.execD3hotEntry s
  | .windowAccess off n wr => Sys2Proof.Machine.execWindowAccess off n wr s
  | .bar0MisalignedAccess write off width => Sys2Proof.Machine.execBar0MisalignedAccess write off width s
  | .mailboxSlotWrite slot off data => Sys2Proof.Machine.execMailboxSlotWrite slot off data s
  | .mbxCtlWrite value => Sys2Proof.Machine.execMbxCtlWrite value s
  | .evtSumRead sideband => Sys2Proof.Machine.execEvtSumRead sideband s
  | .awnCtlLatch unit => Sys2Proof.Machine.execAwnCtlLatch unit s
  | .registerWrite off width value => Sys2Proof.Machine.execRegisterWrite off width value s
  | .managementRestart => Sys2Proof.Machine.execManagementRestart s
  | .managementRestartEnd => Sys2Proof.Machine.execManagementRestartEnd s
  | .identify slot => Sys2Proof.Machine.execIdentify slot s
  | .getState slot => Sys2Proof.Machine.execGetState slot s
  | .serviceEnter slot => Sys2Proof.Machine.execServiceEnter slot s
  | .serviceLeave slot => Sys2Proof.Machine.execServiceLeave slot s
  | .authOwnerSession slot sigOk => Sys2Proof.Machine.execAuthOwnerSession slot sigOk s
  | .authOwnerRecord slot sigOk => Sys2Proof.Machine.execAuthOwnerRecord slot sigOk s
  | .authOwnerPolicy slot sigOk => Sys2Proof.Machine.execAuthOwnerPolicy slot sigOk s
  | .fwStage slot img => Sys2Proof.Machine.execFwStage slot img s
  | .fwActivate slot => Sys2Proof.Machine.execFwActivate slot s
  | .create slot => Sys2Proof.Machine.execCreate slot s
  | .loadProgram slot view => Sys2Proof.Machine.execLoadProgram slot view s
  | .bindPoints slot => Sys2Proof.Machine.execBindPoints slot s
  | .setLaunch slot => Sys2Proof.Machine.execSetLaunch slot s
  | .setLaunchRead slot => Sys2Proof.Machine.execSetLaunchRead slot s
  | .arm slot => Sys2Proof.Machine.execArm slot s
  | .start slot => Sys2Proof.Machine.execStart slot s
  | .stop slot => Sys2Proof.Machine.execStop slot s
  | .replay slot view => Sys2Proof.Machine.execReplay slot view s
  | .replayComplete p => Sys2Proof.Machine.execReplayComplete p s
  | .checkpoint slot => Sys2Proof.Machine.execCheckpoint slot s
  | .setFallbackImage slot view => Sys2Proof.Machine.execSetFallbackImage slot view s
  | .destroy slot => Sys2Proof.Machine.execDestroy slot s
  | .portConfig slot => Sys2Proof.Machine.execPortConfig slot s
  | .portStatus slot => Sys2Proof.Machine.execPortStatus slot s
  | .saInstall slot sak => Sys2Proof.Machine.execSaInstall slot sak s
  | .saActivate slot => Sys2Proof.Machine.execSaActivate slot s
  | .saClear slot => Sys2Proof.Machine.execSaClear slot s
  | .destSet slot => Sys2Proof.Machine.execDestSet slot s
  | .svSubscribe slot => Sys2Proof.Machine.execSvSubscribe slot s
  | .pointRead slot => Sys2Proof.Machine.execPointRead slot s
  | .emitBase slot => Sys2Proof.Machine.execEmitBase slot s
  | .timeConfig slot => Sys2Proof.Machine.execTimeConfig slot s
  | .timeStatus slot => Sys2Proof.Machine.execTimeStatus slot s
  | .timeSet slot => Sys2Proof.Machine.execTimeSet slot s
  | .quote slot => Sys2Proof.Machine.execQuote slot s
  | .quoteCertificate slot => Sys2Proof.Machine.execQuoteCertificate slot s
  | .sidebandQuote addr req => Sys2Proof.Machine.execSidebandQuote addr req s
  | .kemSessionOffer slot => Sys2Proof.Machine.execKemSessionOffer slot s
  | .kemSessionEstablish slot => Sys2Proof.Machine.execKemSessionEstablish slot s
  | .kemSessionClose slot => Sys2Proof.Machine.execKemSessionClose slot s
  | .debugUnlockNonce slot => Sys2Proof.Machine.execDebugUnlockNonce slot s
  | .debugUnlock slot sigOk => Sys2Proof.Machine.execDebugUnlock slot sigOk s
  | .debugRelock slot => Sys2Proof.Machine.execDebugRelock slot s
  | .zeroiseNonce slot => Sys2Proof.Machine.execZeroiseNonce slot s
  | .zeroise slot sigOk => Sys2Proof.Machine.execZeroise slot sigOk s
  | .otpCommit slot => Sys2Proof.Machine.execOtpCommit slot s
  | .calSet slot => Sys2Proof.Machine.execCalSet slot s
  | .otpStatus slot => Sys2Proof.Machine.execOtpStatus slot s
  | .overlaySet slot sigOk => Sys2Proof.Machine.execOverlaySet slot sigOk s
  | .logFreeze slot => Sys2Proof.Machine.execLogFreeze slot s
  | .logRead slot => Sys2Proof.Machine.execLogRead slot s
  | .logThaw slot => Sys2Proof.Machine.execLogThaw slot s
  | .setCap slot => Sys2Proof.Machine.execSetCap slot s
  | .powerStatus slot => Sys2Proof.Machine.execPowerStatus slot s
  | .pairModules slot => Sys2Proof.Machine.execPairModules slot s
  | .pairPartition slot => Sys2Proof.Machine.execPairPartition slot s
  | .unpairPartition slot => Sys2Proof.Machine.execUnpairPartition slot s
  | .unpairModules slot => Sys2Proof.Machine.execUnpairModules slot s
  | .unionMapRead slot => Sys2Proof.Machine.execUnionMapRead slot s
  | .unionMapAdopt slot => Sys2Proof.Machine.execUnionMapAdopt slot s
  | .handover slot layouts differ => Sys2Proof.Machine.execHandover slot layouts differ s
  | .handoverCancel slot => Sys2Proof.Machine.execHandoverCancel slot s
  | .twinStatus slot => Sys2Proof.Machine.execTwinStatus slot s
  | .dbgResume slot => Sys2Proof.Machine.execDbgResume slot s
  | .hostLinkUp => Sys2Proof.Machine.execHostLinkUp s
  | .d3hotExit => Sys2Proof.Machine.execD3hotExit s
  | .virtualSourceGap v => Sys2Proof.Machine.execVirtualSourceGap v s
  | .mbxIrqHoldoffExpiry vector => Sys2Proof.Machine.execMbxIrqHoldoffExpiry vector s
  | .culmCoreSend p culm op => Sys2Proof.Machine.execCulmCoreSend p culm op s

end Sys2Proof.Machine
end

