-- ==== Sys2Proof/Machine/Step.lean ====
section
/-! DEFINITION. The step: the command at the front of the queue, or one tick of the compute clock when none waits (log entry 1). -/

namespace Sys2Proof.Machine

/-- One step of the module: the first command that waits is carried out with the rest of the queue; on an empty queue one cycle of the
compute clock passes (log entry 1). [DESIGN CHOICE log entry 56] -/
def step (s : State) : Host.Outcome State Fault Refusal :=
  match s.pending with
  | [] => .next s.tick
  | i :: rest => exec i { s with pending := rest }

/-- The state with the command that a table word spells put in front. The table gives no row a bit pattern, so no word spells a command. -/
def State.withFetchWord (s : State) (nbits w : Nat) : State :=
  match Sys2Proof.decodeTableWord nbits w with
  | some i => { s with pending := i :: s.pending }
  | none => s

end Sys2Proof.Machine
end

