-- ==== Sys2Proof/Machine/Regs.lean ====
section
/-! DEFINITION. What a read of a BAR0 register gives (R406 to R412, and the register tables of the chapters R411 names). No row of the command
table is a register read that changes nothing; the read is a function of the state. -/

namespace Sys2Proof.Machine

/-- Bits [31:0] and [63:32] of a counter of 64 bits. -/
def lo32 (x : Nat) : Nat := x % 4294967296
def hi32 (x : Nat) : Nat := x / 4294967296 % 4294967296

/-! ### The header of a unit (R411) -/

/-- The partition that holds a unit (R411). [DESIGN CHOICE log entry 23] -/
def State.unitOwner (s : State) (cls i : Nat) : Option Nat :=
  match cls with
  | 1 | 2 | 3 => (List.range Config.nParts).find? fun p => s.holdsUnit p cls i
  | 5 => s.portOwner i
  | 7 => if i < 576 then (s.owner i).map Prod.fst else if 932 ≤ i && i < 944 then s.culmHolder (i - 928) else none
  | 8 => if (s.part i).res.created then some i else none
  | _ => none

/-- UNIT_STAT.HEALTH (R411): 0 in use, 1 healthy and not in use, 2 retired, 3 not fitted. A unit of a class that no partition holds counts as
in use while it is not retired. [DESIGN CHOICE log entry 23] -/
def State.unitHealth (s : State) (cls i : Nat) : Nat :=
  if cls = 3 ∧ s.board.half ∧ 512 ≤ i then 3
  else if s.disabled cls i then 2
  else if cls = 4 ∨ cls = 6 ∨ (s.unitOwner cls i).isSome then 0
  else 1

/-- The header 0x000 to 0x00F of a unit (R411). -/
def State.unitHeader (s : State) (cls i r : Nat) : Nat :=
  match r with
  | 0x000 => i + 16777216 * cls
  | 0x004 => let o := s.unitOwner cls i
    s.unitHealth cls i + 4 * b2n o.isSome + 8 * o.getD 0 + 256 * min (s.charged cls i) 255
  | 0x008 => min (s.chargeLife cls i) 4294967295
  | 0x00C => if cls = 1 then (match s.owner i with | some (_, l) => l | none => 0xFFFF) else 0xFFFF
  | _ => 0

/-! ### Class 0x01: a core (R140, R175, R199, R235, R270, R303) -/

/-- Queue, stall, fault and break registers (R140); the break registers read as their reset values while the module is locked (R138). -/
def Core.queueReg (k : Core) (unlocked : Bool) (r : Nat) : Nat :=
  if 0x100 ≤ r ∧ r < 0x138 then
    let e := (r - 0x100) / 8
    let g := k.eng.getD e {}
    if r % 8 = 0 then (k.entries e).length + 65536 * min (k.seq.pendTo e) 65535 else lo32 g.issued
  else match r with
  | 0x140 => k.flt.wstall
  | 0x144 => k.flt.cause + 256 * k.flt.eng + 65536 * k.flt.tag
  | 0x148 => lo32 k.flt.step
  | 0x14C => hi32 k.flt.step
  | 0x150 => lo32 k.flt.cyc
  | 0x160 => if unlocked then b2n k.flt.brkEn + 2 * k.flt.brkEng + 16 * b2n k.flt.brkMode + 32 * b2n k.flt.brkHit else 0
  | 0x164 => if unlocked then k.flt.brkTag + 65536 * k.flt.brkMask else 0
  | 0x168 => if unlocked then k.flt.brkCount else 0
  | _ => 0

/-- The counters of the matrix array, of conversions and of the vector engine, and MX_STATE (R175, R199, R235). -/
def Core.cntReg (k : Core) (r : Nat) : Nat :=
  if r = 0x190 then k.mx.kind
  else if (0x180 ≤ r ∧ r ≤ 0x18C) ∨ (0x1A0 ≤ r ∧ r ≤ 0x1AC) ∨ (0x1C0 ≤ r ∧ r ≤ 0x1D0) then k.cnt.getD r 0
  else 0

/-- Scoreboard, scratchpad and stream registers (R270). -/
def CoreSp.reg (m : CoreSp) (now r : Nat) : Nat :=
  match r with
  | 0x200 => (sbHeld m.sb now).length + 256 * m.hwm
  | 0x204 => m.fEng + 8 * m.fOwner + 64 * m.fKind + 65536 * m.fTag
  | 0x208 => m.errCnt
  | 0x20C => m.errBank + 256 * m.errUnit
  | 0x210 => m.lateCnt
  | 0x214 => m.lateCc
  | 0x218 => m.poisonIn
  | _ => 0

/-- Channel and ring registers (R303). -/
def CoreCh.reg (h : CoreCh) (r : Nat) : Nat :=
  if 0x220 ≤ r ∧ r < 0x2A0 then
    let c := h.chans.getD ((r - 0x220) / 8) {}
    if r % 8 = 0 then c.sent else c.dropClosed + 65536 * c.dropStale
  else if 0x2A0 ≤ r ∧ r < 0x2E0 then (h.chans.getD ((r - 0x2A0) / 4) {}).wait
  else if 0x2E0 ≤ r ∧ r < 0x3E0 then
    let g := h.rings.getD ((r - 0x2E0) / 8) {}
    if r % 8 = 0 then g.rx else g.epoch + 65536 * b2n g.isOpen + 131072 * (g.stale % 32768)
  else match r with
  | 0x3E0 => h.unread
  | 0x3E4 => h.fRing + 32 * h.fPeer
  | _ => 0

def Core.reg (k : Core) (unlocked : Bool) (now r : Nat) : Nat :=
  if r < 0x180 then k.queueReg unlocked r else if r < 0x200 then k.cntReg r else if r < 0x220 then k.sp.reg now r else k.ch.reg r

/-! ### Classes 0x02 to 0x07 -/

/-- A compute die (R304, R398). -/
def Die.reg (x : Die) (r : Nat) : Nat :=
  match r with
  | 0x100 | 0x104 | 0x108 | 0x10C => let p := (r - 0x100) / 4; x.retryData.getD p 0 + 65536 * x.retryMem.getD p 0
  | 0x110 => x.transit
  | 0x114 => x.collSlot + 256 * x.collSrc + 4096 * x.collLane
  | 0x118 => x.collCnt
  | 0x120 | 0x124 | 0x128 | 0x12C => ofSigned 12 (x.temp.getD ((r - 0x120) / 4) 0)
  | _ => 0

/-- A pseudo-channel (R352); those of stacks that are not fitted read as 0. PC_TEMP is in whole degrees. -/
def State.pcReg (s : State) (i r : Nat) : Nat :=
  if 32 * s.stacks ≤ i then 0 else
  let x := s.pc i
  let o := s.unitOwner 3 i
  match r with
  | 0x100 => x.role + 4 * x.slice + 128 * b2n x.selfref + 256 * b2n (s.hbm.refAll.getD (i / 32) false) + 512 * o.getD 0 + 4096 * b2n o.isSome
  | 0x104 => x.ce
  | 0x108 => x.ue
  | 0x10C => x.lastRow + 16777216 * b2n x.lastUe
  | 0x110 => min x.soft 255 + 256 * min x.hard 255
  | 0x114 => x.late
  | 0x118 => ofSigned 8 (s.hbm.temp.getD (i / 32) 0 / 8)
  | 0x11C => x.passes
  | _ => 0

/-- A lane (R398). -/
def Lane.reg (x : Lane) (r : Nat) : Nat :=
  match r with
  | 0x100 => x.vmin + 65536 * x.hmin
  | 0x104 => b2n x.low
  | 0x108 => x.updates
  | _ => 0

/-- A field port (R383). -/
def State.portReg (s : State) (i r : Nat) : Nat := if r % 4 = 0 ∧ 0x100 ≤ r then (s.portRegs i).getD ((r - 0x100) / 4) 0 else 0

/-- An Awn channel or a virtual source (R397). -/
def State.awnReg (s : State) (i r : Nat) : Nat :=
  let a := s.meas.awn.getD i {}
  let est := fun (f : Estimate → Nat) => match a.latched with | some e => f e | none => 0
  match r with
  | 0x100 => b2n a.nom + 2 * b2n a.en
  | 0x104 => a.state + 4 * b2n a.ovr + 8 * b2n (s.meas.user.getD i calIdentity != calIdentity)
  | 0x110 => est fun e => lo32 e.freq
  | 0x114 => est fun e => hi32 e.freq
  | 0x118 => est fun e => lo32 e.phase
  | 0x11C => est fun e => e.q.getD 3 0
  | 0x120 => est fun e => lo32 e.stamp
  | 0x124 => est fun e => hi32 e.stamp
  | 0x128 => est fun e => e.stamp / 18446744073709551616 % 4294967296
  | 0x130 => a.ovrCnt
  | 0x134 => a.lockCnt
  | _ => 0

/-- The kind of a power domain (R484). -/
def domKind (i : Nat) : Nat :=
  if i < 576 then 0 else if i < 864 then 1 else if i < 896 then 2 else if i < 928 then 3 else if i < 944 then 4
  else if [947, 949, 958, 961].contains i then 6
  else if i = 948 ∨ (950 ≤ i ∧ i ≤ 957) ∨ i = 959 ∨ i = 960 ∨ i = 962 then 7 else 5

/-- A domain never gated (R485): die networks, HBM DRAM, root die logic, Glume, the shared cache, edge die logic, the module time counter and the
host lanes. -/
def domFixed (i : Nat) : Bool := domKind i == 1 || domKind i == 2 || domKind i == 5 || domKind i == 6 || i == 948

/-- A power domain (R498): telemetry of the last sample. -/
def State.domReg (s : State) (i r : Nat) : Nat :=
  let d := s.gran.doms.getD i {}
  match r with
  | 0x100 => d.state + 4 * b2n (domFixed i) + 8 * domKind i
  | 0x104 => d.ma
  | 0x108 => d.mv
  | 0x10C => d.mw
  | 0x110 => lo32 d.uj
  | 0x114 => hi32 d.uj
  | 0x118 => d.imax
  | _ => 0

/-! ### Class 0x08: a partition (R253, R331, R383, R412, R499, R515) -/

/-- State, step count and counters (R412). A field that takes effect at the next frame reads as the value in force. -/
def Part.stateReg (q : Part) (r : Nat) : Nat :=
  match r with
  | 0x100 => q.st.code + 16 * b2n q.res.created + 32 * q.res.floor + 32768 * b2n (!q.slotted) + 65536 * (slicesOf q.res.slices).length
  | 0x104 => b2n q.ctl.learn
  | 0x108 => lo32 q.ctl.stepCount
  | 0x10C => hi32 q.ctl.stepCount
  | 0x110 => q.cnt.frames
  | 0x114 => q.cnt.skip
  | 0x118 => q.cnt.coll
  | 0x11C => q.cnt.throttle
  | 0x120 => q.cnt.overrun
  | 0x124 => q.res.ports + 256 * q.res.culm
  | 0x128 => q.res.slices
  | _ => 0

/-- Grant and profile (R499). -/
def PPwr.reg (w : PPwr) (r : Nat) : Nat :=
  match r with
  | 0x140 => w.grant + 65536 * w.target
  | 0x144 => w.full + 65536 * w.peak
  | 0x148 => w.idle
  | 0x14C => w.tmin
  | 0x150 => w.watts
  | 0x154 => w.pulses
  | _ => 0

/-- Debug, determinism, holds, faults and the bit-identity digest (R253, R331), and the emission count (R383). -/
def Part.detReg (q : Part) (unlocked : Bool) (r : Nat) : Nat :=
  if 0x340 ≤ r ∧ r < 0x360 then (if q.img.image.isSome then fld q.cnt.bir (r - 0x340) 4 else 0)
  else match r with
  | 0x300 => if unlocked then b2n q.ctl.stall else 0
  | 0x304 => b2n q.ctl.dlb
  | 0x310 => q.cnt.holdCnt
  | 0x314 => q.cnt.holdAnn
  | 0x318 => q.cnt.holdCc
  | 0x31C => q.cnt.holdKinds
  | 0x320 => q.cnt.fCause + 256 * q.cnt.fClass + 2048 * q.cnt.fEng + 65536 * q.cnt.fCore
  | 0x324 => lo32 q.cnt.fStep
  | 0x328 => hi32 q.cnt.fStep
  | 0x32C => q.cnt.fPlace
  | 0x360 => lo32 q.cnt.emit
  | 0x364 => hi32 q.cnt.emit
  | _ => 0

/-- Checkpoints, journal, restart and the twin pair (R515, R538). -/
def Part.ckReg (q : Part) (r : Nat) : Nat :=
  let n := if q.ck.newest then q.ck.slotB else q.ck.slotA
  match r with
  | 0x380 => q.ck.periodMs
  | 0x384 => b2n q.ck.slotA.valid + 2 * b2n q.ck.slotB.valid + 4 * b2n q.ck.newest + 8 * b2n q.ck.copying.isSome
  | 0x388 => if n.valid then lo32 n.step else 0
  | 0x38C => if n.valid then hi32 n.step else 0
  | 0x390 => q.journalFill
  | 0x394 => q.ck.restarts
  | 0x398 => q.ck.restartUs
  | 0x3A0 => q.twin.role + 4 * b2n q.twin.tolMode + 8 * b2n q.twin.isolated
  | 0x3A4 => q.twin.isMatch
  | 0x3A8 => q.twin.diverge
  | 0x3AC => q.twin.missing
  | 0x3B0 => q.twin.outTol
  | 0x3B4 => q.twin.solo
  | 0x3B8 => q.twin.cutDiff
  | 0x3BC => q.ck.verifyPasses
  | _ => 0

def Part.reg (q : Part) (unlocked : Bool) (r : Nat) : Nat :=
  if r < 0x140 then q.stateReg r else if r < 0x300 then q.pwr.reg r else if r < 0x380 then q.detReg unlocked r else q.ckReg r

/-! ### The maps -/

/-- The 4 bytes at offset r of a unit (R410, R411); 0 where no unit is named. [DESIGN CHOICE log entry 22] -/
def State.unitReg (s : State) (cls i r : Nat) : Nat :=
  if !unitValid cls i then 0
  else if r < 0x100 then s.unitHeader cls i r
  else match cls with
  | 1 => (s.core i).reg s.debugOn (match s.owner i with | some (p, _) => (s.part p).run.stepCyc | none => 0) r
  | 2 => (s.die i).reg r
  | 3 => s.pcReg i r
  | 4 => (s.lane i).reg r
  | 5 => s.portReg i r
  | 6 => s.awnReg i r
  | 7 => s.domReg i r
  | 8 => (s.part i).reg s.debugOn r
  | _ => 0

/-- The 4 bytes at offset r of the unit that the sideband's own selector names (R410). [DESIGN CHOICE log entry 22] -/
def State.sideUnitReg (s : State) (r : Nat) : Nat := s.unitReg s.host.sideClass s.host.sideIndex r

/-- The mailbox and event registers (R408, R409). -/
def HostIf.reg (h : HostIf) (inflight off : Nat) : Nat :=
  if 0x1100 ≤ off ∧ off < 0x1180 then ((h.done.filter fun n => n / 32 == (off - 0x1100) / 4).map fun n => 2 ^ (n % 32)).sum
  else match off with
  | 0x1000 => b2n h.en + 2 * b2n h.cmplIrq + 4 * b2n h.evtIrq
  | 0x1004 => b2n h.ready + 2 * b2n h.restart + 4 * inflight + 65536 * h.restarts
  | 0x1008 => h.holdoff
  | 0x100C => h.wdrop
  | 0x3000 => h.evtSum
  | 0x3004 => h.evtMask
  | _ => 0

/-- Slots with OWN set (R408). -/
def State.inflight (s : State) : Nat := (s.host.slots.filter fun x => slotOwn x.2).length

/-- The 4 bytes at a BAR0 offset that is a multiple of 4 (R406): an unmapped offset reads 0. [DESIGN CHOICE log entry 22] -/
def State.bar0 (s : State) (off : Nat) : Nat :=
  if off < 0x80 then fld s.identity off 4
  else if 0x1000 ≤ off ∧ off < 0x1180 then s.host.reg s.inflight off
  else if off = 0x2000 then s.usel
  else if 0x2400 ≤ off ∧ off < 0x2800 then s.unitReg s.host.uclass s.host.uindex (off - 0x2400)
  else if 0x3000 ≤ off ∧ off < 0x300C then s.host.reg s.inflight off
  else if 0x10000 ≤ off ∧ off < 0x50000 then fld (s.slot ((off - 0x10000) / 256)) ((off - 0x10000) % 256) 4
  else 0

end Sys2Proof.Machine
end

