-- ==== Sys2Proof/WellFormed.lean ====
section
/-! DEFINITION. Well-formed commands: the operands lie in the ranges that the spec gives the units they name (R14, R43, R90, R107, R271, R411). The
meanings are total; a command that is not well formed names no unit of the module. -/

namespace Sys2Proof

/-- A physical core (R14), a compute die, a partition slot (R43), a mailbox slot (R413). -/
def coreNo (c : Nat) : Bool := decide (c < Config.nCores)
def dieNo (d : Nat) : Bool := decide (d < Config.nDies)
def partNo (p : Nat) : Bool := decide (p < Config.nParts)
def slotNo (n : Nat) : Bool := decide (n < 1024)
/-- An engine (R107); a stream engine: SI0, SI1, SO (R262); the stream-in engines. -/
def engineNo (e : Nat) : Bool := decide (e < 7)
def streamEngine (e : Nat) : Bool := decide (2 ≤ e ∧ e ≤ 4) || e == 6
def loadEngine (e : Nat) : Bool := decide (e = 2 ∨ e = 3)
/-- A field port, its sub-port (R353), a lane (R14), a router's port to a neighbour, a lane of the data network that the slot table rules
(R276), an input of a router as R276 codes it. -/
def portNo (x : Nat) : Bool := decide (x < 8)
def subPort (x : Nat) : Bool := decide (x < 4)
def laneNo (x : Nat) : Bool := decide (x < 48)
def diePort (x : Nat) : Bool := decide (x < 4)
def lane3 (x : Nat) : Bool := decide (x < 4)
def routerInput (x : Nat) : Bool := decide (x < 16)
/-- An endpoint of the data network: a logical core, or a Culm core's from 1,008 (R271). -/
def endpoint (x : Nat) : Bool := decide (x < 512) || decide (1008 ≤ x ∧ x < 1024)
def culmNo (x : Nat) : Bool := decide (x < 12)
/-- An HBM stack, a slice, a pseudo-channel (R14, R335). -/
def stackNo (x : Nat) : Bool := decide (x < 32)
def sliceNo (x : Nat) : Bool := decide (x < 32)
def pcNo (x : Nat) : Bool := decide (x < 1024)
/-- A virtual source (R360), an Awn channel or virtual source by its unit index (R397), a launch entry (R90), a timing or reference input
(R37), a PTP domain (R78), an MSI-X vector of a completion (R413), the address straps (R38). -/
def virtualNo (x : Nat) : Bool := decide (x < 64)
def awnUnit (x : Nat) : Bool := Machine.unitValid 6 x
def entryNo (x : Nat) : Bool := decide (x < 1024)
def timingInput (x : Nat) : Bool := decide (x < 4)
def domainNo (x : Nat) : Bool := decide (x < 128)
def vectorNo (x : Nat) : Bool := decide (1 ≤ x ∧ x ≤ 63)
def strapsOk (x : Nat) : Bool := decide (x < 4)
/-- A mask of the nine rails (R26), a word of the boundary register (R42), a 7-bit SMBus address (R38). -/
def railMask (x : Nat) : Bool := decide (x < 512)
def boundaryWord (x : Nat) : Bool := decide (x < 8192)
def addr7 (x : Nat) : Bool := decide (x < 128)
def word32 (x : Nat) : Bool := decide (x < 4294967296)
/-- A write to a register page (R406). -/
def registerForm (off width : Nat) : Bool := Machine.barAccess true off width && (decide (off < 0x10000) || decide (0x50000 ≤ off))
/-- Bytes of one mailbox slot, of a width and alignment that the slot range takes (R406). -/
def slotBytes (off n : Nat) : Bool := decide (off + n ≤ 256) && Machine.barAccess true (0x10000 + off) n
/-- A window access within 64 aligned bytes (R402, log entry 107). -/
def windowForm (off n : Nat) : Bool := decide (0 < n) && decide (off % 64 + n ≤ 64) && decide (off < 8 * Machine.gib8)
/-- An access that BAR0 does not take (R406). -/
def accessBad (write : Bool) (off width : Nat) : Bool := !Machine.barAccess write off width && decide (width ≤ 64)

/-- A command is well formed: every operand that names a unit names one that the spec gives the module. -/
def Instr.wf : Instr → Bool
  | .powerUp _ _ _ _ _ straps rails => strapsOk straps && railMask rails
  | .measuredBoot _ _ _ => true
  | .chokehusStage bad _ => bad.all fun x => Machine.unitValid x.1 x.2
  | .hbmTraining bad => bad.all pcNo
  | .bootEnd => true
  | .bladeLoss _ _ => true
  | .bladeBudgetRestore => true
  | .powerFail _ => true
  | .powerFailRecord => true
  | .railOutOfRegulation good => railMask good
  | .inputRemoved => true
  | .modrstAssert => true
  | .modrstRelease => true
  | .thermalTrip => true
  | .leakDetected => true
  | .coolantSample _ _ => true
  | .junctionHourlyUpdate => true
  | .timingInputOutOfLimits input => timingInput input
  | .timingInputRestored input => timingInput input
  | .jtagInstruction _ levels shifted => boundaryWord levels && boundaryWord shifted
  | .ppsInEdge => true
  | .ppsOutMark => true
  | .ptpSync port _ _ domain _ _ _ _ _ => portNo port && domainNo domain
  | .ptpFollowUp port _ _ domain _ _ _ => portNo port && domainNo domain
  | .ptpAnnounce port _ _ domain _ _ _ => portNo port && domainNo domain
  | .ptpDelayResp port _ _ domain _ _ _ => portNo port && domainNo domain
  | .ptpPdelayReq port _ domain _ => portNo port && domainNo domain
  | .ptpPdelayResp port _ domain _ _ _ _ _ => portNo port && domainNo domain
  | .ptpDelayReqSend port => portNo port
  | .ptpSyncTimeout port => portNo port
  | .timeMark => true
  | .inputCut entry => entryNo entry
  | .launchDecision p => partNo p
  | .flywheelTimeout src => awnUnit src
  | .guardInstant p => partNo p
  | .emissionWindow p => partNo p
  | .emission p => partNo p
  | .digestFrameSend p => partNo p
  | .timeFrameSend port => portNo port
  | .deadline p => partNo p
  | .stepEndComplete c => coreNo c
  | .stepBarrier p => partNo p
  | .frameEnd p => partNo p
  | .stepTimeout c => coreNo c
  | .flagDeadlock c => coreNo c
  | .fetchDeliveryStart c => coreNo c
  | .fetchInstructionArrival c => coreNo c
  | .fetchCheck c _ _ => coreNo c
  | .sequencerRegionOverrun c => coreNo c
  | .instructionSignalPoint c => coreNo c
  | .scalarResult c => coreNo c
  | .scoreboardRelease c => coreNo c
  | .nop c e => coreNo c && engineNo e
  | .fetch c => coreNo c
  | .qwait c => coreNo c
  | .lds c => coreNo c
  | .sts c => coreNo c
  | .alu c => coreNo c
  | .sysr c => coreNo c
  | .br c => coreNo c
  | .flagSet c => coreNo c
  | .flagAdd c => coreNo c
  | .waitc c => coreNo c
  | .stepEnd c => coreNo c
  | .fault c => coreNo c
  | .mm c => coreNo c
  | .mmContribution c => coreNo c
  | .drain c => coreNo c
  | .drainParamRead c => coreNo c
  | .drainRowRead c => coreNo c
  | .drainRowWrite c => coreNo c
  | .loadAcc c => coreNo c
  | .loadAccRowWrite c => coreNo c
  | .add c => coreNo c
  | .sub c => coreNo c
  | .mul c => coreNo c
  | .mad c => coreNo c
  | .min c => coreNo c
  | .max c => coreNo c
  | .abs c => coreNo c
  | .neg c => coreNo c
  | .cvt c => coreNo c
  | .clamp c => coreNo c
  | .cmpeq c => coreNo c
  | .cmpne c => coreNo c
  | .cmplt c => coreNo c
  | .cmple c => coreNo c
  | .sel c => coreNo c
  | .exp2 c => coreNo c
  | .log2 c => coreNo c
  | .rcp c => coreNo c
  | .rsqrt c => coreNo c
  | .tanh c => coreNo c
  | .rsum c => coreNo c
  | .rmax c => coreNo c
  | .rmin c => coreNo c
  | .rargmax c => coreNo c
  | .softmax c => coreNo c
  | .xadd c => coreNo c
  | .xcvt c => coreNo c
  | .xcvtRecordRead c => coreNo c
  | .thresh c => coreNo c
  | .vxGroupWrite c => coreNo c
  | .load c e => coreNo c && loadEngine e
  | .store c => coreNo c
  | .zero c e => coreNo c && loadEngine e
  | .streamUnitDue c e => coreNo c && decide (2 ≤ e ∧ e ≤ 4)
  | .loadCheck c e _ _ => coreNo c && loadEngine e
  | .storeCheck c _ _ => coreNo c
  | .streamDataArrival c e _ _ => coreNo c && streamEngine e
  | .storeWriteAck c e _ _ => coreNo c && decide (e = 4)
  | .send c => coreNo c
  | .take c => coreNo c
  | .rread c => coreNo c
  | .rwrite c => coreNo c
  | .ringOpen c => coreNo c
  | .ringClose c => coreNo c
  | .ringReset c => coreNo c
  | .reservationHandled p ep => partNo p && endpoint ep
  | .reservationReply p ep => partNo p && endpoint ep
  | .flitDelivery p ep => partNo p && endpoint ep
  | .flitWrite p ep => partNo p && endpoint ep
  | .remoteReadRequest p ep => partNo p && endpoint ep
  | .acknowledgementReceived p ep => partNo p && endpoint ep
  | .receiveCheck p ep => partNo p && endpoint ep
  | .flitAtRouter die src lane => dieNo die && routerInput src && lane3 lane
  | .flitCrcError die port _ p _ _ => dieNo die && diePort port && partNo p
  | .holdWordDisagreement die port => dieNo die && diePort port
  | .holdStartEffect p => partNo p
  | .holdEndEffect p => partNo p
  | .holdTimeout p => partNo p
  | .restartBegin p => partNo p
  | .restoreComplete p _ _ => partNo p
  | .catchUpFrame p => partNo p
  | .catchUpComplete p => partNo p
  | .catchUpOverdue p => partNo p
  | .checkpointParityPass p => partNo p
  | .checkpointCommit p => partNo p
  | .weightLeafCheck p _ => partNo p
  | .hbmRead p _ _ => partNo p
  | .hbmWrite c _ _ => coreNo c
  | .refreshWindow stack => stackNo stack
  | .selfRefreshEntry slice => sliceNo slice
  | .patrolScrub pc _ _ => pcNo pc
  | .rowRepair pc _ => pcNo pc
  | .hbmFail pc => pcNo pc
  | .portLinkUp port lanes => portNo port && decide (lanes < 16)
  | .portLinkDown port lanes => portNo port && decide (lanes < 16)
  | .ethernetFrame port sb _ _ => portNo port && subPort sb
  | .haulmDataIn port sb _ _ => portNo port && subPort sb
  | .svAsdu v _ _ _ _ _ => virtualNo v
  | .neighborSolicitation port sb _ _ => portNo port && subPort sb
  | .awnSample samples => samples.all fun x => decide (x.1 < 12)
  | .laneEyeMeasurement lane _ _ => laneNo lane
  | .laneCharge lane _ => laneNo lane
  | .granarySample _ _ _ _ _ draws doms => (draws.all fun x => partNo x.1) && doms.all fun x => decide (x.dom < 964)
  | .granaryCycle avgs => avgs.all fun x => partNo x.1
  | .temperatureSample dies stks _ _ => (dies.all fun x => dieNo x.1 && decide (x.2.1 < 4)) && stks.all fun x => stackNo x.1
  | .hotSpotPulse => true
  | .thermalCapAdjust => true
  | .coreRampGroup p => partNo p
  | .stookRecordEntry => true
  | .summaryEntryWrite => true
  | .logFreezeExpiry => true
  | .sessionIdleTimeout => true
  | .debugUnlockExpiry => true
  | .rachisLinkUp lanes _ => decide (lanes < 65536)
  | .rachisLinkDown lanes => decide (lanes < 65536)
  | .cutFrame _ _ _ => true
  | .digestFrame _ _ _ _ => true
  | .digestWaitTimeout p => partNo p
  | .helloBlock _ _ _ _ _ => true
  | .stateBlock _ _ _ _ => true
  | .stateBlockSend p => partNo p
  | .seedBlock _ _ _ => true
  | .mapBlock _ _ _ => true
  | .ckptBlock _ _ _ => true
  | .journalBlock _ _ _ => true
  | .valuesBlock _ _ _ => true
  | .constBlock _ _ _ => true
  | .redigestBlock _ _ _ => true
  | .pairTimeout => true
  | .functionLevelReset => true
  | .hotReset => true
  | .hostLinkDown => true
  | .perstAssert => true
  | .d3hotEntry => true
  | .windowAccess off n _ => windowForm off n
  | .bar0MisalignedAccess write off width => accessBad write off width
  | .mailboxSlotWrite slot off data => slotNo slot && slotBytes off data.length
  | .mbxCtlWrite value => word32 value
  | .evtSumRead sideband => sideband.all addr7
  | .awnCtlLatch unit => awnUnit unit
  | .registerWrite off width _ => registerForm off width
  | .managementRestart => true
  | .managementRestartEnd => true
  | .identify slot => slotNo slot
  | .getState slot => slotNo slot
  | .serviceEnter slot => slotNo slot
  | .serviceLeave slot => slotNo slot
  | .authOwnerSession slot _ => slotNo slot
  | .authOwnerRecord slot _ => slotNo slot
  | .authOwnerPolicy slot _ => slotNo slot
  | .fwStage slot _ => slotNo slot
  | .fwActivate slot => slotNo slot
  | .create slot => slotNo slot
  | .loadProgram slot _ => slotNo slot
  | .bindPoints slot => slotNo slot
  | .setLaunch slot => slotNo slot
  | .setLaunchRead slot => slotNo slot
  | .arm slot => slotNo slot
  | .start slot => slotNo slot
  | .stop slot => slotNo slot
  | .replay slot _ => slotNo slot
  | .replayComplete p => partNo p
  | .checkpoint slot => slotNo slot
  | .setFallbackImage slot _ => slotNo slot
  | .destroy slot => slotNo slot
  | .portConfig slot => slotNo slot
  | .portStatus slot => slotNo slot
  | .saInstall slot _ => slotNo slot
  | .saActivate slot => slotNo slot
  | .saClear slot => slotNo slot
  | .destSet slot => slotNo slot
  | .svSubscribe slot => slotNo slot
  | .pointRead slot => slotNo slot
  | .emitBase slot => slotNo slot
  | .timeConfig slot => slotNo slot
  | .timeStatus slot => slotNo slot
  | .timeSet slot => slotNo slot
  | .quote slot => slotNo slot
  | .quoteCertificate slot => slotNo slot
  | .sidebandQuote addr _ => addr7 addr
  | .kemSessionOffer slot => slotNo slot
  | .kemSessionEstablish slot => slotNo slot
  | .kemSessionClose slot => slotNo slot
  | .debugUnlockNonce slot => slotNo slot
  | .debugUnlock slot _ => slotNo slot
  | .debugRelock slot => slotNo slot
  | .zeroiseNonce slot => slotNo slot
  | .zeroise slot _ => slotNo slot
  | .otpCommit slot => slotNo slot
  | .calSet slot => slotNo slot
  | .otpStatus slot => slotNo slot
  | .overlaySet slot _ => slotNo slot
  | .logFreeze slot => slotNo slot
  | .logRead slot => slotNo slot
  | .logThaw slot => slotNo slot
  | .setCap slot => slotNo slot
  | .powerStatus slot => slotNo slot
  | .pairModules slot => slotNo slot
  | .pairPartition slot => slotNo slot
  | .unpairPartition slot => slotNo slot
  | .unpairModules slot => slotNo slot
  | .unionMapRead slot => slotNo slot
  | .unionMapAdopt slot => slotNo slot
  | .handover slot _ _ => slotNo slot
  | .handoverCancel slot => slotNo slot
  | .twinStatus slot => slotNo slot
  | .dbgResume slot => slotNo slot
  | .hostLinkUp => true
  | .d3hotExit => true
  | .virtualSourceGap v => virtualNo v
  | .mbxIrqHoldoffExpiry vector => vectorNo vector
  | .culmCoreSend p culm _ => partNo p && culmNo culm

end Sys2Proof
end

