-- ==== Sys2Proof/Safety.lean ====
section
/-! DEFINITION. What counts as a sound state of the module, in the terms that the statements use. The module never stops: a run is safe when every
state of it is sound. -/

namespace Sys2Proof.Machine

/-- Boot and module state agree (R41, R42, R38, R424, R426): the module state is one of the seven, a boot stage is 4 to 8 and runs in BOOT alone, the
straps are two bits, the TAP holds one of the four instructions. -/
def State.bootSound (s : State) : Prop :=
  s.ctl.mstate ≤ 6 ∧ (s.board.stage = 0 ∨ (4 ≤ s.board.stage ∧ s.board.stage ≤ 8 ∧ s.ctl.mstate = 1)) ∧ s.board.straps < 4 ∧ s.board.tap ≤ 3

/-- Stook's stores stay within their sizes (R6, R442, R444, R447). -/
def State.logSound (s : State) : Prop :=
  s.stook.ingress.length ≤ Config.ingressSize ∧ s.stook.side.length ≤ Config.sideSize ∧ s.stook.log.length ≤ Config.logSize

/-- The memories are in their canonical form (log entry 8): the scratchpad of every core and the HBM of every partition. -/
def State.memSound (s : State) : Prop :=
  (∀ x ∈ s.cores, memWf x.2.sp.mem = true) ∧ ∀ x ∈ s.parts, memWf x.2.img.hbm = true

/-! ### Commands of the mailbox (R413 to R417) -/

/-- The command in slot n is this row's and passes the checks of R416 that do not depend on its arguments: it may begin, its code and form are the
row's, its header is well formed and its TAG distinct, the module state is one of `mstates`, it carries the owner session where the row asks for one, and
its indirect payload, if it has one, is intact. -/
def State.calls (s : State) (n code : Nat) (mstates : List Nat) (owner : Bool) (mine : Bytes → Bool) : Prop :=
  s.mayBegin n = true ∧ slotCode (s.slot n) = code ∧ mine (s.payload (s.slot n)) = true ∧ headerOk (s.slot n) = true ∧ s.tagOk n (s.slot n) = true ∧
  mstates.contains s.mstate = true ∧ (owner = true → s.authOk n (s.slot n) = true) ∧ s.descOk (s.slot n) = none

/-- The partition that a payload names, in a state of a list. -/
def State.callsPart (s : State) (n p : Nat) (l : List PState) : Prop :=
  p < Config.nParts ∧ fld (s.payload (s.slot n)) 0 1 = p ∧ (s.part p).st ∈ l

/-- The state in which a command of the owner session acts: the session's idle time starts again (R468). -/
def State.asOwner (s : State) : State := { s with sec := { s.sec with owner := s.sec.owner.map fun k => { k with last := s.opMs } } }

/-- Mailbox commands of one form, with their code and the module states that allow them: those that carry the owner session. -/
def ownerRow (c : Nat → Instr) (code : Nat) (ms : List Nat) : Prop :=
  (c, code, ms) ∈ [(.fwActivate, 0x0021, [4]), (.portConfig, 0x0201, [3, 4, 5]), (.saActivate, 0x0204, [3, 4, 5]), (.saClear, 0x0205, [3, 4, 5]), (.destSet, 0x0206, [3, 4, 5]),
   (.svSubscribe, 0x0207, [3, 4, 5]), (.timeConfig, 0x0210, [3, 4, 5]), (.timeSet, 0x0212, [3, 4, 5]), (.otpCommit, 0x0401, [4]), (.calSet, 0x0402, [3, 4, 5]),
   (.setCap, 0x0601, [3, 4, 5])]

/-- The same of those that any sender may issue. -/
def openRow (c : Nat → Instr) (code : Nat) (ms : List Nat) : Prop :=
  (c, code, ms) ∈ [(.identify, 0x0001, [2, 3, 4, 5, 6]), (.getState, 0x0002, [2, 3, 4, 5, 6]), (.portStatus, 0x0202, [2, 3, 4, 5]), (.pointRead, 0x0208, [3, 4, 5]),
   (.timeStatus, 0x0211, [2, 3, 4, 5]), (.otpStatus, 0x0403, [2, 3, 4, 5, 6]), (.logFreeze, 0x0501, [2, 3, 4, 5]), (.logRead, 0x0502, [2, 3, 4, 5]),
   (.logThaw, 0x0503, [2, 3, 4, 5]), (.powerStatus, 0x0602, [2, 3, 4, 5]), (.twinStatus, 0x0704, [2, 3, 4, 5])]

/-- The same of the partition commands of one form, which carry the owner session, with the partition states that allow them (R70). -/
def partRow (c : Nat → Instr) (code : Nat) (ms : List Nat) (ps : List PState) : Prop :=
  (c, code, ms, ps) ∈ [(.bindPoints, 0x0103, [3, 5], [.loaded, .armed, .running, .held]), (.arm, 0x0105, [3, 5], [.loaded]), (.start, 0x0106, [3, 5], [.armed]),
   (.stop, 0x0107, [3, 5], [.armed, .running, .held, .restarting, .shadow]), (.checkpoint, 0x0109, [3, 5], [.armed, .running, .held]),
   (.destroy, 0x010B, [3, 4, 5], [.empty, .loaded, .armed, .faulted])]

/-! ### Issue on the compute cores (R107 to R117) -/

/-- The head of engine e of core c is an instruction of this opcode that issues now: it is due and the checks of R542 pass. No break is armed on the core,
debug stall mode is off and the instruction behind it carries no poison; what those add is stated by itself. -/
def State.issues (s : State) (c e op : Nat) (prep : Ctx → Req) (x : Ctx) : Prop :=
  ∃ h, s.issueCtx c e = some (x, h) ∧ wOp h.word = op ∧ dueNow x h (prep x) = true ∧ verdict x h (prep x) = .ok ∧ (s.core c).flt.brkEn = false ∧
    x.q.ctl.stall = false ∧ (e ≠ 6 → ∀ y, ((s.core c).eng.getD e {}).queue.tail.head? = some y → y.poison = false)

/-- What every issue does to its engine (R108, R112, R113, R117): the instruction has left the queue and is counted, the stamp and the occupancy are its
own, a wait has counted one; the other engines of the core and its fault registers, but for the count of delays, are as they were. -/
def State.issuedOn (s t : State) (x : Ctx) (r : Req) : Prop :=
  let g := (s.core x.c).eng.getD x.e {}
  let g' := (t.core x.c).eng.getD x.e {}
  g'.issued = g.issued + 1 ∧ g'.last = some x.now ∧ g'.occ = r.occ ∧ g'.queue = (if x.e = 6 then g.queue else g.queue.tail) ∧
  (∀ n, g'.ccnt.getD n 0 = if wWen x.word = true ∧ n = wWflag x.word then (g.ccnt.getD n 0 + 1) % 4294967296 else g.ccnt.getD n 0) ∧
  (∀ e, e ≠ x.e → (t.core x.c).eng.getD e {} = (s.core x.c).eng.getD e {}) ∧
  (t.core x.c).flt = (if delayed x r then { (s.core x.c).flt with wstall := satAdd (s.core x.c).flt.wstall 1 } else (s.core x.c).flt)

/-- Nothing outside a core of partition p has changed, but for the items of balanceable regions that the partition's cores have claimed (R329). -/
def State.onCore (s t : State) (p c : Nat) : Prop :=
  (∀ d, d ≠ c → t.core d = s.core d) ∧ (∀ r, r ≠ p → t.part r = s.part r) ∧
  t.part p = { s.part p with run := { (s.part p).run with claims := (t.part p).run.claims } } ∧ t = { s with cores := t.cores, parts := t.parts }

/-- An issue that acts on its own core alone. -/
def State.issued (s t : State) (x : Ctx) (r : Req) : Prop := s.issuedOn t x r ∧ s.onCore t x.p x.c

/-- The data of a core is as it was: scratchpad bytes and poison, the matrix array, the flag counts, the sequencer's registers, the channels. -/
def Core.sameData (k k' : Core) : Prop :=
  k'.sp.mem = k.sp.mem ∧ k'.sp.poison = k.sp.poison ∧ k'.mx = k.mx ∧ k'.fcnt = k.fcnt ∧ k'.seq.regs = k.seq.regs ∧ k'.ch = k.ch ∧ k'.cnt = k.cnt

/-- An instruction in flight of an issue. -/
def Core.carries (k : Core) (x : Ctx) (f : Flight) : Prop :=
  f ∈ k.flights ∧ f.eng = x.e ∧ f.op = wOp x.word ∧ f.issueNo = x.issueNo ∧ f.issue = x.now ∧ f.word = x.word

/-- Nothing has been recorded as a fault yet on core c, and no fault stops partition p. -/
def State.faultFree (s : State) (p c : Nat) : Prop := (s.core c).flt.cause = 0 ∧ ∀ h ∈ (s.part p).run.holds, h.kind ≠ 7

/-- Engine e of core c, of partition p, raises a fault (R140, R315, R318): the engine stops, the fault registers of the core and of the partition name it,
the core's snapshot stands in the fault area (R122), a STOP hold is announced and counted, a Stook record offered; no other core and no other partition changes. -/
def State.raises (s t : State) (p c e tag cause : Nat) : Prop :=
  (t.core c).flt.cause = cause ∧ (t.core c).flt.eng = e ∧ (t.core c).flt.tag = tag ∧ (t.core c).flt.step = (s.part p).ctl.stepCount ∧
  (t.core c).flt.cyc = (s.part p).run.stepCyc ∧ ((t.core c).eng.getD e {}).stopped = true ∧ (t.part p).cnt.fCause = cause ∧ (t.part p).cnt.fEng = e ∧
  (t.part p).cnt.fStep = (s.part p).ctl.stepCount ∧
  (t.part p).run.holds = (s.part p).run.holds ++ [⟨7, none, (s.part p).run.logical + 96, none, none, false⟩] ∧
  (t.part p).cnt.holdAnn = satAdd (s.part p).cnt.holdAnn 1 ∧ t.stook.offered = s.stook.offered + 1 ∧ (t.core c).sp.mem = (s.core c).sp.mem ∧
  ((t.part p).img.fault.snaps.get? c).isSome = true ∧
  (∀ d, d ≠ c → t.core d = s.core d) ∧ (∀ r, r ≠ p → t.part r = s.part r) ∧
  t = { s with cores := t.cores, parts := t.parts, stook := t.stook, host := t.host, out := t.out }

/-! ### Values of points -/

/-- What a point holds once a value has been accepted for it (R372): the two newest by stamp. -/
def Point.heldAfter (x : Point) (h : Held) : List Held :=
  match x.held with
  | [] => [h]
  | a :: _ => if a.stamp ≤ h.stamp then [h, a] else x.held

end Sys2Proof.Machine
end

