-- ==== Sys2Proof/Certificates/Slice0/Obligations.lean ====
section
/-! DEFINITION. The statements about the model. Each says what the rules of spec/ say a command does: that it completes with a next state, what that
state holds, and what it leaves as it was (the last clause of each: the next state is the old one but for the fields named). -/

open Sys2Proof Sys2Proof.Machine

/-! ### The queue -/

/-- The block's step: the command at the front of the queue is carried out on the state with the rest of the queue. -/
def Obligations.StepRunsFrontCommand : Prop :=
  ∀ (s : State) (c : Instr) (rest : List Instr), s.pending = c :: rest → step s = exec c { s with pending := rest }

/-- R76, R77, R309: with no command waiting a cycle of 0.4 ns passes (log entry 1: the model's choice). Without the 54 V input nothing changes. With it operating
time counts the cycle, the compute cycle count counts it outside OFF and BOOT; module time that runs goes on by its nominal increment within 100 ppm, and stands
else; a partition's logical cycle counts it but for a held step, its step cycle counts it while a step runs and no hold is in effect. What changes beside are the
networks, cores, dies, partitions and the event records of the faults that they raise. -/
def Obligations.IdleStepIsOneCycle : Prop :=
  (∀ s : State, s.pending = [] → s.board.input = false → step s = .next s) ∧
  ∀ s : State, s.pending = [] → s.board.input = true →
    ∃ t, step s = .next t ∧ t.opTicks = s.opTicks + 1 ∧ t.cc = (if 2 ≤ s.ctl.mstate then s.cc + 1 else s.cc) ∧
      (s.time.runs = false → t.time = s.time) ∧
      (s.time.runs = true → 11258999068 < s.time.count → s.time.count + Config.incNominal ≤ t.time.count + 11258999068 ∧
        t.time.count ≤ s.time.count + Config.incNominal + 11258999068) ∧
      (∀ p, p < 8 → (s.part p).res.created = true →
        (t.part p).run.logical = (if (s.part p).run.held = true ∧ (s.part p).run.stepRun = true then (s.part p).run.logical else (s.part p).run.logical + 1) ∧
        (t.part p).run.stepCyc = (if (s.part p).run.stepRun = true ∧ (s.part p).run.held = false then (s.part p).run.stepCyc + 1 else (s.part p).run.stepCyc)) ∧
      t = { s with opTicks := t.opTicks, cc := t.cc, time := t.time, parts := t.parts, cores := t.cores, dies := t.dies, hbm := t.hbm, stook := t.stook,
                   host := t.host, out := t.out }

/-! ### Supply, reset and boot (01, 14, 16) -/

/-- R23, R25, R26, R38, R40, R426, R463, R464, R497: POWER_UP and the stages of BOOT complete so. POWER_UP of a module that is not OFF changes nothing. From OFF, with both blades, all nine
rails in regulation and no trip to wait out, PWRGD is high, the straps are sampled, and BOOT stands at stage 5 with the power-up counted, or at stage 4 while
MODRST# is low; with a blade missing or a trip to wait out only the pins change; a rail that fails leaves up the rails before it alone. Stage 5 releases Chokehus
on image A if it reads and verifies, else on image B if that does; a part whose keys do not match, or two images that fail, ends BOOT with the error 2 or 1. Stage 6
takes the power-fail records and the working copies away, and disables the cores and pseudo-channels that fail. Stage 7 puts every disabled pseudo-channel out of service. Stage 8 ends with the module LOCKED, module
time running, the cycle count at 0 and the mailbox ready. -/
def Obligations.PowerUpAndBoot : Prop :=
  (∀ (s : State) (pb1 pb2 modrst perst away : Bool) (straps rails : Nat), s.ctl.mstate ≠ 0 → exec (.powerUp pb1 pb2 modrst perst away straps rails) s = .next s) ∧
  (∀ (s : State) (modrst perst away : Bool) (straps rails : Nat), s.ctl.mstate = 0 → (s.board.tripped = false ∨ (away = true ∧ s.board.input = false)) →
    rails % 512 = 511 →
    ∃ t, exec (.powerUp true true modrst perst away straps rails) s = .next t ∧
      t = { s with
        ctl := { s.ctl with mstate := 1 }
        board := { s.board with
          input := true, pb1 := true, pb2 := true, modrst := modrst, perst := perst, tripped := false, rails := 511, pwrgd := true, straps := straps % 4
          stage := if modrst = true then 4 else 5
          pcycle := if modrst = true ∨ s.board.counted = true then s.board.pcycle else s.board.pcycle + 1
          counted := if modrst = true then s.board.counted else true } }) ∧
  (∀ (s : State) (pb1 pb2 modrst perst away : Bool) (straps rails : Nat), s.ctl.mstate = 0 →
    (pb1 = false ∨ pb2 = false ∨ (s.board.tripped = true ∧ (away = false ∨ s.board.input = true))) →
    ∃ t, exec (.powerUp pb1 pb2 modrst perst away straps rails) s = .next t ∧
      t = { s with board := { s.board with
        input := true, pb1 := pb1, pb2 := pb2, modrst := modrst, perst := perst
        tripped := if away = true ∧ s.board.input = false then false else s.board.tripped } }) ∧
  (∀ (s : State) (modrst perst away : Bool) (straps rails k : Nat), s.ctl.mstate = 0 → (s.board.tripped = false ∨ (away = true ∧ s.board.input = false)) →
    k < 9 → rails.testBit k = false → (∀ j, j < k → rails.testBit j = true) →
    ∃ t, exec (.powerUp true true modrst perst away straps rails) s = .next t ∧
      t = { s with board := { s.board with
        input := true, pb1 := true, pb2 := true, modrst := modrst, perst := perst, tripped := false, rails := 2 ^ k - 1, pwrgd := false } }) ∧
  (∀ (s : State) (a b intact : Bool), s.ctl.mstate = 1 → s.board.stage = 5 → s.board.modrst = false → s.board.failing = none → s.sec.dead = false → intact = true →
    ((a = true ∧ s.verifies s.sec.flashA = true) ∨ (b = true ∧ s.verifies s.sec.flashB = true)) →
    ∃ t, exec (.measuredBoot a b intact) s = .next t ∧
      t.sec.fw = (if a = true ∧ s.verifies s.sec.flashA = true then s.sec.flashA else s.sec.flashB) ∧
      t.sec.letter = (if a = true ∧ s.verifies s.sec.flashA = true then 0 else 1) ∧
      t.sec = { s.sec with fw := t.sec.fw, letter := t.sec.letter, meas := t.sec.meas, kemN := s.sec.kemN + 1, sess := [], owner := none, sessN := 0 } ∧
      t.stook.log = [] ∧ t = { s with board := { s.board with stage := 6 }, sec := t.sec, stook := t.stook }) ∧
  (∀ (s : State) (a b intact : Bool), s.ctl.mstate = 1 → s.board.stage = 5 → s.board.modrst = false → s.board.failing = none →
    (s.sec.dead = true ∨ intact = false ∨ ((a = false ∨ s.verifies s.sec.flashA = false) ∧ (b = false ∨ s.verifies s.sec.flashB = false))) →
    ∃ t, exec (.measuredBoot a b intact) s = .next t ∧
      t = { s with
        board := { s.board with stage := 0 }, ctl := { s.ctl with bootErr := if s.sec.dead = true ∨ intact = false then 2 else 1 }
        sec := t.sec, stook := t.stook, otp := t.otp }) ∧
  (∀ (s : State) (bad : List (Nat × Nat)) (copies : Bool), s.inStage 6 = true →
    ∃ t, exec (.chokehusStage bad copies) s = .next t ∧ t.board = { s.board with flash := [], stage := 7 } ∧ t.otp.work = [] ∧ t.ctl.mstate = 1 ∧
      t.sec.ownerLost = !copies ∧ t.meas.user = calRecords (s.otp.inForce 6) ∧
      (∀ u ∈ bad, (u.1 = 1 ∨ u.1 = 3) → t.disabled u.1 u.2 = true) ∧
      (bad = [] → t.stook.offered = s.stook.offered + s.board.flash.length)) ∧
  (∀ (s : State) (bad : List Nat), s.inStage 7 = true →
    ∃ t, exec (.hbmTraining bad) s = .next t ∧ t.board = { s.board with stage := 8 } ∧ t.ctl.mstate = 1 ∧
      (∀ i ∈ bad, t.disabled 3 i = true) ∧ ∀ i, i < 1024 → t.disabled 3 i = true → (t.pc i).role = 3) ∧
  ∀ s : State, s.inStage 8 = true →
    ∃ t, exec .bootEnd s = .next t ∧ t.board.stage = 0 ∧ t.ctl.mstate = 2 ∧ t.time.runs = true ∧ t.cc = 0 ∧ t.host.ready = true

/-- R23, R24, R26, R27, R40, R41, R42, R497: power lost, and reset. POWER_FAIL of a module that is on announces a hold on every created partition and stops the
mailbox; POWER_FAIL_RECORD turns the module off, with a flash record of the cause where Chokehus had started; a temperature at the trip limit begins such a sequence with
cause 5 and marks the trip. PWRGD is high while all nine rails are in regulation. A removed input turns the module off, with every partition, core and session gone, unless a
sequence runs. MODRST_ASSERT leaves a module that is on in BOOT at stage 4 with PWRGD as it was, and a module that is OFF or ZEROISED with MODRST# low alone;
MODRST_RELEASE lets stage 4 go on to stage 5. -/
def Obligations.PowerLossAndReset : Prop :=
  (∀ (s : State) (cause : Nat), s.ctl.mstate ≠ 0 → s.board.failing = none →
    ∃ t, exec (.powerFail cause) s = .next t ∧
      (∀ p, p < 8 → (s.part p).res.created = true →
        (t.part p).run.holds = (s.part p).run.holds ++ [⟨5, none, (s.part p).run.logical + 96, none, none, false⟩]) ∧
      (∀ p, (s.part p).res.created = false → t.part p = s.part p) ∧
      t = { s with board := { s.board with failing := some cause }, host := { s.host with ready := false }, parts := t.parts }) ∧
  (∀ (s : State) (cause : Nat), (s.ctl.mstate = 0 ∨ s.board.failing ≠ none) → exec (.powerFail cause) s = .next s) ∧
  (∀ (s : State) (cause : Nat), s.board.failing = some cause →
    ∃ t, exec .powerFailRecord s = .next t ∧ t.ctl.mstate = 0 ∧ t.board.failing = none ∧ t.board.pwrgd = false ∧ (s.board.rails < 512 → t.board.rails = 0) ∧
      t.parts = [] ∧ t.cores = [] ∧ t.sec.sess = [] ∧ t.sec.owner = none ∧ t.board.input = s.board.input ∧
      t.board.flash = (if s.ctl.bootErr = 0 ∧ (s.board.stage = 0 ∨ 6 ≤ s.board.stage) then s.board.flash ++ [s.failRecord cause] else s.board.flash)) ∧
  (∀ s : State, s.board.failing = none → exec .powerFailRecord s = .next s) ∧
  (∀ s : State, s.alive = true → s.board.failing = none → s.tempAtLeast 115 105 = true →
    ∃ t, exec .thermalTrip s = .next t ∧ t.board = { s.board with failing := some 5, tripped := true } ∧ t.host.ready = false ∧
      (s.otp.summary.length < 512 → t.otp.summary.length = s.otp.summary.length + 1) ∧
      (∀ p, p < 8 → (s.part p).res.created = true →
        (t.part p).run.holds = (s.part p).run.holds ++ [⟨5, none, (s.part p).run.logical + 96, none, none, false⟩]) ∧
      t = { s with board := t.board, host := t.host, parts := t.parts, otp := t.otp, stook := t.stook, out := t.out }) ∧
  (∀ (s : State) (good : Nat), s.ctl.mstate ≠ 0 →
    ∃ t, exec (.railOutOfRegulation good) s = .next t ∧ t.board.pwrgd = decide (good % 512 = 511) ∧
      t = { s with board := { s.board with rails := good % 512, pwrgd := t.board.pwrgd } }) ∧
  (∀ s : State, s.board.failing = none → ∃ t, exec .inputRemoved s = .next t ∧ t.ctl.mstate = 0 ∧ t.board.input = false ∧ t.board.pwrgd = false ∧
      t.parts = [] ∧ t.cores = [] ∧ t.sec.sess = [] ∧ t.sec.owner = none ∧ t.sec.pend = none ∧ t.otp.past = [] ∧ t.otp.work = [] ∧ t.otp.gens = s.otp.gens ∧
      t.units.recs = s.units.recs) ∧
  (∀ (s : State) (cause : Nat), s.board.failing = some cause → exec .inputRemoved s = .next { s with board := { s.board with input := false } }) ∧
  (∀ s : State, s.board.failing = none → s.ctl.mstate ≠ 0 → s.ctl.mstate ≠ 6 → ∃ t, exec .modrstAssert s = .next t ∧ t.ctl.mstate = 1 ∧ t.board.stage = 4 ∧
      t.board.modrst = true ∧ t.board.pwrgd = s.board.pwrgd ∧ t.board.rails = s.board.rails ∧ t.board.straps = s.board.straps ∧ t.parts = [] ∧ t.cores = [] ∧
      t.sec.owner = none) ∧
  (∀ s : State, s.board.failing = none → (s.ctl.mstate = 0 ∨ s.ctl.mstate = 6) →
    exec .modrstAssert s = .next { s with board := { s.board with modrst := true } }) ∧
  (∀ s : State, s.board.failing ≠ none → exec .modrstAssert s = .next s) ∧
  (∀ s : State, s.board.modrst = true → s.ctl.mstate = 1 → s.board.stage = 4 → s.board.failing = none →
    ∃ t, exec .modrstRelease s = .next t ∧
      t = { s with board := { s.board with
        modrst := false, stage := 5, tap := if 2 ≤ s.board.tap then 0 else s.board.tap
        pcycle := if s.board.counted = true then s.board.pcycle else s.board.pcycle + 1, counted := true } }) ∧
  ∀ s : State, (s.board.modrst = false ∨ s.ctl.mstate ≠ 1 ∨ s.board.stage ≠ 4 ∨ s.board.failing ≠ none) →
    exec .modrstRelease s = .next { s with board := { s.board with modrst := false, tap := if 2 ≤ s.board.tap then 0 else s.board.tap } }

/-! ### Power and thermal (01, 17) -/

/-- R22, R30, R31, R33, R39, R392, R486, R489, R492, R493, R496, R498: the supply, the cooling and Granary's telemetry, of a module that is powered and out of
reset. A blade loss announces a POWER hold on every partition with a grant, limits the grants to 9,000 W less the base, offers a record and pulls SMB_ALERT#; the
budget returns with the blades; a leak offers a record and pulls SMB_ALERT#; a coolant sample keeps its readings with the flow estimated from them; an operating
hour enters the long-term average; a ramp goes on by one group. A power sample keeps its readings; one of 16,000 W or more announces a POWER hold on the one
partition with a grant, and one of 15,000 W or less ends the fast-limit holds that have been in effect for 4 us. A cycle announces a hold on the partition whose
average is more than 2 % above its grant, and one within 1 % turns the guard off. Temperatures are kept. A hot spot announces a hold on its partitions. -/
def Obligations.PowerAndCoolingEvents : Prop :=
  (∀ (s : State) (pb1 pb2 : Bool), s.alive = true → s.gran.loss = false →
    ∃ t, exec (.bladeLoss pb1 pb2) s = .next t ∧ t.gran.loss = true ∧ t.gMax ≤ 9000 - s.pBase ∧
      t.board = { s.board with pb1 := pb1, pb2 := pb2, alert := true } ∧ bit t.host.evtSum 3 = true ∧ s.stook.offered < t.stook.offered ∧
      (∀ p, p < 8 → (s.part p).pwr.grant ≠ 0 →
        (t.part p).run.holds = (s.part p).run.holds ++ [⟨4, some (1023, 7, 1), (s.part p).run.logical + 96, none, none, false⟩]) ∧
      t = { s with gran := t.gran, board := t.board, host := t.host, parts := t.parts, stook := t.stook, out := t.out }) ∧
  (∀ (s : State) (pb1 pb2 : Bool), s.alive = true → s.gran.loss = true →
    exec (.bladeLoss pb1 pb2) s = .next { s with board := { s.board with pb1 := pb1, pb2 := pb2 } }) ∧
  (∀ s : State, s.gran.loss = true → ∃ t, exec .bladeBudgetRestore s = .next t ∧ t.gran = { s.gran with loss := false } ∧
      t.board = { s.board with pb1 := true, pb2 := true } ∧
      t = { s with gran := t.gran, board := t.board, parts := t.parts, stook := t.stook, host := t.host, out := t.out }) ∧
  (∀ s : State, s.alive = true → ∃ t, exec .leakDetected s = .next t ∧ t.board = { s.board with alert := true } ∧ bit t.host.evtSum 2 = true ∧
      t.stook.offered = s.stook.offered + 1 ∧ t = { s with board := t.board, host := t.host, stook := t.stook, out := t.out }) ∧
  (∀ (s : State) (inlet outlet : Int), s.alive = true →
    ∃ t, exec (.coolantSample inlet outlet) s = .next t ∧ t.board.inlet = inlet ∧ t.board.outlet = outlet ∧
      t.board.flow = Config.coolantFlow inlet outlet s.gran.power ∧
      (t.board.flow < 2400 ∨ 320 < inlet → s.board.coolWarned = none → t.stook.offered = s.stook.offered + 1) ∧
      (2400 ≤ t.board.flow → inlet ≤ 320 → t = { s with board := t.board }) ∧
      t = { s with board := t.board, host := t.host, stook := t.stook, out := t.out }) ∧
  (∀ (s : State) (m : Int), s.alive = true → s.board.jMax = some m →
    ∃ t, exec .junctionHourlyUpdate s = .next t ∧ t.board.jHours = s.board.jHours + 1 ∧ t.board.jSum = s.board.jSum + m ∧ t.board.jMax = none ∧
      t = { s with board := t.board, host := t.host, stook := t.stook, out := t.out }) ∧
  (∀ s : State, s.board.jMax = none → exec .junctionHourlyUpdate s = .next s) ∧
  (∀ (s : State) (p k : Nat), (s.part p).pwr.ramp = some k →
    ∃ t, exec (.coreRampGroup p) s = .next t ∧ t.part p = { s.part p with pwr := { (s.part p).pwr with ramp := if 63 ≤ k then none else some (k + 1) } } ∧
      (∀ r, r ≠ p → t.part r = s.part r) ∧ t = { s with parts := t.parts }) ∧
  (∀ (s : State) (watts mean volts i1 i2 : Nat) (draws : List (Nat × Nat)) (doms : List DomSample), s.alive = true →
    ∃ t, exec (.granarySample watts mean volts i1 i2 draws doms) s = .next t ∧ t.gran.power = mean ∧ t.gran.volts = volts % 65536 ∧
      t.gran.i1 = i1 % 65536 ∧ t.gran.i2 = i2 % 65536 ∧ t.gran.cap = s.gran.cap ∧
      t = { s with gran := t.gran, parts := t.parts, stook := t.stook, host := t.host, out := t.out }) ∧
  (∀ (s : State) (watts mean volts i1 i2 p : Nat), s.alive = true → s.gran.loss = false → 16000 ≤ watts → p < 8 → (s.part p).pwr.grant ≠ 0 →
    (∀ r, r ≠ p → (s.part r).pwr.grant = 0) →
    ∃ t, exec (.granarySample watts mean volts i1 i2 [] []) s = .next t ∧
      (t.part p).run.holds = (s.part p).run.holds ++ [⟨4, some (1023, 7, 1), (s.part p).run.logical + 96, none, none, false⟩] ∧
      (t.part p).cnt.holdAnn = satAdd (s.part p).cnt.holdAnn 1 ∧ t.gran.lastPulse = some s.opMs ∧ ∀ r, r ≠ p → t.part r = s.part r) ∧
  (∀ (s : State) (watts mean volts i1 i2 : Nat), s.alive = true → s.gran.loss = false → watts ≤ 15000 →
    ∃ t, exec (.granarySample watts mean volts i1 i2 [] []) s = .next t ∧
      (∀ p, p < 8 → ∀ h ∈ (s.part p).run.holds, ∀ b, h.kind = 4 → h.ann = some (1023, 7, 1) → h.began = some b → b + 10000 ≤ s.cc → h.fin = none →
        { h with fin := some (s.cc + 96) } ∈ (t.part p).run.holds) ∧
      t = { s with gran := t.gran, parts := t.parts }) ∧
  (∀ (s : State) (p w : Nat), (s.part p).pwr.grant ≠ 0 → (s.part p).pwr.grant * 102000 < w * 100 → (s.part p).pwr.guardLast = none →
    ∃ t, exec (.granaryCycle [(p, w)]) s = .next t ∧ (t.part p).pwr.guardOn = true ∧
      (t.part p).run.holds = (s.part p).run.holds ++ [⟨4, some (1023, 7, 2), (s.part p).run.logical + 96, none, none, false⟩] ∧
      (∀ r, r ≠ p → t.part r = s.part r) ∧ t = { s with gran := t.gran, parts := t.parts, stook := t.stook, host := t.host, out := t.out }) ∧
  (∀ (s : State) (p w : Nat), ((s.part p).pwr.grant = 0 ∨ w * 100 ≤ (s.part p).pwr.grant * 101000) →
    ∃ t, exec (.granaryCycle [(p, w)]) s = .next t ∧ (t.part p).pwr.guardOn = false ∧ (t.part p).run = (s.part p).run ∧
      (∀ r, r ≠ p → t.part r = s.part r) ∧ t = { s with parts := t.parts }) ∧
  (∀ (s : State) (dies : List (Nat × Nat × Int)) (stks root edge : List (Nat × Int)), s.alive = true →
    ∃ t, exec (.temperatureSample dies stks root edge) s = .next t ∧ t = { s with dies := t.dies, board := t.board, hbm := t.hbm, meas := t.meas }) ∧
  (∀ (s : State) (d k : Nat) (x : Int), s.alive = true → d < 288 → k < 4 →
    ∃ t, exec (.temperatureSample [(d, k, x)] [] [] []) s = .next t ∧ (t.die d).temp.getD k 0 = x ∧ (∀ e, e ≠ d → t.die e = s.die e) ∧
      t.board.jMax = (match s.board.jMax with | some m => some (max m x) | none => some x) ∧ t = { s with dies := t.dies, board := t.board }) ∧
  (∀ (s : State) (k r e : Nat) (x y z : Int), s.alive = true → k < s.stacks → r < 16 → e < 16 →
    ∃ t, exec (.temperatureSample [] [(k, x)] [(r, y)] [(e, z)]) s = .next t ∧ t.hbm.temp.getD k 0 = x ∧ t.meas.root.getD r 0 = y ∧
      t.meas.edge.getD e 0 = z ∧ t = { s with hbm := t.hbm, meas := t.meas }) ∧
  (∀ s : State, s.hotUnits ≠ [] → ∃ t, exec .hotSpotPulse s = .next t ∧ t.gran.hot.map (fun h => (h.1, h.2.1)) = s.hotUnits ∧
      (s.gran.hot = [] → ∀ u ∈ s.hotUnits, ∀ p ∈ s.hotTargets u, ∃ h ∈ (t.part p).run.holds, h.kind = 4 ∧ h.ann = some (1023, 7, 3)) ∧
      t = { s with gran := t.gran, parts := t.parts, stook := t.stook, host := t.host, out := t.out }) ∧
  ∀ s : State, s.hotUnits = [] → exec .hotSpotPulse s = .next { s with gran := { s.gran with hot := [] } }

/-- R495: every 10 ms, while a reading is at or above the derate threshold (100 degrees C for dies, 90 for stacks) the thermal cap falls by 250 W to 6,000 W
at least; while every reading is below the derate end (97 and 87) it rises by 250 W to the grade's highest cap; between the two nothing changes. Besides the
thermal cap only grants and event records change. -/
def Obligations.ThermalCapAdjusts : Prop :=
  (∀ s : State, s.alive = true → s.tempAtLeast 100 90 = true → ∃ t, exec .thermalCapAdjust s = .next t ∧
      t.gran = { s.gran with thermal := max 6000 (s.gran.thermal - 250), derate := true } ∧
      (∀ p, (t.part p).run = (s.part p).run) ∧
      t = { s with gran := t.gran, parts := t.parts, stook := t.stook, host := t.host, out := t.out }) ∧
  (∀ s : State, s.alive = true → s.tempAtLeast 97 87 = false → ∃ t, exec .thermalCapAdjust s = .next t ∧
      t.gran = { s.gran with thermal := min s.capMax (s.gran.thermal + 250), derate := false } ∧
      (∀ p, (t.part p).run = (s.part p).run) ∧
      t = { s with gran := t.gran, parts := t.parts, stook := t.stook, host := t.host, out := t.out }) ∧
  ∀ s : State, s.tempAtLeast 97 87 = true → s.tempAtLeast 100 90 = false → exec .thermalCapAdjust s = .next s

/-! ### Module time (01, 03) -/

/-- R36, R37, R42, R80, R84, R86, R95, R441, R540: the timing inputs, 1PPS, the time mark and the TAP. A 10 MHz or 1PPS input that leaves its limits is dropped as a source,
with a record; a host reference that does takes the host link down; a lane reference that does takes the field and Rachis lanes down, and a paired link that falls
with them isolates its partitions. An input that is back may serve again. A 1PPS edge within 100 ms of a whole second locks the input, one further off unlocks it
with a record (log entry 130: the lock is the model's choice). 1PPS out marks each whole second of module time that it has not marked. A time mark is recorded
every 10 minutes. The TAP keeps BYPASS and IDCODE, and the other two instructions only while MODRST# is low; any other code acts as BYPASS. -/
def Obligations.TimingInputsAndTap : Prop :=
  (∀ s : State, s.alive = true → s.time.tenMhz = true → ∃ t, exec (.timingInputOutOfLimits 0) s = .next t ∧ t.time.tenMhz = false ∧ t.time.freq ≠ 4 ∧
      t.time.count = s.time.count ∧ s.stook.offered < t.stook.offered ∧
      t = { s with time := t.time, free := t.free, stook := t.stook, host := t.host, out := t.out }) ∧
  (∀ s : State, s.alive = true → s.time.ppsIn = true → ∃ t, exec (.timingInputOutOfLimits 1) s = .next t ∧ t.time.ppsIn = false ∧ t.time.ppsLocked = false ∧
      t.time.source ≠ 3 ∧ t.time.count = s.time.count ∧ s.stook.offered < t.stook.offered ∧
      t = { s with time := t.time, free := t.free, stook := t.stook, host := t.host, out := t.out }) ∧
  (∀ s : State, s.alive = true → s.board.hostRefBad = false → ∃ t, exec (.timingInputOutOfLimits 2) s = .next t ∧
      t.board = { s.board with hostRefBad := true } ∧ t.host.link = false ∧ t.stook.offered = s.stook.offered + 1 ∧ (∀ n ∈ s.host.accepted, n ∈ t.host.accepted) ∧
      t = { s with board := t.board, stook := t.stook, host := t.host, out := t.out }) ∧
  (∀ s : State, s.alive = true → s.board.laneRefBad = false → ∃ t, exec (.timingInputOutOfLimits 3) s = .next t ∧
      t.board = { s.board with laneRefBad := true } ∧ t.twin.lanes = 0 ∧ (∀ p, p < 8 → (t.port p).lanes = 0) ∧ s.stook.offered < t.stook.offered ∧
      (s.linkUp = true → s.twin.pair = 2 → ∀ p, p < 8 → (s.part p).twin.role ≠ 0 → (t.part p).twin.isolated = true) ∧
      t = { s with board := t.board, field := t.field, twin := t.twin, parts := t.parts, stook := t.stook, host := t.host, out := t.out }) ∧
  (∀ (s : State) (n : Nat), (s.alive = false ∨ 4 ≤ n ∨ (n = 0 ∧ s.time.tenMhz = false) ∨ (n = 1 ∧ s.time.ppsIn = false) ∨ (n = 2 ∧ s.board.hostRefBad = true) ∨
      (n = 3 ∧ s.board.laneRefBad = true)) → exec (.timingInputOutOfLimits n) s = .next s) ∧
  (∀ s : State, s.alive = true →
    (∃ t, exec (.timingInputRestored 0) s = .next t ∧ t.time.tenMhz = true ∧ (bit (fld s.time.cfg 6 1) 1 = true → t.time.freq = 4) ∧
      t = { s with time := t.time, free := t.free, stook := t.stook, host := t.host, out := t.out }) ∧
    exec (.timingInputRestored 1) s = .next { s with time := { s.time with ppsIn := true } } ∧
    exec (.timingInputRestored 2) s = .next { s with board := { s.board with hostRefBad := false } } ∧
    exec (.timingInputRestored 3) s = .next { s with board := { s.board with laneRefBad := false } }) ∧
  (∀ s : State, s.time.runs = true → s.now % Config.tSec ≤ 131072 → s.time.ppsSec ≠ some (s.now / Config.tSec) →
    exec .ppsOutMark s = .next { s with time := { s.time with ppsSec := some (s.now / Config.tSec) }, out := s.out ++ [⟨10, s.now / Config.tSec, []⟩] }) ∧
  (∀ s : State, (s.time.runs = false ∨ 131072 < s.now % Config.tSec ∨ s.time.ppsSec = some (s.now / Config.tSec)) → exec .ppsOutMark s = .next s) ∧
  (∀ s : State, s.time.runs = true → s.time.lastMark + 1500000000000 ≤ s.opTicks →
    ∃ t, exec .timeMark s = .next t ∧ t.time = { s.time with lastMark := s.opTicks } ∧ t.stook.offered = s.stook.offered + 1 ∧
      t = { s with time := t.time, stook := t.stook, host := t.host, out := t.out }) ∧
  (∀ s : State, s.time.runs = true → s.time.ppsOn = true → s.time.ppsIn = true →
    ∃ t, exec .ppsInEdge s = .next t ∧ t.time.ppsLast = some s.now ∧ t.time.runs = true ∧ t.cores = s.cores ∧
      (s.time.known = true → ((s.now : Int) - nearestSec s.now).natAbs ≤ 6553600000000 → t.time.ppsLocked = true) ∧
      (s.time.known = true → 6553600000000 < ((s.now : Int) - nearestSec s.now).natAbs → t.time.ppsLocked = false ∧ s.stook.offered < t.stook.offered)) ∧
  (∀ s : State, s.time.runs = true → s.time.ppsOn = true → s.time.ppsIn = false → exec .ppsInEdge s = .next (s.eventTrigger 0 0 s.now)) ∧
  (∀ s : State, (s.time.runs = false ∨ s.time.ppsOn = false) → exec .ppsInEdge s = .next s) ∧
  (∀ (s : State) (code levels shifted : Nat), s.board.rails.testBit 0 = true →
    ∃ t, exec (.jtagInstruction code levels shifted) s = .next t ∧
      t.board.tap = (if code ≤ 1 ∨ (s.board.modrst = true ∧ code ≤ 3) then code else 0) ∧
      t.board.bscan = (if 2 ≤ t.board.tap then shifted % 8192 else s.board.bscan) ∧
      t.out = (if code = 1 then s.out ++ [⟨15, 0, natLe 4 idcode⟩] else if 2 ≤ t.board.tap then s.out ++ [⟨15, 1, natLe 2 (s.pins levels)⟩] else s.out) ∧
      t = { s with board := { s.board with tap := t.board.tap, bscan := t.board.bscan }, out := t.out }) ∧
  ∀ (s : State) (code levels shifted : Nat), s.board.rails.testBit 0 = false → exec (.jtagInstruction code levels shifted) s = .next s

/-- R78, R79, R80, R86, R381: PTP, on a port that takes the message. A Sync of the best master gives an offset estimate, at once or with its Follow_Up; the
sixteenth within 250 ns of the first locks the port. An Announce makes its sender a foreign master, and the best where it is alone; of two, the better by the data set is the best (log entry 50: its
order is presumed). A response to the outstanding request gives the path delay. A peer request is answered twice outside an emission window, and not at all in one (log
entry 131: the model's choice). A request is sent with the next sequence number. A lock that no Sync renews is lost. -/
def Obligations.PtpMessages : Prop :=
  (∀ (s : State) (port : Nat) (via : PtpVia) (ident domain seq origin : Nat) (corr : Int) (interval : Nat), s.ptpPort port via domain = true →
    (s.ptp port).best = some ident → 19531250 ≤ interval → interval ≤ 5000000000 →
    (∃ t, exec (.ptpSync port via ident domain seq false origin corr interval) s = .next t ∧ (t.ptp port).t1 = origin ∧ (t.ptp port).t2 = s.now ∧
      (t.ptp port).lastSync = s.opTicks ∧ (t.ptp port).interval = interval ∧
      (t.time.count = s.time.count → (t.ptp port).offset = (s.now : Int) - origin - corr - (s.ptp port).delay) ∧
      ((s.ptp port).locked = false → (s.ptp port).run = 15 → (((s.now : Int) - origin - corr - (s.ptp port).delay) - (s.ptp port).ref).natAbs ≤ 16384000 →
        (t.ptp port).locked = true ∧ t.time.known = true) ∧
      t.parts = s.parts ∧ t.cores = s.cores) ∧
    ∃ t, exec (.ptpSync port via ident domain seq true origin corr interval) s = .next t ∧ (t.ptp port).pending = some seq ∧ (t.ptp port).pendT = s.now ∧
      (t.ptp port).pendC = corr ∧ (t.ptp port).locked = (s.ptp port).locked ∧ t = { s with time := t.time }) ∧
  (∀ (s : State) (port : Nat) (via : PtpVia) (ident domain seq origin : Nat) (corr : Int), s.ptpPort port via domain = true →
    (s.ptp port).best = some ident → (s.ptp port).pending = some seq →
    ∃ t, exec (.ptpFollowUp port via ident domain seq origin corr) s = .next t ∧ (t.ptp port).pending = none ∧ (t.ptp port).t1 = origin ∧
      (t.ptp port).t2 = (s.ptp port).pendT ∧ (t.ptp port).lastSync = s.opTicks ∧
      (t.time.count = s.time.count → (t.ptp port).offset = ((s.ptp port).pendT : Int) - origin - ((s.ptp port).pendC + corr) - (s.ptp port).delay) ∧
      t.parts = s.parts ∧ t.cores = s.cores) ∧
  (∀ (s : State) (port : Nat) (via : PtpVia) (ident domain : Nat) (ds : Dataset) (interval : Nat) (utc : Option Int), s.ptpPort port via domain = true →
    (s.ptp port).masters = [] →
    ∃ t, exec (.ptpAnnounce port via ident domain ds interval utc) s = .next t ∧ (t.ptp port).best = some ident ∧
      (t.ptp port).masters = [⟨ident, ds, s.opTicks⟩] ∧ t = { s with time := t.time, free := t.free, stook := t.stook, host := t.host, out := t.out }) ∧
  (∀ (s : State) (port : Nat) (via : PtpVia) (ident domain : Nat) (ds : Dataset) (interval : Nat) (utc : Option Int) (m : Master),
    s.ptpPort port via domain = true → (s.ptp port).masters = [m] → m.ident ≠ ident → s.opTicks ≤ m.last + 3 * interval →
    ∃ t, exec (.ptpAnnounce port via ident domain ds interval utc) s = .next t ∧
      (t.ptp port).best = some (if dsBetter ds m.ds = true then ident else m.ident) ∧ (t.ptp port).masters = [m, ⟨ident, ds, s.opTicks⟩]) ∧
  (∀ (s : State) (port : Nat) (via : PtpVia) (ident domain seq receipt : Nat) (corr : Int), s.ptpPort port via domain = true → s.time.peerMode = false →
    (s.ptp port).best = some ident → (s.ptp port).asked = true → (s.ptp port).reqSeq = seq → (s.ptp port).t2 ≠ 0 →
    ∃ t, exec (.ptpDelayResp port via ident domain seq receipt corr) s = .next t ∧ (t.ptp port).asked = false ∧
      (t.ptp port).delay = ((((s.ptp port).t2 : Int) - (s.ptp port).t1) + ((receipt : Int) - (s.ptp port).reqT) - corr) / 2 ∧
      t = { s with time := t.time }) ∧
  (∀ (s : State) (port : Nat) (via : PtpVia) (domain seq : Nat), s.ptpPort port via domain = true → s.time.peerMode = true → s.inWindow port = false →
    ∃ t, exec (.ptpPdelayReq port via domain seq) s = .next t ∧
      ((s.port port).isUp 0 = true → bit (fld ((s.port port).subCfg 0) 3 1) 0 = false → t.out.length = s.out.length + 2) ∧
      t = { s with field := t.field, stook := t.stook, host := t.host, out := t.out }) ∧
  (∀ (s : State) (port : Nat) (via : PtpVia) (domain seq : Nat), s.inWindow port = true → exec (.ptpPdelayReq port via domain seq) s = .next s) ∧
  (∀ (s : State) (port : Nat) (via : PtpVia) (domain seq stamp : Nat) (corr : Int), s.ptpPort port via domain = true → s.time.peerMode = true →
    (s.ptp port).asked = true → (s.ptp port).reqSeq = seq →
    (∃ t, exec (.ptpPdelayResp port via domain seq false true stamp corr) s = .next t ∧ (t.ptp port).asked = false ∧
      (t.ptp port).delay = ((s.now : Int) - (s.ptp port).reqT - corr) / 2 ∧ t = { s with time := t.time }) ∧
    (∃ t, exec (.ptpPdelayResp port via domain seq false false stamp corr) s = .next t ∧ (t.ptp port).peer = some (stamp, s.now) ∧
      (t.ptp port).asked = true ∧ t = { s with time := t.time }) ∧
    ∀ t2 t4, (s.ptp port).peer = some (t2, t4) → ∀ oneStep,
      ∃ t, exec (.ptpPdelayResp port via domain seq true oneStep stamp corr) s = .next t ∧ (t.ptp port).asked = false ∧
        (t.ptp port).delay = (((t4 : Int) - (s.ptp port).reqT) - ((stamp : Int) - t2) - corr) / 2 ∧ t = { s with time := t.time }) ∧
  (∀ (s : State) (port : Nat), s.ptpHere port = true → s.inWindow port = false →
    ∃ t, exec (.ptpDelayReqSend port) s = .next t ∧ (t.ptp port).asked = true ∧ (t.ptp port).reqSeq = ((s.ptp port).reqSeq + 1) % 65536 ∧
      (t.ptp port).reqT = s.now ∧ (t.ptp port).delay = (s.ptp port).delay ∧
      t = { s with time := t.time, field := t.field, out := t.out, stook := t.stook, host := t.host }) ∧
  ∀ (s : State) (port : Nat), (s.ptp port).locked = true → (s.ptp port).lastSync + max (4 * (s.ptp port).interval) 5000000000 ≤ s.opTicks →
    ∃ t, exec (.ptpSyncTimeout port) s = .next t ∧ (t.ptp port).locked = false ∧ (t.ptp port).run = 0 ∧ t.time.count = s.time.count ∧
      t = { s with time := t.time, free := t.free, stook := t.stook, host := t.host, out := t.out }

/-! ### Launches, emissions and frames (03, 12) -/

/-- R91, R94, R95, R100, R371, R373: an input cut. Once the cut of an entry's next trigger has come, the trigger waits for its launch instant; a partition in any
state but FAULTED assembles the input part at the cut, pending point changes applied, into a buffer that is free; a FAULTED one assembles nothing; before the cut nothing
changes. Two seconds of FLYWHEEL without lock unlock a source, with one record where a PHASE entry uses it. -/
def Obligations.InputCutAssembles : Prop :=
  (∀ (s : State) (i t k : Nat), (s.lte i).owned = true → ((s.lte i).en = true ∨ (s.lte i).trig = 2) → s.time.runs = true → s.nextTrigger i = some (t, k) →
    (s.lte i).cutAt t ≤ s.now → ((s.part (s.lte i).part).st = .running ∨ (s.part (s.lte i).part).st = .held) →
    (s.part (s.lte i).part).twin.role = 0 →
    ∃ u g, exec (.inputCut i) s = .next u ∧ g.entry = i ∧ g.at_ = t ∧ g.cut = (s.lte i).cutAt t ∧ g.launch = (s.lte i).launchAt t ∧ g.suppressed = false ∧
      (u.part (s.lte i).part).run.triggers = (s.part (s.lte i).part).run.triggers ++ [g] ∧
      g.buf = (s.part (s.lte i).part).run.freeBuf ∧
      g.data = ((s.applyPoints (s.lte i).part ((s.lte i).launchAt t + (s.lte i).emitOfs * 65536)).assemble (s.lte i).part ((s.lte i).cutAt t)).1 ∧
      (u.part (s.lte i).part).run.buf0 = (if g.buf = some 0 then g.data else (s.part (s.lte i).part).run.buf0) ∧
      (u.part (s.lte i).part).run.buf1 = (if g.buf = some 1 then g.data else (s.part (s.lte i).part).run.buf1) ∧
      (∀ r, r ≠ (s.lte i).part → u.part r = s.part r) ∧ (∀ j, j ≠ i → u.lte j = s.lte j) ∧
      u = { s with parts := u.parts, ltes := u.ltes, field := u.field }) ∧
  (∀ (s : State) (i t k : Nat), (s.lte i).owned = true → ((s.lte i).en = true ∨ (s.lte i).trig = 2) → s.time.runs = true → s.nextTrigger i = some (t, k) →
    (s.lte i).cutAt t ≤ s.now → (s.part (s.lte i).part).st.triggers = true → (s.part (s.lte i).part).st ≠ .faulted →
    ∃ u g, exec (.inputCut i) s = .next u ∧ g.entry = i ∧ g.at_ = t ∧ g.cut = (s.lte i).cutAt t ∧ g.launch = (s.lte i).launchAt t ∧ g.suppressed = false ∧
      (u.part (s.lte i).part).run.triggers = (s.part (s.lte i).part).run.triggers ++ [g] ∧ (∀ r, r ≠ (s.lte i).part → u.part r = s.part r) ∧
      (∀ j, j ≠ i → u.lte j = s.lte j) ∧ u.cores = s.cores) ∧
  (∀ (s : State) (i t k : Nat), (s.lte i).owned = true → ((s.lte i).en = true ∨ (s.lte i).trig = 2) → s.time.runs = true → s.nextTrigger i = some (t, k) →
    (s.lte i).cutAt t ≤ s.now → (s.part (s.lte i).part).st = .faulted →
    ∃ u, exec (.inputCut i) s = .next u ∧ (u.part (s.lte i).part).run.triggers =
        (s.part (s.lte i).part).run.triggers ++ [⟨i, t, (s.lte i).cutAt t, (s.lte i).launchAt t, none, false, [], 0⟩] ∧
      (u.part (s.lte i).part).run.buf0 = (s.part (s.lte i).part).run.buf0 ∧ (u.part (s.lte i).part).run.buf1 = (s.part (s.lte i).part).run.buf1 ∧
      u = { s with parts := u.parts, ltes := u.ltes, field := u.field }) ∧
  (∀ (s : State) (i : Nat), (∀ t k, s.nextTrigger i = some (t, k) → s.now < (s.lte i).cutAt t) → exec (.inputCut i) s = .next s) ∧
  (∀ (s : State) (src : Nat), (s.awn src).state = 3 → (s.awn src).flySince + 5000000000 ≤ s.opTicks →
    ∃ u, exec (.flywheelTimeout src) s = .next u ∧ (u.awn src).state = 0 ∧ (u.awn src).est = (s.awn src).est ∧ (∀ r, r ≠ src → u.awn r = s.awn r) ∧
      u.stook.offered = (if s.phaseUse src = true ∧ (s.awn src).flyTold = false then s.stook.offered + 1 else s.stook.offered) ∧
      u = { s with meas := u.meas, stook := u.stook, host := u.host, out := u.out }) ∧
  ∀ (s : State) (src : Nat), ((s.awn src).state ≠ 3 ∨ s.opTicks < (s.awn src).flySince + 5000000000) → exec (.flywheelTimeout src) s = .next s

/-- R61, R67, R90, R99, R100, R106: the decision for one trigger that has fallen due and has a lock where it needs one. In a RUNNING partition without a partner and without a STOP,
with no frame running, its cut taken, room in the journal and T_min past, the frame launches: it is journalled and counted, and its guard instant, emission
and deadline follow from the entry's offsets. With a frame running the launch is skipped, before T_min it is throttled; both emit at their instant all the
same. A FAULTED partition only emits. Before the launch instant nothing changes. A ONCE entry is disabled at its trigger. -/
def Obligations.LaunchDecided : Prop :=
  (∀ (s : State) (p : Nat) (g : Trigger) (im : Image), (s.part p).st = .running → (s.part p).twin.role = 0 → (s.part p).ctl.stop = [] →
    (s.part p).run.triggers = [g] → s.time.runs = true → g.launch ≤ s.now → g.suppressed = false →
    ((s.lte g.entry).trig = 1 → s.noLock (s.lte g.entry).src = false) → (s.lte g.entry).once = false →
    (s.part p).run.frame = none → g.buf.isSome = true → (s.part p).throttled g.launch = false → s.journalRoom p g.data = true →
    (s.part p).img.image = some im →
    ∃ u f, exec (.launchDecision p) s = .next u ∧ (u.part p).run.frame = some f ∧ f.entry = g.entry ∧ f.ept = (s.lte g.entry).ept ∧ f.cut = g.cut ∧
      f.launch = g.launch ∧ f.emitT = g.launch + (s.lte g.entry).emitOfs * 65536 ∧ f.guardT = f.emitT - 1000 * 65536 ∧
      f.deadline = g.launch + (s.lte g.entry).deadlineOfs * 65536 ∧ f.step0 = (s.part p).ctl.stepCount ∧ f.idx = 0 ∧ f.rerun = false ∧
      f.learn = (s.part p).ctl.learnP.getD (s.part p).ctl.learn ∧ (u.part p).run.triggers = [] ∧
      (u.part p).run.emits.length = (s.part p).run.emits.length + 1 ∧
      (u.part p).ck.journalN = (s.part p).ck.journalN + 1 ∧ (u.part p).ck.journal.length = (s.part p).ck.journal.length + 1 ∧
      (u.part p).ctl.lastLaunch = some g.launch ∧ (u.part p).cnt = { (s.part p).cnt with frames := satAdd (s.part p).cnt.frames 1, coll := satAdd (s.part p).cnt.coll 0 } ∧
      (u.lte g.entry).fired = (s.lte g.entry).fired + 1 ∧
      ((s.part p).ctl.lteP = [] → (∀ j, j ≠ g.entry → u.lte j = s.lte j) ∧ (∀ r, r ≠ p → u.part r = s.part r) ∧
        u = { s with parts := u.parts, cores := u.cores, ltes := u.ltes, hbm := u.hbm }) ∧
      u = { s with parts := u.parts, cores := u.cores, ltes := u.ltes, hbm := u.hbm, stook := u.stook, host := u.host, out := u.out }) ∧
  (∀ (s : State) (p : Nat) (g : Trigger) (f : Frame), (s.part p).st = .running → (s.part p).twin.role = 0 → (s.part p).run.triggers = [g] →
    s.time.runs = true → g.launch ≤ s.now → g.suppressed = false →
    ((s.lte g.entry).trig = 1 → s.noLock (s.lte g.entry).src = false) → (s.lte g.entry).once = false →
    (s.part p).run.frame = some f → (s.part p).ck.reserve < 16383 →
    ∃ u, exec (.launchDecision p) s = .next u ∧ (u.part p).run.frame = some f ∧ (u.part p).run.triggers = [] ∧
      (u.part p).run.emits.length = (s.part p).run.emits.length + 1 ∧
      (u.part p).cnt = { (s.part p).cnt with skip := satAdd (s.part p).cnt.skip 1, coll := satAdd (s.part p).cnt.coll 0 } ∧
      (u.part p).ck.journalN = (s.part p).ck.journalN + 1 ∧ (∀ r, r ≠ p → u.part r = s.part r) ∧ u.stook.offered = s.stook.offered + 1 ∧
      u = { s with parts := u.parts, ltes := u.ltes, hbm := u.hbm, stook := u.stook, host := u.host, out := u.out }) ∧
  (∀ (s : State) (p : Nat) (g : Trigger), (s.part p).st = .running → (s.part p).twin.role = 0 → (s.part p).ctl.stop = [] →
    (s.part p).run.triggers = [g] → s.time.runs = true → g.launch ≤ s.now → g.suppressed = false →
    ((s.lte g.entry).trig = 1 → s.noLock (s.lte g.entry).src = false) → (s.lte g.entry).once = false →
    (s.part p).run.frame = none → g.buf.isSome = true → (s.part p).throttled g.launch = true → (s.part p).ck.reserve < 16383 → (s.part p).ctl.lteP = [] →
    ∃ u, exec (.launchDecision p) s = .next u ∧ (u.part p).run.frame = none ∧ (u.part p).run.triggers = [] ∧
      (u.part p).run.emits.length = (s.part p).run.emits.length + 1 ∧
      (u.part p).cnt = { (s.part p).cnt with throttle := satAdd (s.part p).cnt.throttle 1, coll := satAdd (s.part p).cnt.coll 0 } ∧
      (u.part p).ctl.lastLaunch = (s.part p).ctl.lastLaunch ∧ (∀ r, r ≠ p → u.part r = s.part r) ∧
      u = { s with parts := u.parts, ltes := u.ltes, hbm := u.hbm, stook := u.stook, host := u.host, out := u.out }) ∧
  (∀ (s : State) (p : Nat) (g : Trigger), (s.part p).st = .faulted → (s.part p).run.triggers = [g] → s.time.runs = true → g.launch ≤ s.now →
    (s.part p).ctl.lteP = [] →
    ∃ u, exec (.launchDecision p) s = .next u ∧ (u.part p).run.frame = (s.part p).run.frame ∧ (u.part p).run.triggers = [] ∧
      (u.part p).run.emits.length = (s.part p).run.emits.length + 1 ∧ (u.part p).ck = (s.part p).ck ∧ (u.part p).cnt.frames = (s.part p).cnt.frames ∧
      (∀ r, r ≠ p → u.part r = s.part r) ∧ u = { s with parts := u.parts, ltes := u.ltes }) ∧
  (∀ (s : State) (p : Nat), (∀ g ∈ (s.part p).run.triggers, s.now < g.launch) → exec (.launchDecision p) s = .next s) ∧
  ∀ (s : State) (p : Nat) (g : Trigger), (s.part p).run.triggers = [g] → s.time.runs = true → g.launch ≤ s.now → (s.lte g.entry).once = true →
    (s.lte g.entry).trig ≠ 2 → (s.part p).ctl.lteP = [] → ∃ u, exec (.launchDecision p) s = .next u ∧ (u.lte g.entry).en = false

/-- R62, R101, R102, R377, R380, R381: the instants after a launch. The guard takes the output part if the inference step has ended and no break holds the
partition, and otherwise nothing; the emission window opens 2 us before E; at E what was taken is emitted under the next number, or fallback values where
none was taken, which the entry counts; an emission whose inference step still runs waits for its late values; a frame that has not ended at its deadline is an overrun, once, with a record. Before its instant each changes nothing. -/
def Obligations.EmissionInstants : Prop :=
  (∀ (s : State) (p : Nat) (e : Emit), (s.part p).run.emits = [e] → e.took = none → e.guardT ≤ s.now → s.outputReady p e = true →
    (s.part p).run.byBreak = false →
    ∃ u, exec (.guardInstant p) s = .next u ∧ (u.part p).run.emits = [{ e with took := some true, vals := s.outputPart p }] ∧
      (u.part p).run.frame = (s.part p).run.frame ∧ (∀ r, r ≠ p → u.part r = s.part r) ∧ u = { s with parts := u.parts, hbm := u.hbm }) ∧
  (∀ (s : State) (p : Nat) (e : Emit), (s.part p).run.emits = [e] → e.took = none → e.guardT ≤ s.now →
    (s.outputReady p e = false ∨ (s.part p).run.byBreak = true) →
    ∃ u, exec (.guardInstant p) s = .next u ∧ (u.part p).run.emits = [{ e with took := some false, vals := [] }] ∧
      (∀ r, r ≠ p → u.part r = s.part r) ∧ u = { s with parts := u.parts }) ∧
  (∀ (s : State) (p : Nat), (∀ e ∈ (s.part p).run.emits, e.took ≠ none ∨ s.now < e.guardT) → exec (.guardInstant p) s = .next s) ∧
  (∀ (s : State) (p : Nat) (e : Emit), (s.part p).run.emits = [e] → e.emitted = false → e.window = false → e.emitT ≤ s.now + 2000 * 65536 →
    ∃ u, exec (.emissionWindow p) s = .next u ∧ (u.part p).run.emits = [{ e with window := true }] ∧
      (∀ port, s.portOwner port = some p → u.inWindow port = true) ∧ (∀ r, r ≠ p → u.part r = s.part r) ∧ u = { s with parts := u.parts }) ∧
  (∀ (s : State) (p : Nat), (∀ e ∈ (s.part p).run.emits, s.now + 2000 * 65536 < e.emitT) → exec (.emissionWindow p) s = .next s) ∧
  (∀ (s : State) (p : Nat) (e : Emit), (s.part p).run.emits = [e] → e.emitted = false → e.emitT ≤ s.now → e.took = some true →
    ((s.part p).st = .running ∨ (s.part p).st = .held) → (s.part p).twin.role = 0 → (s.part p).twin.tolMode = false → (s.part p).twin.emitP = none →
    ∃ u, exec (.emission p) s = .next u ∧ (u.part p).run.emits = [] ∧ (u.part p).cnt = { (s.part p).cnt with emit := ((s.part p).cnt.emit + 1) % 2 ^ 64 } ∧
      (∀ r, r ≠ p → u.part r = s.part r) ∧
      u.out = ((s.applyOutputs p e.emitT).emitAll p { e with
        seq := (s.part p).cnt.emit, emitted := true
        lasts := ((s.applyOutputs p e.emitT).pointsOf p true).map fun x => (x.1, if x.2.hasL = true then some x.2.lastVal else none) }
        (some e.vals) none fun _ => true).1.out ∧
      u = { s with parts := u.parts, ltes := u.ltes, field := u.field, out := u.out, stook := u.stook, host := u.host }) ∧
  (∀ (s : State) (p : Nat) (e : Emit), (s.part p).run.emits = [e] → e.emitted = false → e.emitT ≤ s.now → e.took = some false → e.launched = false →
    (s.part p).twin.tolMode = false → (s.part p).twin.emitP = none →
    ∃ u, exec (.emission p) s = .next u ∧ (u.part p).run.emits = [] ∧ (u.part p).cnt.emit = ((s.part p).cnt.emit + 1) % 2 ^ 64 ∧
      (u.lte e.entry).fallbacks = satAdd (s.lte e.entry).fallbacks 1 ∧ (∀ j, j ≠ e.entry → u.lte j = s.lte j) ∧
      u.out = ((s.applyOutputs p e.emitT).emitAll p { e with
        seq := (s.part p).cnt.emit, emitted := true
        lasts := ((s.applyOutputs p e.emitT).pointsOf p true).map fun x => (x.1, if x.2.hasL = true then some x.2.lastVal else none) }
        none none fun _ => true).1.out) ∧
  (∀ (s : State) (p : Nat) (e : Emit) (f : Frame), (s.part p).run.emits = [e] → e.emitted = false → e.emitT ≤ s.now → e.took = some false →
    e.launched = true → e.ofFrame (s.part p).run = true → (s.part p).run.frame = some f → f.infDone = false → (s.part p).twin.tolMode = false →
    (s.part p).twin.emitP = none →
    ∃ u e', exec (.emission p) s = .next u ∧ (u.part p).run.emits = [e'] ∧ e'.emitted = true ∧ e'.seq = (s.part p).cnt.emit ∧
      e' = { e with seq := e'.seq, emitted := true, lasts := e'.lasts } ∧ (u.lte e.entry).fallbacks = satAdd (s.lte e.entry).fallbacks 1) ∧
  (∀ (s : State) (p : Nat), (∀ e ∈ (s.part p).run.emits, e.emitted = true ∨ s.now < e.emitT) → exec (.emission p) s = .next s) ∧
  (∀ (s : State) (p : Nat) (f : Frame), (s.part p).run.frame = some f → f.overrun = false → f.rerun = false → f.deadline ≤ s.now →
    ∃ u, exec (.deadline p) s = .next u ∧ (u.part p).run.frame = some { f with overrun := true } ∧
      (u.part p).cnt = { (s.part p).cnt with overrun := satAdd (s.part p).cnt.overrun 1 } ∧ (∀ r, r ≠ p → u.part r = s.part r) ∧
      u.stook.offered = s.stook.offered + 1 ∧ u = { s with parts := u.parts, stook := u.stook, host := u.host, out := u.out }) ∧
  ∀ (s : State) (p : Nat), (∀ f, (s.part p).run.frame = some f → f.overrun = true ∨ f.rerun = true ∨ s.now < f.deadline) → exec (.deadline p) s = .next s

/-- R364, R368, R381: DIGEST and TIME frames. A DIGEST frame that waits is taken from the queue outside an emission window, and leaves on an up direct-lane port of its
partition that asks for it and does not require MACsec; in a window, and where none waits, nothing changes. A TIME frame leaves on an up direct-lane port that asks for it once in each whole second. -/
def Obligations.DigestAndTimeFrames : Prop :=
  (∀ (s : State) (p : Nat) (d : Nat × Nat × Nat × Bytes) (rest : List (Nat × Nat × Nat × Bytes)), (s.part p).run.digests = d :: rest →
    (∀ e ∈ (s.part p).run.emits, e.window = false ∨ e.emitted = true) →
    ∃ u, exec (.digestFrameSend p) s = .next u ∧ (u.part p).run.digests = rest ∧ (u.part p).cnt = (s.part p).cnt ∧ (∀ r, r ≠ p → u.part r = s.part r) ∧
      ((s.part p).res.ports = 0 → u = { s with parts := u.parts }) ∧
      u = { s with parts := u.parts, field := u.field, out := u.out, stook := u.stook, host := u.host }) ∧
  (∀ (s : State) (p : Nat), ((s.part p).run.digests = [] ∨ ∃ e ∈ (s.part p).run.emits, e.window = true ∧ e.emitted = false) →
    exec (.digestFrameSend p) s = .next s) ∧
  (∀ (s : State) (p q : Nat) (d : Nat × Nat × Nat × Bytes) (rest : List (Nat × Nat × Nat × Bytes)), (s.part p).run.digests = d :: rest →
    (∀ e ∈ (s.part p).run.emits, e.window = false ∨ e.emitted = true) → q < 8 → (s.part p).res.ports = 2 ^ q → (s.port q).mode = 1 →
    (s.port q).isUp 0 = true → bit (fld ((s.port q).subCfg 0) 3 1) 2 = true → bit (fld ((s.port q).subCfg 0) 3 1) 0 = false →
    ∃ u, exec (.digestFrameSend p) s = .next u ∧ (u.part p).run.digests = rest ∧ (u.port q).tx = satAdd (s.port q).tx 1 ∧
      u.out = s.out ++ [⟨4, q * 4, haulmFrame 4 0 (s.part p).twin.role p d.1 d.2.2.1 32 5 (fld ((s.port q).subCfg 0) 6 2) d.2.1
        (fld (s.part p).cnt.bir 0 8) d.2.2.2⟩] ∧ (∀ r, r ≠ q → u.port r = s.port r)) ∧
  (∀ (s : State) (q : Nat), (s.port q).mode = 1 → (s.port q).isUp 0 = true → bit (fld ((s.port q).subCfg 0) 3 1) 1 = true → s.time.runs = true →
    (s.port q).timeSec ≠ some (s.now / Config.tSec) → s.inWindow q = false →
    ∃ u, exec (.timeFrameSend q) s = .next u ∧ (u.port q).timeSec = some (s.now / Config.tSec) ∧ (u.port q).tx = satAdd (s.port q).tx 1 ∧
      u.out = s.out ++ [⟨5, q * 4, haulmFrame 5 0 0 0 0 s.now 0 8 (fld ((s.port q).subCfg 0) 6 2) 0 0 []⟩] ∧ (∀ r, r ≠ q → u.port r = s.port r) ∧
      u = { s with field := u.field, out := u.out }) ∧
  ∀ (s : State) (q : Nat), ((s.port q).timeSec = some (s.now / Config.tSec) ∨ s.inWindow q = true) → exec (.timeFrameSend q) s = .next s


/-! ### The compute core: events of a step (04, R121 to R137) -/

/-- R57, R68, R69, R135, R136, R317: the end of a step on a core, of a step of a frame, and of the frame. STEP_END completes once it has issued and nothing is left to do, and not
before. When the barrier is due it ends the step, STEP_COUNT rises, and the next step of the frame begins at cycle 0 with every core's sequencer and flights fresh and its
scratchpad as it was; after the last step the frame is over, with its hold kinds kept, and a STOP that waits takes effect; the end of a re-executed frame leaves the rest of the
frames to come. Before the barrier is due neither changes anything. -/
def Obligations.StepAndFrameEnd : Prop :=
  (∀ (s : State) (c p l now : Nat), s.liveCycle c = some (p, l, now) → (s.core c).seq.complete = none → (s.core c).stepEndDone now = true →
    ∃ t, exec (.stepEndComplete c) s = .next t ∧ t.core c = { s.core c with seq := { (s.core c).seq with complete := some now } } ∧
      (∀ d, d ≠ c → t.core d = s.core d) ∧ t = { s with cores := t.cores }) ∧
  (∀ (s : State) (c p l now : Nat), s.liveCycle c = some (p, l, now) → (s.core c).stepEndDone now = false → exec (.stepEndComplete c) s = .next s) ∧
  (∀ (s : State) (p : Nat) (f : Frame) (g : Image), (s.part p).run.frame = some f → f.idx + 1 < f.steps → s.barrierDue p = true → f.rerun = false →
    (s.part p).img.image = some g → (s.part p).ck.replay = none → (s.part p).ck.cls = none → (s.part p).twin.role = 0 →
    ∃ t f', exec (.stepBarrier p) s = .next t ∧ (t.part p).ctl.stepCount = ((s.part p).ctl.stepCount + 1) % 2 ^ 64 ∧ (t.part p).run.frame = some f' ∧
      f'.idx = f.idx + 1 ∧ f'.steps = f.steps ∧ f'.entry = f.entry ∧ f'.deadline = f.deadline ∧ (t.part p).run.stepRun = true ∧ (t.part p).run.stepCyc = 0 ∧
      (∀ c ∈ (s.part p).res.place, (t.core c).seq.complete = none ∧ (t.core c).seq.ended = none ∧ (t.core c).flights = [] ∧
        (t.core c).sp.mem = (s.core c).sp.mem) ∧
      (∀ c, c ∉ (s.part p).res.place → t.core c = s.core c) ∧ (∀ r, r ≠ p → t.part r = s.part r)) ∧
  (∀ (s : State) (p : Nat) (f : Frame), (s.part p).run.frame = some f → f.idx + 1 = f.steps → s.barrierDue p = true → f.rerun = false →
    (s.part p).ck.replay = none → (s.part p).ck.cls = none → (s.part p).twin.role = 0 → (s.part p).ctl.stop = [] →
    ∃ t, exec (.frameEnd p) s = .next t ∧ (t.part p).run.frame = none ∧ (t.part p).run.stepRun = false ∧
      (t.part p).ctl.stepCount = ((s.part p).ctl.stepCount + 1) % 2 ^ 64 ∧ (t.part p).st = (s.part p).st ∧ (t.part p).cnt.frames = (s.part p).cnt.frames ∧
      (t.part p).cnt.holdKinds = f.kinds) ∧
  (∀ (s : State) (p n : Nat) (rest : List Nat) (f : Frame), (s.part p).run.frame = some f → f.idx + 1 = f.steps → s.barrierDue p = true → f.rerun = false →
    (s.part p).ck.replay = none → (s.part p).ck.cls = none → (s.part p).twin.role = 0 → (s.part p).ctl.stop = n :: rest → (s.part p).ctl.ckpt = [] →
    ∃ t, exec (.frameEnd p) s = .next t ∧ (t.part p).st = .armed ∧ (t.part p).ctl.stop = [] ∧ (t.part p).run.frame = none ∧
      (t.part p).run.stepRun = false ∧ (t.part p).ctl.stepCount = ((s.part p).ctl.stepCount + 1) % 2 ^ 64) ∧
  (∀ (s : State) (p : Nat) (f : Frame) (j : JEntry) (rest : List JEntry), (s.part p).run.frame = some f → f.idx + 1 = f.steps → s.barrierDue p = true →
    f.rerun = true → (s.part p).ck.replay = none → (s.part p).ck.cls = none → (s.part p).twin.div = none → (s.part p).ctl.stop = [] →
    (s.part p).ck.catchUp = j :: rest →
    ∃ t, exec (.frameEnd p) s = .next t ∧ (t.part p).run.frame = none ∧ (t.part p).run.stepRun = false ∧ (t.part p).ck.catchUp = rest ∧
      (t.part p).ctl.stepCount = ((s.part p).ctl.stepCount + 1) % 2 ^ 64 ∧ (t.part p).st = (s.part p).st) ∧
  ∀ (s : State) (p : Nat), s.barrierDue p = false → exec (.stepBarrier p) s = .next s ∧ exec (.frameEnd p) s = .next s

/-- R121, R122, R123, R137: the core's own faults, on a core and a partition without one. A sequencer that runs past its region raises ILLEGAL_INSTRUCTION, a core that
has not completed its step within twice the step's cycles STEP_TIMEOUT, which names STEP_END's TAG once STEP_END has issued, a core on which nothing can move for 4,096 logical cycles FLAG_DEADLOCK. -/
def Obligations.CoreTimeouts : Prop :=
  (∀ (s : State) (c p l now : Nat) (f : Frame), s.liveCycle c = some (p, l, now) → s.faultFree p c → (s.part p).run.frame = some f →
    (s.core c).seq.complete = none → 2 * f.cycles.getD f.idx 0 ≤ now →
    ∃ t tag, exec (.stepTimeout c) s = .next t ∧ s.raises t p c 6 tag 0x0A ∧ ((s.core c).seq.ended.isSome = true → tag = (s.core c).seq.endTag)) ∧
  (∀ (s : State) (c p l now : Nat) (f : Frame), s.liveCycle c = some (p, l, now) → (s.part p).run.frame = some f →
    ((s.core c).seq.complete.isSome = true ∨ now < 2 * f.cycles.getD f.idx 0) → exec (.stepTimeout c) s = .next s) ∧
  (∀ (s : State) (c p l now from_ : Nat), s.liveCycle c = some (p, l, now) → s.faultFree p c →
    (s.core c).deadlockFrom now (!(s.part p).slotted) = some from_ → from_ + 4095 ≤ now →
    ∃ t e tag, exec (.flagDeadlock c) s = .next t ∧ s.raises t p c e tag 0x09) ∧
  (∀ (s : State) (c p l now : Nat), s.liveCycle c = some (p, l, now) →
    (∀ from_, (s.core c).deadlockFrom now (!(s.part p).slotted) = some from_ → now < from_ + 4095) → exec (.flagDeadlock c) s = .next s) ∧
  (∀ (s : State) (c p l now : Nat), s.liveCycle c = some (p, l, now) → s.faultFree p c → (s.core c).seq.len ≤ (s.core c).seq.pos →
    (s.core c).seq.ended = none → ((s.core c).eng.getD 6 {}).stopped = false → ((s.core c).eng.getD 6 {}).last.getD 0 + (s.core c).minStamp 6 ≤ now →
    ∃ t, exec (.sequencerRegionOverrun c) s = .next t ∧ s.raises t p c 6 0 0x06) ∧
  ∀ (s : State) (c p l now : Nat), s.liveCycle c = some (p, l, now) → ((s.core c).seq.pos < (s.core c).seq.len ∨ (s.core c).seq.ended.isSome = true) →
    exec (.sequencerRegionOverrun c) s = .next s

/-- R131, R132, R133, R134: fetch delivery. The first fetch that is due and has its data starts while fewer than two delivery slots are taken; an instruction enters its queue with its
poison, and the fetch counts it or ends with its last; a queue with 256 raises QUEUE_OVERFLOW, an instruction that comes to the head after its stamp cycle in slotted mode QUEUE_LATE,
one that comes to the head with poison POISON_CONSUMED; a fetch whose data is missing 96 cycles before its due cycle announces a hold, one whose data is there is checked. -/
def Obligations.FetchDelivery : Prop :=
  (∀ (s : State) (c p l now : Nat) (f : Fetch) (rest : List Fetch), s.liveCycle c = some (p, l, now) → (s.core c).seq.fetches = f :: rest →
    (s.core c).seq.slotsTaken now < 2 → f.start = none → f.due ≤ now → (f.src = 1 ∨ f.data = true) →
    ∃ t, exec (.fetchDeliveryStart c) s = .next t ∧
      t.core c = { s.core c with seq := { (s.core c).seq with fetches := { f with start := some now } :: rest } } ∧
      (∀ d, d ≠ c → t.core d = s.core d) ∧ t = { s with cores := t.cores }) ∧
  (∀ (s : State) (c p l now : Nat), s.liveCycle c = some (p, l, now) → 2 ≤ (s.core c).seq.slotsTaken now → exec (.fetchDeliveryStart c) s = .next s) ∧
  (∀ (s : State) (c p l now : Nat) (f : Fetch) (rest : List Fetch) (y : QEntry), s.liveCycle c = some (p, l, now) → (s.core c).seq.fetches = f :: rest →
    arriving now f = true → (f.src = 1 → (s.core c).sp.badIn (f.addr + 16 * f.delivered) 16 = none) →
    y = ⟨(f.words.getD f.delivered (0, false)).1, (f.words.getD f.delivered (0, false)).2 ||
      (f.src == 0 && (s.part p).img.streamsPoison.contains ((f.addr + 16 * f.delivered) / 64)), now⟩ →
    ((((s.core c).eng.getD f.queue {}).queue.length < 256 →
      ((s.core c).eng.getD f.queue {}).queue ≠ [] ∨ (y.poison = false ∧ ((s.part p).slotted = false ∨ (s.part p).ctl.stall = true ∨
        now < (s.core c).stampCycle f.queue (wStamp y.word) ((s.core c).minStamp f.queue) false)) →
      ∃ t, exec (.fetchInstructionArrival c) s = .next t ∧
        ((t.core c).eng.getD f.queue {}).queue = ((s.core c).eng.getD f.queue {}).queue ++ [y] ∧
        (t.core c).seq.fetches = (if f.delivered + 1 = f.count then rest else { f with delivered := f.delivered + 1 } :: rest) ∧
        (∀ e, e ≠ f.queue → (t.core c).eng.getD e {} = (s.core c).eng.getD e {}) ∧
        (s.core c).sameData (t.core c) ∧ (∀ d, d ≠ c → t.core d = s.core d) ∧ t = { s with cores := t.cores }) ∧
    (s.faultFree p c → 256 ≤ ((s.core c).eng.getD f.queue {}).queue.length →
      ∃ t, exec (.fetchInstructionArrival c) s = .next t ∧ s.raises t p c f.queue (wTag y.word) 0x04) ∧
    (s.faultFree p c → ((s.core c).eng.getD f.queue {}).queue = [] → (s.part p).slotted = true → (s.part p).ctl.stall = false →
      (s.core c).stampCycle f.queue (wStamp y.word) ((s.core c).minStamp f.queue) false ≤ now →
      ∃ t, exec (.fetchInstructionArrival c) s = .next t ∧ s.raises t p c f.queue (wTag y.word) 0x03) ∧
    (s.faultFree p c → ((s.core c).eng.getD f.queue {}).queue = [] → (s.part p).slotted = false → y.poison = true →
      ∃ t, exec (.fetchInstructionArrival c) s = .next t ∧ s.raises t p c f.queue (wTag y.word) 0x0C))) ∧
  (∀ (s : State) (c p l now : Nat) (corrected retried : Bool) (f : Fetch) (rest : List Fetch), s.liveCycle c = some (p, l, now) →
    (s.core c).seq.fetches = f :: rest → f.src = 0 → f.checked = false → f.due ≤ now + 96 → f.data = false →
    ∃ t, exec (.fetchCheck c corrected retried) s = .next t ∧ (t.core c).sp.lateCnt = satAdd (s.core c).sp.lateCnt 1 ∧
      (t.part p).run.holds = (s.part p).run.holds ++ [⟨if retried then 3 else if corrected then 1 else 0, some (c, 6, f.issueNo * 8 + f.queue),
        (s.part p).run.logical + 96, none, none, false⟩] ∧
      (t.part p).cnt = { (s.part p).cnt with holdAnn := satAdd (s.part p).cnt.holdAnn 1 } ∧ (s.core c).sameData (t.core c) ∧
      (∀ d, d ≠ c → t.core d = s.core d) ∧ (∀ r, r ≠ p → t.part r = s.part r) ∧ t = { s with cores := t.cores, parts := t.parts }) ∧
  ∀ (s : State) (c p l now : Nat) (corrected retried : Bool) (f : Fetch) (rest : List Fetch), s.liveCycle c = some (p, l, now) →
    (s.core c).seq.fetches = f :: rest → f.src = 0 → f.checked = false → f.due ≤ now + 96 → f.data = true →
    ∃ t, exec (.fetchCheck c corrected retried) s = .next t ∧ (t.core c).sp = (s.core c).sp ∧ (t.core c).eng = (s.core c).eng ∧
      (∃ f' l', (t.core c).seq.fetches = f' :: l' ∧ f' = { f with checked := true, late := false }) ∧ (∀ d, d ≠ c → t.core d = s.core d) ∧
      t = { s with cores := t.cores }

/-- R117, R118, R120, R126, R249: signals, results and releases. At its signal point an instruction that is the core's only one in flight adds one to its flag's count, which waits of the same
cycle do not see yet; a scalar result whose latency has passed is in its register and reads as before; a scoreboard entry whose release cycle has ended is gone and what an issue sees of the
scoreboard stays. -/
def Obligations.SignalsAndReleases : Prop :=
  (∀ (s : State) (c p l now : Nat) (f : Flight), s.liveCycle c = some (p, l, now) → (s.core c).flights = [f] → f.eng < 7 → f.signalDue now = true →
    (s.part p).ck.replay = none →
    (∀ e, e < 7 → 0 ≤ flagDiff (((s.core c).fcnt.getD (wSflag f.word) 0 + 1) % 4294967296) (((s.core c).eng.getD e {}).ccnt.getD (wSflag f.word) 0)) →
    ∃ t, exec (.instructionSignalPoint c) s = .next t ∧
      (t.core c).fcnt.getD (wSflag f.word) 0 = ((s.core c).fcnt.getD (wSflag f.word) 0 + 1) % 4294967296 ∧
      (∀ n, n ≠ wSflag f.word → (t.core c).fcnt.getD n 0 = (s.core c).fcnt.getD n 0) ∧
      (∀ e, (t.core c).waitOk e (wSflag f.word) now = (s.core c).waitOk e (wSflag f.word) now) ∧ (t.core c).flights = [{ f with signalled := true }] ∧
      (t.core c).eng = (s.core c).eng ∧ (t.core c).sp = (s.core c).sp ∧ (t.core c).mx = (s.core c).mx ∧ (∀ d, d ≠ c → t.core d = s.core d) ∧
      t = { s with cores := t.cores }) ∧
  (∀ (s : State) (c p l now : Nat), s.liveCycle c = some (p, l, now) →
    ∃ t, exec (.scalarResult c) s = .next t ∧
      (∀ r, 1 ≤ r → r < 32 → (t.core c).seq.regs.getD r (0, false) = (s.core c).seq.reg r now) ∧
      (∀ r m, r < 32 → now ≤ m → (t.core c).seq.reg r m = (s.core c).seq.reg r m) ∧ (∀ x ∈ (t.core c).seq.pend, now < x.due) ∧
      t.core c = { s.core c with seq := { (s.core c).seq with regs := (t.core c).seq.regs, pend := (t.core c).seq.pend } } ∧
      (∀ d, d ≠ c → t.core d = s.core d) ∧ t = { s with cores := t.cores }) ∧
  ∀ (s : State) (c p l now : Nat), s.liveCycle c = some (p, l, now) →
    ∃ t, exec (.scoreboardRelease c) s = .next t ∧ (∀ x ∈ (t.core c).sp.sb, ∀ r, x.release = some r → now ≤ r) ∧
      (∀ e m, now ≤ m → (t.core c).sbSeen e m = (s.core c).sbSeen e m) ∧
      t.core c = { s.core c with sp := { (s.core c).sp with sb := (t.core c).sp.sb } } ∧ (∀ d, d ≠ c → t.core d = s.core d) ∧ t = { s with cores := t.cores }

/-! ### The sequencer's instructions (R111, R119, R125 to R135) -/

/-- R111, R126, R130, R132, R135, R329: NOP on every engine, QWAIT, WAITC, BR, FETCH and STEP_END issue. NOP and QWAIT do nothing else; WAITC makes the wait its
occupancy; a branch goes to AUX16 where its condition holds and on otherwise, with occupancy 32; FETCH makes one fetch outstanding, due 1,200 or 16 cycles
later; STEP_END names the next step's first position, and nothing comes to the sequencer's head after it. In a queued partition with DLB_EN set an instruction at the first position of a balanceable region
claims the region's next item (log entry 141: the region's layout is the model's choice). -/
def Obligations.FlowInstructionsIssue : Prop :=
  (∀ (s : State) (c e : Nat) (x : Ctx), s.issues c e 0 nopReq x →
    ∃ t f, exec (.nop c e) s = .next t ∧ s.issued t x (nopReq x) ∧ (t.core c).carries x f ∧ f.sig = some x.now ∧ (s.core c).sameData (t.core c) ∧
      (t.core c).seq = { (s.core c).seq with pos := if e = 6 then (s.core c).seq.pos + 1 else (s.core c).seq.pos }) ∧
  (∀ (s : State) (c : Nat) (x : Ctx), s.issues c 6 0x02 qwaitReq x →
    ∃ t f, exec (.qwait c) s = .next t ∧ s.issued t x (qwaitReq x) ∧ (t.core c).carries x f ∧ f.sig = some x.now ∧ (s.core c).sameData (t.core c) ∧
      (sqImm x.word : Int) ≤ (s.core c).qfree (sqAux x.word % 8) ∧
      (t.core c).seq = { (s.core c).seq with pos := (s.core c).seq.pos + 1 }) ∧
  (∀ (s : State) (c : Nat) (x : Ctx), s.issues c 6 0x50 (fun x => { sqReq x (sqAddr x == 0 || decide (4294967295 < sqAddr x)) with occ := sqAddr x }) x →
    ∃ t f, exec (.waitc c) s = .next t ∧
      s.issued t x { sqReq x (sqAddr x == 0 || decide (4294967295 < sqAddr x)) with occ := sqAddr x } ∧ (t.core c).carries x f ∧ f.sig = some x.now ∧
      (s.core c).sameData (t.core c) ∧
      ((t.core c).eng.getD 6 {}).occ = (((s.core c).seq.reg (sqSa x.word) x.now).1 + sqImm64 x.word) % 2 ^ 64 ∧
      (t.core c).seq = { (s.core c).seq with pos := (s.core c).seq.pos + 1 }) ∧
  (∀ (s : State) (c : Nat) (x : Ctx), s.issues c 6 0x30 (fun x => { sqReq x false with occ := 32 }) x →
    ∃ t f, exec (.br c) s = .next t ∧ s.issued t x { sqReq x false with occ := 32 } ∧ (t.core c).carries x f ∧ f.sig = some x.now ∧
      (s.core c).sameData (t.core c) ∧
      (t.core c).seq.pos = (if brCond (wMod x.word) ((s.core c).seq.reg (sqSa x.word) x.now).1 ((s.core c).seq.opB x.word x.now).1 then sqAux x.word
        else (s.core c).seq.pos + 1)) ∧
  (∀ (s : State) (c : Nat) (x : Ctx), s.issues c 6 0x01 fetchReq x →
    ∃ t f g, exec (.fetch c) s = .next t ∧ s.issued t x (fetchReq x) ∧ (t.core c).carries x f ∧ f.sig = none ∧ (s.core c).sameData (t.core c) ∧
      (t.core c).seq.fetches = (s.core c).seq.fetches ++ [g] ∧ g.queue = sqAux x.word % 8 ∧ g.src = sqAux x.word / 8 % 2 ∧ g.count = sqAux x.word / 32 + 1 ∧
      g.addr = (((s.core c).seq.reg (sqSa x.word) x.now).1 + sqImm64 x.word) % 2 ^ 64 * 64 ∧ g.due = x.now + (if g.src = 0 then 1200 else 16) ∧
      g.start = none ∧ g.delivered = 0 ∧ g.words.length = g.count ∧ (t.core c).seq.pos = (s.core c).seq.pos + 1) ∧
  (∀ (s : State) (c : Nat) (x : Ctx), s.issues c 6 0x70 (fun x => sqReq x false) x →
    ∃ t f, exec (.stepEnd c) s = .next t ∧ s.issued t x (sqReq x false) ∧ (t.core c).carries x f ∧ f.sig = some x.now ∧ (s.core c).sameData (t.core c) ∧
      (t.core c).seq.ended = some (x.now, sqAux x.word) ∧ (t.core c).seq.endTag = wTag x.word ∧ (t.core c).head 6 = none) ∧
  ∀ (s : State) (c i : Nat) (x : Ctx) (g : Image) (r : BalRegion), s.issues c 6 0 nopReq x → (s.part x.p).slotted = false →
    (s.part x.p).img.image = some g → balanceAt g (s.core c).seq.pos = some (i, r) → (s.core c).seq.pos = r.first → (s.part x.p).ctl.dlb = true →
    ∃ t, exec (.nop c 6) s = .next t ∧
      (t.core c).item = (if (s.part x.p).run.claims.getD i 0 < (r.assign.map List.length).sum then
        some ⟨i, (s.part x.p).run.claims.getD i 0, (List.range 7).map fun e => ((s.core c).eng.getD e {}).issued⟩ else none) ∧
      (t.part x.p).run.claims.getD i 0 = (s.part x.p).run.claims.getD i 0 + 1

/-- R124, R126, R128, R129, R131, R239: the scalar results. LDS, ALU and SYSR give S[SD] its value, readable after the latency of 8, 1 (4 for a multiplication) and
2 cycles, and S0 stays 0; STS issues with the low bytes of S[SB] to write 3 cycles later, and in that cycle writes them and no other byte. -/
def Obligations.ScalarResults : Prop :=
  (∀ (s : State) (c : Nat) (x : Ctx), s.issues c 6 0x10 ldsReq x → x.m.badIn (sqAddr x) (sqWidth x.word) = none →
    ∃ t f, exec (.lds c) s = .next t ∧ s.issued t x (ldsReq x) ∧ (t.core c).carries x f ∧ f.sig = some (x.now + 7) ∧ (s.core c).sameData (t.core c) ∧
      (t.core c).seq.reg 0 (x.now + 8) = (0, false) ∧
      (sqSd x.word ≠ 0 → (t.core c).seq.reg (sqSd x.word) (x.now + 8) =
        (if wMod x.word / 4 % 2 = 1 then
            ofSigned 64 (toSigned (8 * 2 ^ (wMod x.word % 4)) (leNat (memRead x.m.mem (sqAddr x) (2 ^ (wMod x.word % 4)))))
          else leNat (memRead x.m.mem (sqAddr x) (2 ^ (wMod x.word % 4))), x.m.poison.contains (sqAddr x / 64)))) ∧
  (∀ (s : State) (c : Nat) (x : Ctx), s.issues c 6 0x11 stsReq x →
    (8 ≤ sqWidth x.word ∨ x.m.badIn (sqAddr x) (sqWidth x.word) = none) →
    ∃ t f, exec (.sts c) s = .next t ∧ s.issued t x (stsReq x) ∧ (t.core c).carries x f ∧ f.sig = some (x.now + 3) ∧ (s.core c).sameData (t.core c) ∧
      f.writes = [⟨x.now + 3, sqAddr x, natLe (2 ^ (wMod x.word % 4)) ((s.core c).seq.reg (sqSb x.word) x.now).1, [false], [], none⟩]) ∧
  (∀ (s : State) (c p l now : Nat) (f : Flight) (w : PWrite), s.pending = [] → s.board.input = true → s.liveCycle c = some (p, l, now) →
    c ∈ s.cores.map Prod.fst → (∀ q, (s.part q).run.net = []) → (∀ d, ∀ g ∈ (s.core d).flights, g.errs = []) → (s.core c).flights = [f] → f.eng = 6 →
    f.writes = [w] → w.cycle = now + 1 →
    ∃ t, step s = .next t ∧ (∀ i, i < w.data.length → memGet (t.core c).sp.mem (w.addr + i) = w.data.getD i 0) ∧
      (∀ a, (a < w.addr ∨ w.addr + w.data.length ≤ a) → memGet (t.core c).sp.mem a = memGet (s.core c).sp.mem a) ∧
      (t.core c).flights = [{ f with writes := [] }] ∧ (t.core c).seq = (s.core c).seq ∧ (t.core c).mx = (s.core c).mx) ∧
  (∀ (s : State) (c : Nat) (x : Ctx), s.issues c 6 0x20 (fun x => sqReq x false) x →
    ∃ t f, exec (.alu c) s = .next t ∧ s.issued t x (sqReq x false) ∧ (t.core c).carries x f ∧ f.sig = some x.now ∧ (s.core c).sameData (t.core c) ∧
      (t.core c).seq.reg 0 (x.now + 4) = (0, false) ∧
      (sqSd x.word ≠ 0 → ((t.core c).seq.reg (sqSd x.word) (x.now + if wMod x.word = 8 then 4 else 1)).1 =
        aluOp (wMod x.word) ((s.core c).seq.reg (sqSa x.word) x.now).1 ((s.core c).seq.opB x.word x.now).1
          ((s.core c).seq.reg (sqSd x.word) x.now).1 (sqImm x.word))) ∧
  ∀ (s : State) (c : Nat) (x : Ctx), s.issues c 6 0x21 (fun x => sqReq x (decide (5 < sqAux x.word))) x →
    ∃ t f, exec (.sysr c) s = .next t ∧ s.issued t x (sqReq x (decide (5 < sqAux x.word))) ∧ (t.core c).carries x f ∧ f.sig = some x.now ∧
      (s.core c).sameData (t.core c) ∧ sqAux x.word ≤ 5 ∧
      (sqSd x.word ≠ 0 → (sqAux x.word = 0 → (t.core c).seq.reg (sqSd x.word) (x.now + 2) = ((s.part x.p).ctl.stepCount, false)) ∧
        (sqAux x.word = 1 → (t.core c).seq.reg (sqSd x.word) (x.now + 2) = (x.l, false)) ∧
        (sqAux x.word = 2 → (t.core c).seq.reg (sqSd x.word) (x.now + 2) = ((s.part x.p).res.floor, false)) ∧
        ∀ f, (s.part x.p).run.frame = some f →
          (sqAux x.word = 3 → (t.core c).seq.reg (sqSd x.word) (x.now + 2) = (f.ept, false)) ∧
          (sqAux x.word = 4 → (t.core c).seq.reg (sqSd x.word) (x.now + 2) = (if f.learn then 1 else 0, false)) ∧
          (sqAux x.word = 5 → (t.core c).seq.reg (sqSd x.word) (x.now + 2) = (f.idx, false)))

/-- R128: ALU gives S[SD] the value of the table's row for MOD, on 64 bits: addition and subtraction modulo 2^64, bitwise operations, shifts by the low six
bits of B, the low 64 bits of the product, signed and unsigned minimum and maximum, B itself, IMM32 above the low half of SD, and the signed comparison. -/
def Obligations.AluOperations : Prop :=
  ∀ (s : State) (c : Nat) (x : Ctx) (a b d : BitVec 64) (imm : BitVec 32), s.issues c 6 0x20 (fun x => sqReq x false) x →
    ((s.core c).seq.reg (sqSa x.word) x.now).1 = a.toNat → ((s.core c).seq.opB x.word x.now).1 = b.toNat →
    ((s.core c).seq.reg (sqSd x.word) x.now).1 = d.toNat → sqImm x.word = imm.toNat → sqSd x.word ≠ 0 →
    ∃ (t : State) (r : Nat), exec (.alu c) s = .next t ∧ ((t.core c).seq.reg (sqSd x.word) (x.now + if wMod x.word = 8 then 4 else 1)).1 = r ∧
      (wMod x.word = 0x0 → r = (a + b).toNat) ∧ (wMod x.word = 0x1 → r = (a - b).toNat) ∧ (wMod x.word = 0x2 → r = (a &&& b).toNat) ∧
      (wMod x.word = 0x3 → r = (a ||| b).toNat) ∧ (wMod x.word = 0x4 → r = (a ^^^ b).toNat) ∧ (wMod x.word = 0x5 → r = (a <<< (b.toNat % 64)).toNat) ∧
      (wMod x.word = 0x6 → r = (a >>> (b.toNat % 64)).toNat) ∧ (wMod x.word = 0x7 → r = (a.sshiftRight (b.toNat % 64)).toNat) ∧
      (wMod x.word = 0x8 → r = (a * b).toNat) ∧ (wMod x.word = 0x9 → r = (if a.toInt ≤ b.toInt then a else b).toNat) ∧
      (wMod x.word = 0xA → r = (if a.toInt ≤ b.toInt then b else a).toNat) ∧ (wMod x.word = 0xB → r = min a.toNat b.toNat) ∧
      (wMod x.word = 0xC → r = max a.toNat b.toNat) ∧ (wMod x.word = 0xD → r = b.toNat) ∧
      (wMod x.word = 0xE → r = (imm ++ d.extractLsb' 0 32).toNat) ∧ (wMod x.word = 0xF → r = if a.toInt < b.toInt then 1 else 0)

/-- R119, R120, R126, R140: FLAG_SET gives a count its operand plus the signals of the same cycle, FLAG_ADD adds its operand, and no other count changes, while
every engine's difference stays in the range of R120; FAULT raises ASSERT with its code and does not issue. -/
def Obligations.FlagAndFaultInstructions : Prop :=
  (∀ (s : State) (c n v : Nat) (x : Ctx), s.issues c 6 0x40 (fun x => sqReq x false) x → n = sqAux x.word % 64 →
    v = (((s.core c).seq.opB x.word x.now).1 % 4294967296 + (s.core c).sigsNow n x.now) % 4294967296 →
    (∀ e, e < 7 → e ≠ 6 ∨ wWen x.word = false ∨ wWflag x.word ≠ n → 0 ≤ flagDiff v (((s.core c).eng.getD e {}).ccnt.getD n 0)) →
    (wWen x.word = true → wWflag x.word = n → 0 ≤ flagDiff v ((((s.core c).eng.getD 6 {}).ccnt.getD n 0 + 1) % 4294967296)) →
    ∃ t f, exec (.flagSet c) s = .next t ∧ s.issued t x (sqReq x false) ∧ (t.core c).carries x f ∧ (t.core c).fcnt.getD n 0 = v ∧
      (∀ m, m ≠ n → (t.core c).fcnt.getD m 0 = (s.core c).fcnt.getD m 0) ∧ (t.core c).sp.mem = (s.core c).sp.mem ∧
      (t.core c).seq.regs = (s.core c).seq.regs) ∧
  (∀ (s : State) (c n v : Nat) (x : Ctx), s.issues c 6 0x41 (fun x => sqReq x false) x → n = sqAux x.word % 64 →
    v = ((s.core c).fcnt.getD n 0 + ((s.core c).seq.opB x.word x.now).1 % 4294967296) % 4294967296 →
    (∀ e, e < 7 → e ≠ 6 ∨ wWen x.word = false ∨ wWflag x.word ≠ n → 0 ≤ flagDiff v (((s.core c).eng.getD e {}).ccnt.getD n 0)) →
    (wWen x.word = true → wWflag x.word = n → 0 ≤ flagDiff v ((((s.core c).eng.getD 6 {}).ccnt.getD n 0 + 1) % 4294967296)) →
    ∃ t f, exec (.flagAdd c) s = .next t ∧ s.issued t x (sqReq x false) ∧ (t.core c).carries x f ∧ (t.core c).fcnt.getD n 0 = v ∧
      (∀ m, m ≠ n → (t.core c).fcnt.getD m 0 = (s.core c).fcnt.getD m 0) ∧ (t.core c).sp.mem = (s.core c).sp.mem ∧
      (t.core c).seq.regs = (s.core c).seq.regs) ∧
  ∀ (s : State) (c : Nat) (x : Ctx) (h : QEntry), s.issueCtx c 6 = some (x, h) → wOp h.word = 0x7F →
    dueNow x h { sqReq x false with chk := some 0x0B } = true → verdict x h { sqReq x false with chk := some 0x0B } = .fault 0x0B → s.faultFree x.p c →
    ∃ t, exec (.fault c) s = .next t ∧ s.raises t x.p c 6 (wTag x.word) 0x0B ∧ (t.core c).flt.code = sqAux x.word ∧
      ((t.core c).eng.getD 6 {}).issued = ((s.core c).eng.getD 6 {}).issued

/-- R114, R131, R139, R243, R315, R542: what keeps an instruction from issuing, said of NOP on every engine. A sequencer instruction whose words fail their detection code raises SP_ERROR
(log entry 143), an instruction that comes with poison POISON_CONSUMED, one that is illegal ILLEGAL_INSTRUCTION, a stamp below the occupancy in slotted mode STAMP_LATE, in this order; a wait that is not satisfied raises
WAIT_UNMET in slotted mode and otherwise leaves everything as it is, as does an engine that is held or stopped or whose stamp cycle is still to come. An issue that matches the armed break
sets HIT, announces a DEBUG hold and offers a notice; one that brings an instruction with poison to the head of its queue raises POISON_CONSUMED there; one that is delayed in debug stall mode offers a trace record. -/
def Obligations.IssueChecks : Prop :=
  (∀ (s : State) (c e : Nat) (x : Ctx) (h : QEntry), s.issueCtx c e = some (x, h) → wOp h.word = 0 → dueNow x h (nopReq x) = true → s.faultFree x.p c →
    (x.codeBad.isSome = true → ∃ t, exec (.nop c e) s = .next t ∧ s.raises t x.p c e (wTag x.word) 0x16) ∧
    (x.codeBad = none → h.poison = true → ∃ t, exec (.nop c e) s = .next t ∧ s.raises t x.p c e (wTag x.word) 0x0C) ∧
    (x.codeBad = none → h.poison = false → (nopReq x).illegal = true ∨ wRsv x.word ≠ 0 →
      ∃ t, exec (.nop c e) s = .next t ∧ s.raises t x.p c e (wTag x.word) 0x06) ∧
    (x.codeBad = none → h.poison = false → (nopReq x).illegal = false → wRsv x.word = 0 → wStamp x.word < (s.core c).minStamp e →
      (s.part x.p).slotted = true → ∃ t, exec (.nop c e) s = .next t ∧ s.raises t x.p c e (wTag x.word) 0x01) ∧
    (x.codeBad = none → h.poison = false → (nopReq x).illegal = false → wRsv x.word = 0 → (s.core c).minStamp e ≤ wStamp x.word → wWen x.word = true →
      (s.core c).waitOk e (wWflag x.word) x.now = false →
      ((s.part x.p).slotted = true → (s.part x.p).ctl.stall = false → ∃ t, exec (.nop c e) s = .next t ∧ s.raises t x.p c e (wTag x.word) 0x02) ∧
      ((s.part x.p).slotted = false ∨ (s.part x.p).ctl.stall = true → exec (.nop c e) s = .next s))) ∧
  (∀ (s : State) (c e : Nat) (x : Ctx) (h : QEntry), s.issueCtx c e = some (x, h) → wOp h.word = 0 → dueNow x h (nopReq x) = false →
    exec (.nop c e) s = .next s) ∧
  (∀ (s : State) (c e : Nat), s.issueCtx c e = none → exec (.nop c e) s = .next s) ∧
  (∀ (s : State) (c e : Nat) (x : Ctx) (h : QEntry), s.issueCtx c e = some (x, h) → wOp h.word = 0 → dueNow x h (nopReq x) = true →
    verdict x h (nopReq x) = .ok → x.q.ctl.stall = false → (e ≠ 6 → ∀ y, ((s.core c).eng.getD e {}).queue.tail.head? = some y → y.poison = false) →
    (s.core c).flt.brkMatch e (wTag x.word) (((s.core c).eng.getD e {}).issued + 1) = true →
    ∃ t, exec (.nop c e) s = .next t ∧ (t.core c).flt.brkHit = true ∧ (t.core c).flt.hitAt = some s.opTicks ∧
      ((t.core c).eng.getD e {}).issued = ((s.core c).eng.getD e {}).issued + 1 ∧
      (t.part x.p).run.holds = (s.part x.p).run.holds ++ [⟨6, some (c, e, x.issueNo), (s.part x.p).run.logical + 96, none, none, false⟩] ∧
      ((t.part x.p).img.fault.snaps.get? c).isSome = true ∧ t.stook.offered = s.stook.offered + 1) ∧
  (∀ (s : State) (c e : Nat) (x : Ctx) (h y : QEntry), s.issueCtx c e = some (x, h) → wOp h.word = 0 → dueNow x h (nopReq x) = true →
    verdict x h (nopReq x) = .ok → x.q.ctl.stall = false → (s.core c).flt.brkEn = false → e ≠ 6 → s.faultFree x.p c →
    ((s.core c).eng.getD e {}).queue.tail.head? = some y → y.poison = true →
    ∃ t, exec (.nop c e) s = .next t ∧ (t.core c).flt.cause = 0x0C ∧ (t.core c).flt.eng = e ∧ (t.core c).flt.tag = wTag y.word ∧
      ((t.core c).eng.getD e {}).stopped = true ∧ ((t.core c).eng.getD e {}).issued = ((s.core c).eng.getD e {}).issued + 1) ∧
  ∀ (s : State) (c e : Nat) (x : Ctx) (h : QEntry), s.issueCtx c e = some (x, h) → wOp h.word = 0 → dueNow x h (nopReq x) = true →
    verdict x h (nopReq x) = .ok → x.q.ctl.stall = true → delayed x (nopReq x) = true → (s.core c).flt.brkEn = false →
    (e ≠ 6 → ∀ y, ((s.core c).eng.getD e {}).queue.tail.head? = some y → y.poison = false) →
    ∃ t, exec (.nop c e) s = .next t ∧ ((t.core c).eng.getD e {}).issued = ((s.core c).eng.getD e {}).issued + 1 ∧
      t.stook.offered = s.stook.offered + 1 ∧ (t.core c).flt.wstall = satAdd (s.core c).flt.wstall 1


/-! ### The matrix array (05) -/

/-- R147, R153, R156 to R159, R243: the matrix instructions issue. MM and LOAD_ACC set the kind of the array and take their tiles or block as they stand; DRAIN leaves
the array EMPTY for the next block; no accumulator changes at the issue. A read of the issue's cycle that fails its detection code raises SP_ERROR; those of later cycles are kept
with the instruction. -/
def Obligations.MatrixInstructionsIssue : Prop :=
  (∀ (s : State) (c : Nat) (x : Ctx) (kind o va vb : Nat), s.issues c 0 1 mmReq x → mmOf x.word = some (kind, o, va, vb) →
    (errNow x.now (x.m.readErrs (mmReads x.word o va vb x.now)) = none →
      ∃ t f, exec (.mm c) s = .next t ∧ s.issued t x (mmReq x) ∧ (t.core c).carries x f ∧ f.sig = some (x.now + o + 3) ∧ f.done = 0 ∧ f.total = 128 ∧
        f.a = memRead x.m.mem (mxA x.word * 64) (mxK x.word * va) ∧ f.b = memRead x.m.mem (mxB x.word * 64) (mxK x.word * vb) ∧
        f.nums = [0, 0, o, va, vb, kind] ∧ f.errs = laterErrs x.now (x.m.readErrs (mmReads x.word o va vb x.now)) ∧
        (t.core c).mx = { (s.core c).mx with kind := kind } ∧ ((s.core c).mx.kind = 0 ∨ (s.core c).mx.kind = kind) ∧
        (t.core c).sp.mem = (s.core c).sp.mem ∧ (t.core c).fcnt = (s.core c).fcnt) ∧
    (∀ w, errNow x.now (x.m.readErrs (mmReads x.word o va vb x.now)) = some w → s.faultFree x.p c →
      ∃ t, exec (.mm c) s = .next t ∧ s.raises t x.p c 0 (wTag x.word) 0x16 ∧ (t.core c).mx = { (s.core c).mx with kind := kind })) ∧
  (∀ (s : State) (c : Nat) (x : Ctx), s.issues c 0 2 drainReq x →
    ∃ t f, exec (.drain c) s = .next t ∧ s.issued t x (drainReq x) ∧ (t.core c).carries x f ∧
      f.sig = some (x.now + if mxBit x.word 2 then 264 else 272) ∧ f.total = 128 ∧ f.nums.getD 2 0 = (s.core c).mx.kind ∧
      (t.core c).mx = { (s.core c).mx with kind := 0 } ∧ (t.core c).sp.mem = (s.core c).sp.mem ∧ (t.core c).fcnt = (s.core c).fcnt) ∧
  ∀ (s : State) (c : Nat) (x : Ctx) (errs : List (Nat × Nat)), s.issues c 0 3 loadAccReq x →
    errs = x.m.readErrs ((List.range 128).map fun i => (mxA x.word * 64 + i * mxPitch x.word (mxFa x.word), rowBytes (mxFa x.word), x.now + i)) →
    (errNow x.now errs = none →
      ∃ t f, exec (.loadAcc c) s = .next t ∧ s.issued t x (loadAccReq x) ∧ (t.core c).carries x f ∧ f.sig = some (x.now + 131) ∧ f.done = 0 ∧ f.total = 128 ∧
        f.a = memRead x.m.mem (mxA x.word * 64) (127 * mxPitch x.word (mxFa x.word) + rowBytes (mxFa x.word)) ∧ f.errs = laterErrs x.now errs ∧
        (t.core c).mx = { (s.core c).mx with kind := if mxFa x.word = 11 then 1 else 2 } ∧ (t.core c).sp.mem = (s.core c).sp.mem ∧
        (t.core c).fcnt = (s.core c).fcnt) ∧
    (∀ w, errNow x.now errs = some w → s.faultFree x.p c →
      ∃ t, exec (.loadAcc c) s = .next t ∧ s.raises t x.p c 0 (wTag x.word) 0x16 ∧
        (t.core c).mx = { (s.core c).mx with kind := if mxFa x.word = 11 then 1 else 2 })

/-- R145, R157 to R161, R166, R173, R239, R243: the events of the matrix instructions in flight, one row at a time. A contribution and a LOAD_ACC row change the 128 cells of their
row alone; a parameter record is taken as the cycle's start has it, one that fails its detection code raises SP_ERROR and one that is not valid DRAIN_PARAM; a drained row is cleared and, unless the
DRAIN discards, waits to be written, and a cell of it whose residue or parity disagrees raises ACC_CHECK; a row written reaches the scratchpad and no byte outside it. None of them
changes anything while no row is due. -/
def Obligations.MatrixRows : Prop :=
  (∀ (s : State) (c p l now : Nat) (f : Flight), s.liveCycle c = some (p, l, now) →
    mxNext Flight.done (fun f => f.op == 1 && decide (f.done < 128)) [] (s.core c).flights = some f →
    (f.issue + 8 + f.done ≤ now →
      ∃ t, exec (.mmContribution c) s = .next t ∧ (t.core c).flights = ((s.core c).modFlight 0 f.issueNo fun g => { g with done := g.done + 1 }).flights ∧
        (∀ j, j < 128 → { (t.core c).mx.acc.getD (128 * f.done + j) {} with
            poison := ((s.core c).mx.acc.getD (128 * f.done + j) {}).poison, src := ((s.core c).mx.acc.getD (128 * f.done + j) {}).src } =
          mmCell f.word f f.done j ((s.core c).mx.acc.getD (128 * f.done + j) {})) ∧
        (∀ i, (i < 128 * f.done ∨ 128 * f.done + 128 ≤ i) → (t.core c).mx.acc.getD i {} = (s.core c).mx.acc.getD i {}) ∧
        (t.core c).mx.kind = (s.core c).mx.kind ∧ (t.core c).sp = (s.core c).sp ∧ (∀ d, d ≠ c → t.core d = s.core d) ∧ t = { s with cores := t.cores }) ∧
    (now < f.issue + 8 + f.done → exec (.mmContribution c) s = .next s)) ∧
  (∀ (s : State) (c p l now : Nat) (f : Flight), s.liveCycle c = some (p, l, now) →
    mxNext Flight.done (fun f => f.op == 3 && decide (f.done < 128)) [] (s.core c).flights = some f →
    (f.issue + 8 + f.done ≤ now →
      ∃ t, exec (.loadAccRowWrite c) s = .next t ∧ (t.core c).flights = ((s.core c).modFlight 0 f.issueNo fun g => { g with done := g.done + 1 }).flights ∧
        (∀ j, j < 128 → (t.core c).mx.acc.getD (128 * f.done + j) {} =
          loadCell f (f.done * mxPitch f.word (mxFa f.word) + j * (fmtBits (mxFa f.word) / 8)) ((s.core c).mx.acc.getD (128 * f.done + j) {})) ∧
        (mxFa f.word = 11 → mxBit f.word 1 = false → ∀ j, j < 128 →
          ((t.core c).mx.acc.getD (128 * f.done + j) {}).v = fld f.a (f.done * mxPitch f.word 11 + j * 16) 12) ∧
        (mxFa f.word = 11 → mxBit f.word 1 = true → ∀ j, j < 128 → ((t.core c).mx.acc.getD (128 * f.done + j) {}).v =
          (((s.core c).mx.acc.getD (128 * f.done + j) {}).v + fld f.a (f.done * mxPitch f.word 11 + j * 16) 12) % 2 ^ 96) ∧
        (∀ i, (i < 128 * f.done ∨ 128 * f.done + 128 ≤ i) → (t.core c).mx.acc.getD i {} = (s.core c).mx.acc.getD i {}) ∧
        (t.core c).mx.kind = (s.core c).mx.kind ∧ (t.core c).sp = (s.core c).sp ∧ (∀ d, d ≠ c → t.core d = s.core d) ∧ t = { s with cores := t.cores }) ∧
    (now < f.issue + 8 + f.done → exec (.loadAccRowWrite c) s = .next s)) ∧
  (∀ (s : State) (c p l now i : Nat) (f : Flight) (m : CoreSp), s.liveCycle c = some (p, l, now) →
    ((s.core c).flights.find? fun f => f.eng == 0 && f.drainsParams && decide (f.nums.getD 3 0 < 128)) = some f → i = f.nums.getD 3 0 → m = (s.core c).sp.seen s.cc →
    (f.issue + 132 + i ≤ now → m.badIn (mxB f.word * 64 + 16 * i) 16 = none →
      paramBad (mxFa f.word) (memRead m.mem (mxB f.word * 64 + 16 * i) 16) = false →
      ∃ t, exec (.drainParamRead c) s = .next t ∧
        (t.core c).flights.map (fun g => (g.eng, g.issueNo, g.recd, g.nums)) = (s.core c).flights.map (fun g => (g.eng, g.issueNo,
          if g.eng = 0 ∧ g.issueNo = f.issueNo then (g.recd ++ memRead m.mem (mxB f.word * 64 + 16 * i) 16, g.nums.set 3 (i + 1)) else (g.recd, g.nums))) ∧
        (t.core c).sp = (s.core c).sp ∧ (t.core c).mx = (s.core c).mx ∧ (∀ d, d ≠ c → t.core d = s.core d) ∧ t = { s with cores := t.cores }) ∧
    (f.issue + 132 + i ≤ now → m.badIn (mxB f.word * 64 + 16 * i) 16 = none →
      paramBad (mxFa f.word) (memRead m.mem (mxB f.word * 64 + 16 * i) 16) = true → s.faultFree p c →
      ∃ t, exec (.drainParamRead c) s = .next t ∧ s.raises t p c 0 (wTag f.word) 0x10) ∧
    (∀ w, f.issue + 132 + i ≤ now → m.badIn (mxB f.word * 64 + 16 * i) 16 = some w → s.faultFree p c →
      ∃ t, exec (.drainParamRead c) s = .next t ∧ s.raises t p c 0 (wTag f.word) 0x16) ∧
    (now < f.issue + 132 + i → exec (.drainParamRead c) s = .next s)) ∧
  (∀ (s : State) (c p l now i : Nat) (f : Flight), s.liveCycle c = some (p, l, now) →
    mxNext Flight.mxRows (fun f => f.op == 2 && decide (f.mxRows < 128)) [] (s.core c).flights = some f → i = f.mxRows →
    (f.issue + 136 + i ≤ now → (f.drainsParams = true → i < f.nums.getD 3 0) →
      ((rowCells (s.core c).mx.acc i).any fun x => x.res != x.check (f.nums.getD 2 0)) = false →
      ∃ t, exec (.drainRowRead c) s = .next t ∧
        (t.core c).flights = ((s.core c).modFlight 0 f.issueNo fun g => { g with
          nums := g.nums.set 4 (i + 1), done := if mxBit f.word 2 then i + 1 else g.done
          writes := if mxBit f.word 2 then g.writes else g.writes ++ [drainRow f i (rowCells (s.core c).mx.acc i)] }).flights ∧
        (∀ j, j < 128 → (t.core c).mx.acc.getD (128 * i + j) {} = {}) ∧
        (∀ n, (n < 128 * i ∨ 128 * i + 128 ≤ n) → (t.core c).mx.acc.getD n {} = (s.core c).mx.acc.getD n {}) ∧
        (t.core c).cnt = (if mxBit f.word 2 && i == 127 then ((s.core c).count [(0x180, 1)]).cnt else (s.core c).cnt) ∧
        (t.core c).sp = (s.core c).sp ∧ (∀ d, d ≠ c → t.core d = s.core d) ∧ t = { s with cores := t.cores }) ∧
    (f.issue + 136 + i ≤ now → (f.drainsParams = true → i < f.nums.getD 3 0) →
      ((rowCells (s.core c).mx.acc i).any fun x => x.res != x.check (f.nums.getD 2 0)) = true → s.faultFree p c →
      ∃ t, exec (.drainRowRead c) s = .next t ∧ s.raises t p c 0 (wTag f.word) 0x12 ∧ (∀ j, j < 128 → (t.core c).mx.acc.getD (128 * i + j) {} = {})) ∧
    ((now < f.issue + 136 + i ∨ (f.drainsParams = true ∧ f.nums.getD 3 0 ≤ i)) → exec (.drainRowRead c) s = .next s)) ∧
  (∀ (f : Flight) (i : Nat) (cells : List Acc), (drainRow f i cells).cycle = f.issue + 144 + i ∧
    (drainRow f i cells).addr = mxA f.word * 64 + i * mxPitch f.word (mxFa f.word)) ∧
  (∀ (s : State) (c p l now : Nat) (f : Flight) (w : PWrite) (ws : List PWrite), s.liveCycle c = some (p, l, now) →
    ((s.core c).flights.find? fun f => f.eng == 0 && f.op == 2 && !f.writes.isEmpty) = some f → f.writes = w :: ws →
    (w.cycle ≤ now → w.data ≠ [] →
      ∃ t, exec (.drainRowWrite c) s = .next t ∧ (t.core c).flights = ((s.core c).modFlight 0 f.issueNo fun g => { g with writes := ws, done := g.done + 1 }).flights ∧
        memRead (t.core c).sp.mem w.addr w.data.length = w.data ∧
        (∀ a, (a < w.addr ∨ w.addr + w.data.length ≤ a) → memGet (t.core c).sp.mem a = memGet (s.core c).sp.mem a) ∧ (t.core c).mx = (s.core c).mx ∧
        (t.core c).cnt = (((s.core c).count w.cnt).count (if f.done = 127 then [(0x180, 1)] else [])).cnt ∧
        (∀ d, d ≠ c → t.core d = s.core d) ∧ t = { s with cores := t.cores }) ∧
    (now < w.cycle → exec (.drainRowWrite c) s = .next s)) ∧
  ∀ (s : State) (c : Nat), (s.liveCycle c = none ∨ (s.core c).flights = []) →
    exec (.mmContribution c) s = .next s ∧ exec (.loadAccRowWrite c) s = .next s ∧ exec (.drainParamRead c) s = .next s ∧
    exec (.drainRowRead c) s = .next s ∧ exec (.drainRowWrite c) s = .next s

/-- R148, R156, R164: what an MM of two 8-bit integer tiles adds to a cell of the EXACT array: the sum over k of the products of element i of vector k of A
and element j of vector k of B, in units of 2^-32, modulo 2^96; no special bit changes. -/
def Obligations.IntegerMatrixProduct : Prop :=
  ∀ (w : IWord) (f : Flight) (i j : Nat) (cell : Acc), mxFa w = 4 → mxFb w = 4 → mxBit w 1 = false → f.nums = [0, 0, mxK w, 128, 128, 1] → i < 128 → j < 128 →
    (mmCell w f i j cell).sn = cell.sn ∧ (mmCell w f i j cell).spos = cell.spos ∧ (mmCell w f i j cell).sm = cell.sm ∧
    (((mmCell w f i j cell).v : Int) - (cell.v + 4294967296 * ((List.range (mxK w)).map fun k =>
      toSigned 8 (f.a.getD (128 * k + i) 0).toNat * toSigned 8 (f.b.getD (128 * k + j) 0).toNat).sum)) % 2 ^ 96 = 0

/-! ### The vector engine (07) -/

/-- R205 to R207: every vector instruction issues in one form: it takes its occupancy, and its results, computed from what its groups read of the
scratchpad, wait for their cycles; nothing is written at the issue. -/
def Obligations.VectorInstructionsIssue : Prop :=
  ∀ (s : State) (c : Nat) (x : Ctx) (op : Nat) (i : Instr),
    (op, i) ∈ [(0x01, Instr.add c), (0x02, .sub c), (0x03, .mul c), (0x04, .mad c), (0x05, .min c), (0x06, .max c), (0x07, .abs c), (0x08, .neg c),
      (0x09, .cvt c), (0x0A, .clamp c), (0x10, .cmpeq c), (0x11, .cmpne c), (0x12, .cmplt c), (0x13, .cmple c), (0x14, .sel c), (0x20, .exp2 c),
      (0x21, .log2 c), (0x22, .rcp c), (0x23, .rsqrt c), (0x24, .tanh c), (0x30, .rsum c), (0x31, .rmax c), (0x32, .rmin c), (0x33, .rargmax c),
      (0x38, .softmax c), (0x40, .xadd c), (0x41, .xcvt c), (0x48, .thresh c)] →
    s.issues c 1 op vxReq x →
    ∃ t f, exec i s = .next t ∧ s.issued t x (vxReq x) ∧ (t.core c).carries x f ∧ (s.core c).sameData (t.core c) ∧
      f.sig = some (x.now + vxOcc x.word (vxShape x) + (vxCL op (vxStrict x.word) (vxBm x.word)).2 + 4) ∧ f.total = f.writes.length ∧ f.done = 0 ∧
      f.writes = (vxCompute ⟨x.word, vxShape x, (s.core c).keys, (s.part x.p).ctl.stepCount⟩ x.now x.m []).map
        (fun z => { z with src := vxSrc x.word (vxShape x) x.m }) ∧
      (vxReq x).occ = vxOcc x.word (vxShape x)

/-- R166, R206, R217, R239, R243: the events of a vector instruction in flight. A group's results reach the scratchpad at their cycle, and no byte outside them changes; the
parameter record of a row of XCVT is read and counted as read, one that fails its detection code raises SP_ERROR and one that is not valid DRAIN_PARAM. Neither changes anything while nothing
is due. -/
def Obligations.VectorResultsLand : Prop :=
  (∀ (s : State) (c p l now : Nat) (f : Flight) (w : PWrite) (ws : List PWrite), s.liveCycle c = some (p, l, now) →
    ((s.core c).flights.find? fun f => f.eng == 1 && !f.writes.isEmpty) = some f → f.writes = w :: ws →
    (w.cycle ≤ now → (f.op = 0x41 → f.done / max 1 (f.nums.getD 3 0) < f.nums.getD 4 0) → w.data ≠ [] →
      ∃ t, exec (.vxGroupWrite c) s = .next t ∧ (t.core c).flights = ((s.core c).modFlight 1 f.issueNo fun g => { g with writes := ws, done := g.done + 1 }).flights ∧
        memRead (t.core c).sp.mem w.addr w.data.length = w.data ∧
        (∀ a, (a < w.addr ∨ w.addr + w.data.length ≤ a) → memGet (t.core c).sp.mem a = memGet (s.core c).sp.mem a) ∧ (t.core c).mx = (s.core c).mx ∧
        (t.core c).cnt = ((s.core c).count w.cnt).cnt ∧ (t.core c).fcnt = (s.core c).fcnt ∧ (t.core c).eng = (s.core c).eng ∧
        (∀ d, d ≠ c → t.core d = s.core d) ∧ t = { s with cores := t.cores }) ∧
    ((now < w.cycle ∨ (f.op = 0x41 ∧ f.nums.getD 4 0 ≤ f.done / max 1 (f.nums.getD 3 0))) → exec (.vxGroupWrite c) s = .next s)) ∧
  (∀ (s : State) (c p l now r : Nat) (f : Flight) (m : CoreSp), s.liveCycle c = some (p, l, now) →
    ((s.core c).flights.find? fun f => f.eng == 1 && f.op == 0x41 && decide (f.nums.getD 4 0 < f.nums.getD 2 0)) = some f → r = f.nums.getD 4 0 →
    m = (s.core c).sp.seen s.cc →
    (f.issue + 4 + 2 * r * f.nums.getD 3 0 ≤ now → m.badIn (vxB f.word * 512 + 16 * r) 16 = none →
      paramBad (readShape f.recd).fd (memRead m.mem (vxB f.word * 512 + 16 * r) 16) = false →
      ∃ t, exec (.xcvtRecordRead c) s = .next t ∧ t.core c = (s.core c).modFlight 1 f.issueNo (fun g => { g with nums := g.nums.set 4 (r + 1) }) ∧
        (∀ d, d ≠ c → t.core d = s.core d) ∧ t = { s with cores := t.cores }) ∧
    (f.issue + 4 + 2 * r * f.nums.getD 3 0 ≤ now → m.badIn (vxB f.word * 512 + 16 * r) 16 = none →
      paramBad (readShape f.recd).fd (memRead m.mem (vxB f.word * 512 + 16 * r) 16) = true → s.faultFree p c →
      ∃ t, exec (.xcvtRecordRead c) s = .next t ∧ s.raises t p c 1 (wTag f.word) 0x10) ∧
    (∀ w, f.issue + 4 + 2 * r * f.nums.getD 3 0 ≤ now → m.badIn (vxB f.word * 512 + 16 * r) 16 = some w → s.faultFree p c →
      ∃ t, exec (.xcvtRecordRead c) s = .next t ∧ s.raises t p c 1 (wTag f.word) 0x16) ∧
    (now < f.issue + 4 + 2 * r * f.nums.getD 3 0 → exec (.xcvtRecordRead c) s = .next s)) ∧
  ∀ (s : State) (c : Nat), (s.liveCycle c = none ∨ (s.core c).flights = []) →
    exec (.vxGroupWrite c) s = .next s ∧ exec (.xcvtRecordRead c) s = .next s

/-- R183, R189, R190, R208 to R210: the arithmetic of the vector engine on 32-bit integers, and of its compares. Sums, differences, products, minima,
maxima, magnitudes and negations are exact, and those outside the format are clamped to its ends; a compare writes 1 or 0. -/
def Obligations.IntegerVectorResults : Prop :=
  ∀ (v : VEnv) (r n : Nat) (prm : Bytes) (i : Item) (a b : Int), v.h.fa = 10 → v.h.fb = 10 → v.h.fd = 10 → vxBm v.w ≠ 3 → a = toSigned 32 i.a → b = toSigned 32 i.b →
    (wOp v.w = 0x01 → (vxElem v r n prm i).code = ofSigned 32 (max (-2147483648) (min 2147483647 (a + b)))) ∧
    (wOp v.w = 0x02 → (vxElem v r n prm i).code = ofSigned 32 (max (-2147483648) (min 2147483647 (a - b)))) ∧
    (wOp v.w = 0x03 → (vxElem v r n prm i).code = ofSigned 32 (max (-2147483648) (min 2147483647 (a * b)))) ∧
    (wOp v.w = 0x05 → (vxElem v r n prm i).code = ofSigned 32 (min a b)) ∧ (wOp v.w = 0x06 → (vxElem v r n prm i).code = ofSigned 32 (max a b)) ∧
    (wOp v.w = 0x07 → (vxElem v r n prm i).code = ofSigned 32 (min 2147483647 (a.natAbs : Int))) ∧
    (wOp v.w = 0x08 → (vxElem v r n prm i).code = ofSigned 32 (min 2147483647 (-a))) ∧
    (wOp v.w = 0x10 → (vxElem v r n prm i).code = if a = b then 1 else 0) ∧ (wOp v.w = 0x11 → (vxElem v r n prm i).code = if a = b then 0 else 1) ∧
    (wOp v.w = 0x12 → (vxElem v r n prm i).code = if a < b then 1 else 0) ∧ (wOp v.w = 0x13 → (vxElem v r n prm i).code = if a ≤ b then 1 else 0) ∧
    (wOp v.w = 0x14 → (vxElem v r n prm i).code = if i.on then i.a else i.b)

/-- R213: the lane tree combines neighbours first, in one level for each halving of the lanes (seven over 128): each lane's result with the lane beside it,
then the pairs, and so on; a lane is its own result over one lane. An absent lane gives the other operand, and two absent ones an absent one. -/
def Obligations.LaneTreeOrder : Prop :=
  (∀ (f : RedV → RedV → RedV) (x : Option RedV), laneTree (redOpt f) 0 [x] = x ∧ redOpt f none x = x ∧ redOpt f x none = x) ∧
  (∀ (f : RedV → RedV → RedV) (a b : RedV), redOpt f (some a) (some b) = some (f a b)) ∧
  (∀ (f : RedV → RedV → RedV) (n : Nat) (l r : List (Option RedV)), l.length = 2 ^ n → r.length = 2 ^ n →
    laneTree (redOpt f) (n + 1) (l ++ r) = redOpt f (laneTree (redOpt f) n l) (laneTree (redOpt f) n r)) ∧
  ∀ (f : RedV → RedV → RedV) (n : Nat), laneTree (redOpt f) n (List.replicate (2 ^ n) none) = none


/-! ### The stream engines (08) -/

/-- R255, R257, R261 to R263: LOAD, STORE and ZERO issue in one form: the descriptor is taken, the units are in flight at their due cycles, none moved yet, the
signal point is the last due cycle plus 1, or plus 1,200 for a STORE; the read requests of a LOAD leave for as long as a buffer slot is free; no scratchpad and no partition's memory
changes at the issue. -/
def Obligations.StreamInstructionsIssue : Prop :=
  ∀ (s : State) (c e op : Nat) (x : Ctx) (i : Instr),
    ((op = 1 ∧ (e = 2 ∨ e = 3) ∧ i = .load c e) ∨ (op = 2 ∧ e = 4 ∧ i = .store c) ∨ (op = 3 ∧ (e = 2 ∨ e = 3) ∧ i = .zero c e)) →
    s.issues c e op (streamReq s) x →
    ∃ t f st, exec i s = .next t ∧ s.issuedOn t x (streamReq s x) ∧ s.onCore { t with hbm := s.hbm } x.p c ∧ (op ≠ 1 → t.hbm = s.hbm) ∧
      (t.core c).carries x f ∧ (s.core c).sameData (t.core c) ∧
      f.sig = some (lastDueOf op x.now (descOf x) + if op = 2 then 1200 else 1) ∧ f.total = sdUnits op (descOf x) ∧
      ((t.core c).eng.getD e {}).lastDue = some (lastDueOf op x.now (descOf x)) ∧ st ∈ (t.core c).strms ∧ st.eng = e ∧ st.issueNo = x.issueNo ∧
      st.word = x.word ∧ st.recd = memRead x.m.mem (stDesc x.word * 64) 64 ∧ st.issue = x.now ∧ st.moved = 0 ∧ st.got = [] ∧ st.wbuf = [] ∧
      (op = 1 → st.sent = st.units ∨ (t.core c).slotFree st st.sent = false)

/-- R243 to R245, R259, R261 to R263, R265: the next unit of the engine's oldest stream that has one left moves at its due cycle. A LOAD unit whose data stands in the buffer goes to the 64 bytes
of its place, converted, with its poison; a ZERO unit writes 64 zero bytes; a STORE unit with a buffer slot is read, converted, into the write buffer and changes no byte, one that is poisoned raises
POISON_CONSUMED, one that fails its detection code SP_ERROR. Nothing moves before its due cycle, nor a LOAD unit without its data, a STORE unit without a slot, or on a
stopped engine. -/
def Obligations.StreamUnitsMove : Prop :=
  ∀ (s : State) (c e p l : Nat) (t : Strm), s.owner c = some (p, l) → ((s.core c).strms.find? fun t => t.eng == e && decide (t.moved < t.units)) = some t →
    ((s.part p).run.stepRun = true → (s.part p).run.held = false → t.due t.moved ≤ (s.part p).run.stepCyc → ((s.core c).eng.getD e {}).stopped = false → t.op = 1 →
      ∀ (raw : Bytes) (poison : Bool), (t.got.find? fun x => x.1 == t.moved) = some (t.moved, raw, poison) →
      ∃ u, exec (.streamUnitDue c e) s = .next u ∧
        memRead (u.core c).sp.mem (t.geo t.moved).2.2.2 64 =
          fit 64 (convertRun (hbmFmt 1 t.recd) (spFmt 1 t.recd) (sdStrict t.recd) (sdSat t.recd) raw (t.geo t.moved).2.2.1).1 ∧
        (∀ a, (a < (t.geo t.moved).2.2.2 ∨ (t.geo t.moved).2.2.2 + 64 ≤ a) → memGet (u.core c).sp.mem a = memGet (s.core c).sp.mem a) ∧
        (u.core c).sp.poison.contains ((t.geo t.moved).2.2.2 / 64) = poison ∧
        (u.core c).strms.map (fun z => { z with sent := 0 }) = ((s.core c).modStrm t.eng t.issueNo fun z =>
          { z with moved := t.moved + 1, got := z.got.filter fun x => x.1 != t.moved }).strms.map (fun z => { z with sent := 0 }) ∧
        (u.core c).mx = (s.core c).mx ∧ (u.core c).eng = (s.core c).eng ∧ (∀ d, d ≠ c → u.core d = s.core d) ∧ u = { s with cores := u.cores, hbm := u.hbm }) ∧
    ((s.part p).run.stepRun = true → (s.part p).run.held = false → t.due t.moved ≤ (s.part p).run.stepCyc → ((s.core c).eng.getD e {}).stopped = false → t.op = 3 →
      ∃ u, exec (.streamUnitDue c e) s = .next u ∧ memRead (u.core c).sp.mem (t.geo t.moved).2.2.2 64 = zeros 64 ∧
        (∀ a, (a < (t.geo t.moved).2.2.2 ∨ (t.geo t.moved).2.2.2 + 64 ≤ a) → memGet (u.core c).sp.mem a = memGet (s.core c).sp.mem a) ∧
        (∀ d, d ≠ c → u.core d = s.core d) ∧ u = { s with cores := u.cores }) ∧
    ((s.part p).run.stepRun = true → ((s.part p).run.held = false ∨ t.due t.moved ≤ t.issue + 96) → t.due t.moved ≤ (s.part p).run.stepCyc →
      ((s.core c).eng.getD e {}).stopped = false → t.op = 2 → (s.core c).slotFree t t.moved = true → ∀ m, m = (s.core c).sp.seen s.cc →
      (m.poison.contains ((t.geo t.moved).2.2.2 / 64) = false → m.badIn (t.geo t.moved).2.2.2 64 = none →
        ∃ u, exec (.streamUnitDue c e) s = .next u ∧ (u.core c).sp = (s.core c).sp ∧
          (u.core c).strms = ((s.core c).modStrm t.eng t.issueNo fun z => { z with moved := t.moved + 1, wbuf := z.wbuf ++ [(t.moved,
            (convertRun (spFmt 2 t.recd) (hbmFmt 2 t.recd) (sdStrict t.recd) (sdSat t.recd) (memRead m.mem (t.geo t.moved).2.2.2 64)
              (t.geo t.moved).2.2.1).1)] }).strms ∧
          (∀ d, d ≠ c → u.core d = s.core d) ∧ u = { s with cores := u.cores, hbm := u.hbm }) ∧
      (m.poison.contains ((t.geo t.moved).2.2.2 / 64) = true → s.faultFree p c →
        ∃ u, exec (.streamUnitDue c e) s = .next u ∧ s.raises u p c t.eng (wTag t.word) 0x0C ∧ (u.core c).strms = (s.core c).strms) ∧
      (∀ w, m.poison.contains ((t.geo t.moved).2.2.2 / 64) = false → m.badIn (t.geo t.moved).2.2.2 64 = some w → s.faultFree p c →
        ∃ u, exec (.streamUnitDue c e) s = .next u ∧ s.raises u p c t.eng (wTag t.word) 0x16 ∧ (u.core c).strms = (s.core c).strms)) ∧
    (((s.part p).run.stepRun = false ∨ (s.part p).run.stepCyc < t.due t.moved ∨ ((s.core c).eng.getD e {}).stopped = true ∨
        ((s.part p).run.held = true ∧ (t.op ≠ 2 ∨ t.issue + 96 < t.due t.moved)) ∨
        (t.op = 1 ∧ ∀ y ∈ t.got, y.1 ≠ t.moved) ∨ (t.op = 2 ∧ (s.core c).slotFree t t.moved = false)) → exec (.streamUnitDue c e) s = .next s)

/-- R264, R265, R270: the stream checks. Units whose check cycle has come are counted as checked; where some are missing, or have no slot, one hold is announced for
them and counted, of the kind of the first; so for the acknowledgements of a STORE 96 cycles before its signal point. While no check is due nothing changes. -/
def Obligations.StreamChecks : Prop :=
  (∀ (s : State) (c e p l now : Nat) (corrected retried : Bool) (t : Strm) (miss : List Nat), s.liveCycle c = some (p, l, now) →
    ((s.core c).strms.find? fun t => t.eng == e && t.op == 1 && !(t.toCheck now).isEmpty) = some t →
    miss = (t.toCheck now).filter (fun u => !(t.got.any fun x => x.1 == u) && decide (t.moved ≤ u)) →
    (miss = [] →
      ∃ u, exec (.loadCheck c e corrected retried) s = .next u ∧
        u.core c = (s.core c).modStrm e t.issueNo (fun z => { z with checked := z.checked + (t.toCheck now).length }) ∧
        (∀ d, d ≠ c → u.core d = s.core d) ∧ u = { s with cores := u.cores }) ∧
    (∀ k ks, miss = k :: ks →
      ∃ u, exec (.loadCheck c e corrected retried) s = .next u ∧
        (u.part p).run.holds = (s.part p).run.holds ++ [⟨if retried then 3 else if corrected then 1 else 0, some (c, t.eng, t.issueNo * 33554432 + k),
          (s.part p).run.logical + 96, none, none, false⟩] ∧ (u.part p).cnt = { (s.part p).cnt with holdAnn := satAdd (s.part p).cnt.holdAnn 1 } ∧
        (u.core c).strms = (s.core c).strms.map (fun z => if z.eng = e ∧ z.issueNo = t.issueNo then
          { z with checked := z.checked + (t.toCheck now).length, late := z.late ++ [(k, miss)] } else z) ∧
        (u.core c).sp = { (s.core c).sp with lateCnt := satAdd (s.core c).sp.lateCnt 1 } ∧ (∀ d, d ≠ c → u.core d = s.core d) ∧
        (∀ r, r ≠ p → u.part r = s.part r) ∧ u = { s with cores := u.cores, parts := u.parts, hbm := u.hbm })) ∧
  (∀ (s : State) (c p l now : Nat) (corrected retried : Bool) (t : Strm) (miss : List Nat), s.liveCycle c = some (p, l, now) →
    ((s.core c).strms.find? fun t => t.eng == 4 && !(t.toCheck now).isEmpty) = some t →
    miss = (t.toCheck now).filter (fun u => !(s.core c).slotFree t u) →
    (miss = [] →
      ∃ u, exec (.storeCheck c corrected retried) s = .next u ∧
        u.core c = (s.core c).modStrm 4 t.issueNo (fun z => { z with checked := z.checked + (t.toCheck now).length }) ∧
        (∀ d, d ≠ c → u.core d = s.core d) ∧ u = { s with cores := u.cores }) ∧
    (∀ k ks, miss = k :: ks →
      ∃ u, exec (.storeCheck c corrected retried) s = .next u ∧
        (u.part p).run.holds = (s.part p).run.holds ++ [⟨if retried then 3 else if corrected then 1 else 0, some (c, 4, t.issueNo * 33554432 + k),
          (s.part p).run.logical + 96, none, none, false⟩] ∧ (u.part p).cnt = { (s.part p).cnt with holdAnn := satAdd (s.part p).cnt.holdAnn 1 } ∧
        (u.core c).strms = (s.core c).strms.map (fun z => if z.eng = 4 ∧ z.issueNo = t.issueNo then
          { z with checked := z.checked + (t.toCheck now).length, late := z.late ++ [(k, miss)] } else z) ∧
        (u.core c).sp = { (s.core c).sp with lateCnt := satAdd (s.core c).sp.lateCnt 1 } ∧ (∀ d, d ≠ c → u.core d = s.core d) ∧
        (∀ r, r ≠ p → u.part r = s.part r) ∧ u = { s with cores := u.cores, parts := u.parts, hbm := u.hbm })) ∧
  (∀ (s : State) (c p l now : Nat) (corrected retried : Bool) (t : Strm), s.liveCycle c = some (p, l, now) →
    ((s.core c).strms.find? fun t => t.eng == 4 && !(t.toCheck now).isEmpty) = none →
    ((s.core c).strms.find? fun t => t.eng == 4 && !t.sigChecked && decide (lastDueOf 2 t.issue t.recd + 1200 ≤ now + 96)) = some t →
    (t.acked.length = t.units →
      ∃ u, exec (.storeCheck c corrected retried) s = .next u ∧ u.core c = (s.core c).modStrm 4 t.issueNo (fun z => { z with sigChecked := true }) ∧
        (∀ d, d ≠ c → u.core d = s.core d) ∧ u = { s with cores := u.cores }) ∧
    (t.acked.length ≠ t.units →
      ∃ u, exec (.storeCheck c corrected retried) s = .next u ∧
        (u.part p).run.holds = (s.part p).run.holds ++ [⟨if retried then 3 else if corrected then 1 else 0, some (c, 4, t.issueNo * 33554432 + t.units),
          (s.part p).run.logical + 96, none, none, false⟩] ∧
        (u.core c).strms = (s.core c).strms.map (fun z => if z.eng = 4 ∧ z.issueNo = t.issueNo then
          { z with sigChecked := true, late := z.late ++ [(t.units, [t.units])] } else z) ∧ (∀ d, d ≠ c → u.core d = s.core d) ∧
        (∀ r, r ≠ p → u.part r = s.part r) ∧ u = { s with cores := u.cores, parts := u.parts, hbm := u.hbm })) ∧
  ∀ (s : State) (c e p l now : Nat) (corrected retried : Bool), s.liveCycle c = some (p, l, now) →
    (((s.core c).strms.find? fun t => t.eng == e && t.op == 1 && !(t.toCheck now).isEmpty) = none → exec (.loadCheck c e corrected retried) s = .next s) ∧
    (((s.core c).strms.find? fun t => t.eng == 4 && !(t.toCheck now).isEmpty) = none →
      ((s.core c).strms.find? fun t => t.eng == 4 && !t.sigChecked && decide (lastDueOf 2 t.issue t.recd + 1200 ≤ now + 96)) = none →
      exec (.storeCheck c corrected retried) s = .next s)

/-- R134, R244, R259, R263 to R265, R275, R341, R343: data and acknowledgements. The data of a LOAD unit stands in the buffer when the memory network has brought it, as HBM holds it, with the poison of
its units, and a hold that waited for it ends 96 cycles later; the data of a fetch is complete, and its hold ends likewise; a STORE unit is written from the buffer into HBM, and no other byte changes, outside the refresh window
and once its data has come; its acknowledgement frees its slot once it has come. -/
def Obligations.StreamDataMoves : Prop :=
  (∀ (s : State) (c e p l n k : Nat) (t : Strm), s.owner c = some (p, l) → e ≠ 6 → (s.core c).strm e n = some t →
    (t.op = 1 → k < t.units → t.moved ≤ k → (∀ y ∈ t.got, y.1 ≠ k) → (s.core c).slotFree t k = true → s.mPending (c, t.eng, t.issueNo, k) mData = false →
      (t.late = [] →
        ∃ u, exec (.streamDataArrival c e n k) s = .next u ∧
          (u.core c).strm e n = some { t with got := t.got ++ [(k, memRead (s.part p).img.hbm (t.hbmAt k).1 (t.hbmAt k).2,
            (span ((t.hbmAt k).1 / 64) (((t.hbmAt k).1 + (t.hbmAt k).2 - 1) / 64)).any fun x => (s.part p).img.poisoned (x * 64))] } ∧
          (u.core c).sp = (s.core c).sp ∧ (∀ d, d ≠ c → u.core d = s.core d) ∧ u = { s with cores := u.cores, hbm := u.hbm }) ∧
      (∀ v, t.late = [(v, [k])] →
        ∃ u t', exec (.streamDataArrival c e n k) s = .next u ∧ (u.core c).strm e n = some t' ∧ t'.late = [] ∧ t'.got.length = t.got.length + 1 ∧
          (u.part p).run.holds = (s.part p).run.holds.map (fun h =>
            if h.ann = some (c, t.eng, t.issueNo * 33554432 + v) ∧ h.fin = none then { h with fin := some (s.cc + 96) } else h) ∧
          (u.core c).sp = (s.core c).sp ∧ (∀ d, d ≠ c → u.core d = s.core d) ∧ (∀ r, r ≠ p → u.part r = s.part r) ∧
          u = { s with cores := u.cores, parts := u.parts, hbm := u.hbm })) ∧
    ((t.op ≠ 1 ∨ t.units ≤ k ∨ k < t.moved ∨ (t.got.any fun y => y.1 == k) = true ∨ (s.core c).slotFree t k = false ∨
      s.mPending (c, t.eng, t.issueNo, k) mData = true) → exec (.streamDataArrival c e n k) s = .next s)) ∧
  (∀ (s : State) (c p l n k : Nat) (f : Fetch), s.owner c = some (p, l) →
    ((s.core c).seq.fetches.find? fun f => f.src == 0 && f.issueNo == n && f.queue == k) = some f →
    ∃ u, exec (.streamDataArrival c 6 n k) s = .next u ∧
      (u.core c).seq.fetches = (s.core c).seq.fetches.map (fun g => if g.src = 0 ∧ g.issueNo = n ∧ g.queue = k then { g with data := true, late := false } else g) ∧
      (u.part p).run.holds = (if f.late then (s.part p).run.holds.map (fun h =>
          if h.ann = some (c, 6, n * 8 + k) ∧ h.fin = none then { h with fin := some (s.cc + 96) } else h) else (s.part p).run.holds) ∧
      (u.core c).sp = (s.core c).sp ∧ (∀ d, d ≠ c → u.core d = s.core d) ∧ (∀ r, r ≠ p → u.part r = s.part r) ∧
      u = { s with cores := u.cores, parts := u.parts }) ∧
  (∀ (s : State) (c p l n k : Nat) (t : Strm) (d : Bytes), s.owner c = some (p, l) → (s.core c).strm 4 n = some t →
    (t.wbuf.find? fun x => x.1 == k) = some (k, d) → d ≠ [] →
    ((∀ i row, s.pcOf (s.part p) (t.hbmAt k).1 = some (i, row) → s.refreshing i = false) → s.mPending (c, 4, n, k) mWrite = false →
      ∃ u, exec (.hbmWrite c n k) s = .next u ∧ memRead (u.part p).img.hbm (t.hbmAt k).1 d.length = d ∧
        (∀ a, (a < (t.hbmAt k).1 ∨ (t.hbmAt k).1 + d.length ≤ a) → memGet (u.part p).img.hbm a = memGet (s.part p).img.hbm a) ∧
        (u.core c).strms = ((s.core c).modStrm 4 n fun z => { z with wbuf := z.wbuf.filter fun y => y.1 != k, written := z.written ++ [k] }).strms ∧
        (u.core c).sp = (s.core c).sp ∧ (∀ r, r ≠ p → u.part r = s.part r) ∧ (∀ d, d ≠ c → u.core d = s.core d) ∧
        u = { s with cores := u.cores, parts := u.parts, hbm := u.hbm }) ∧
    (((∃ i row, s.pcOf (s.part p) (t.hbmAt k).1 = some (i, row) ∧ s.refreshing i = true) ∨ s.mPending (c, 4, n, k) mWrite = true) →
      exec (.hbmWrite c n k) s = .next s)) ∧
  ∀ (s : State) (c e p l n k : Nat) (t : Strm), s.owner c = some (p, l) → (s.core c).strm e n = some t →
    (k ∈ t.written → k ∉ t.acked → s.mPending (c, e, n, k) mAck = false → (∀ z ∈ (s.core c).strms, z.late = []) →
      ∃ u, exec (.storeWriteAck c e n k) s = .next u ∧ (u.core c).strms = ((s.core c).modStrm e n fun z => { z with acked := z.acked ++ [k] }).strms ∧
        (u.core c).sp = (s.core c).sp ∧ (∀ d, d ≠ c → u.core d = s.core d) ∧ u = { s with cores := u.cores, hbm := u.hbm }) ∧
    (k ∈ t.written → k ∉ t.acked → s.mPending (c, e, n, k) mAck = false → e = 4 → (s.core c).strms = [t] → ∀ v, t.late = [(v, [t.units])] →
      t.acked.length + 1 = t.units →
      ∃ u, exec (.storeWriteAck c e n k) s = .next u ∧ (u.core c).strms = [{ t with acked := t.acked ++ [k], late := [] }] ∧
        (u.part p).run.holds = (s.part p).run.holds.map (fun h =>
          if h.ann = some (c, t.eng, t.issueNo * 33554432 + v) ∧ h.fin = none then { h with fin := some (s.cc + 96) } else h) ∧
        (∀ d, d ≠ c → u.core d = s.core d) ∧ (∀ r, r ≠ p → u.part r = s.part r) ∧ u = { s with cores := u.cores, parts := u.parts, hbm := u.hbm }) ∧
    ((k ∉ t.written ∨ k ∈ t.acked ∨ s.mPending (c, e, n, k) mAck = true) → exec (.storeWriteAck c e n k) s = .next s)

/-! ### The channel engine and the data network (09) -/

/-- R289, R293, R295 to R298: the channel instructions issue. SEND sends a reservation with the record's size, the channel's epoch and number, and counts
the number on; TAKE copies the message of the ring that is picked into scratchpad and marks it taken; RREAD sends its request and expects its units; RWRITE
makes the target expect its units, and they leave one in a cycle where no earlier transfer waits for the port; the ring instructions open (an unused ring stays closed), close and reset a ring, and what waits for a ring
that is closed or reset is refused. -/
def Obligations.ChannelInstructionsIssue : Prop :=
  (∀ (s : State) (c : Nat) (x : Ctx), s.issues c 5 1 sendReq x → x.l < 1008 →
    ∃ t f g, exec (.send c) s = .next t ∧ s.issuedOn t x (sendReq x) ∧ (t.core c).carries x f ∧ g ∈ (t.part x.p).run.net ∧ g.kind = 0 ∧ g.src = x.l ∧
      g.dst = chDest x.word ∧ g.num = x.issueNo ∧ g.at_ = x.now ∧ g.nums.getD 0 0 = chRing x.word ∧ g.nums.getD 1 0 = recSize (chLen x.word) ∧
      g.nums.getD 2 0 = ((s.core c).ch.chans.getD (chChan x.word) {}).epoch ∧ g.nums.getD 5 0 = ((s.core c).ch.chans.getD (chChan x.word) {}).seq ∧
      ((t.core c).ch.chans.getD (chChan x.word) {}).seq = ((s.core c).ch.chans.getD (chChan x.word) {}).seq + 1 ∧
      (t.core c).sp.mem = (s.core c).sp.mem ∧ (t.core c).mx = (s.core c).mx ∧ (∀ d, d ≠ c → t.core d = s.core d) ∧
      (∀ r, r ≠ x.p → t.part r = s.part r) ∧ t.part x.p = { s.part x.p with run := (t.part x.p).run } ∧ t = { s with cores := t.cores, parts := t.parts }) ∧
  (∀ (s : State) (c a : Nat) (x : Ctx) (r : RingRec), s.issues c 5 2 takeReq x → ((s.core c).ch.rings.getD (tkRing x.word) {}).pick (tkMatch x.word) x.now = some r →
    a = ((s.core c).ch.rings.getD (tkRing x.word) {}).base + r.at_ % 2 ^ ((s.core c).ch.rings.getD (tkRing x.word) {}).log2 →
    (x.m.badIn a (16 + r.len) = none →
      ∃ t f, exec (.take c) s = .next t ∧ s.issued t x (takeReq x) ∧ (t.core c).carries x f ∧ f.sig = some (x.now + takeOcc x.word + 4) ∧
        r.len ≤ tkMax x.word ∧ memRead (t.core c).sp.mem (chA x.word * 64) (16 + r.len) = memRead x.m.mem a (16 + r.len) ∧
        (∀ b, (b < chA x.word * 64 ∨ chA x.word * 64 + 16 + r.len ≤ b) → memGet (t.core c).sp.mem b = memGet (s.core c).sp.mem b) ∧
        (∀ y ∈ ((t.core c).ch.rings.getD (tkRing x.word) {}).recs, y.at_ = r.at_ → y.taken = some (x.now + takeOcc x.word + 4)) ∧
        (∀ k, k ≠ tkRing x.word → (t.core c).ch.rings.getD k {} = (s.core c).ch.rings.getD k {})) ∧
    (∀ w, x.m.badIn a (16 + r.len) = some w → s.faultFree x.p c →
      ∃ t, exec (.take c) s = .next t ∧ (t.core c).flt.cause = 0x16 ∧ (t.core c).flt.eng = 5 ∧ (t.part x.p).cnt.fCause = 0x16)) ∧
  (∀ (s : State) (c : Nat) (x : Ctx), s.issues c 5 3 (remoteReq false) x → x.l < 1008 →
    ∃ t f g y, exec (.rread c) s = .next t ∧ s.issuedOn t x (remoteReq false x) ∧ (t.core c).carries x f ∧ f.total = rrU x.word ∧
      g ∈ (t.part x.p).run.net ∧ g.kind = 4 ∧ g.src = x.l ∧ g.dst = chDest x.word ∧ g.nums = [rrRemote x.word, rrU x.word, chA x.word] ∧
      y ∈ (t.core c).ch.xfers ∧ y.kind = 5 ∧ y.peer = chDest x.word ∧ y.num = x.issueNo ∧ y.left = rrU x.word ∧ y.toWrite = rrU x.word ∧
      (t.core c).sp.mem = (s.core c).sp.mem ∧ (∀ d, d ≠ c → t.core d = s.core d) ∧ (∀ r, r ≠ x.p → t.part r = s.part r) ∧
      t.part x.p = { s.part x.p with run := (t.part x.p).run } ∧ t = { s with cores := t.cores, parts := t.parts }) ∧
  (∀ (s : State) (c : Nat) (x : Ctx), s.issues c 5 4 (remoteReq true) x → x.l < 1008 → chDest x.word < 1008 →
    ∃ t f y, exec (.rwrite c) s = .next t ∧ (t.core c).carries x f ∧ y ∈ (t.ch x.p (chDest x.word)).xfers ∧ y.kind = 6 ∧ y.peer = x.l ∧ y.num = x.issueNo ∧
      y.left = rrU x.word ∧ y.toWrite = rrU x.word ∧ ((t.core c).eng.getD 5 {}).issued = ((s.core c).eng.getD 5 {}).issued + 1 ∧
      ((∀ o ∈ (s.core c).ch.outs, o.state = 2 ∧ o.num ≠ x.issueNo) → ∀ k, k < rrU x.word → ∃ g ∈ (t.part x.p).run.net, g.kind = 6 ∧ g.src = x.l ∧
        g.dst = chDest x.word ∧ g.num = x.issueNo ∧ g.nums = [rrRemote x.word + k] ∧ g.pull = some (0, (chA x.word + k) * 64, 64) ∧
        g.at_ = max x.now (s.core c).ch.portFree + k) ∧
      (∀ d, (t.core d).sp.mem = (s.core d).sp.mem) ∧ (∀ r, r ≠ x.p → t.part r = s.part r) ∧ t.part x.p = { s.part x.p with run := (t.part x.p).run } ∧
      t = { s with cores := t.cores, parts := t.parts }) ∧
  (∀ (s : State) (c : Nat) (x : Ctx), s.issues c 5 8 ctlReq x → x.l < 1008 →
    ∃ t f, exec (.ringOpen c) s = .next t ∧ s.issued t x (ctlReq x) ∧ (t.core c).carries x f ∧ f.sig = some x.now ∧
      (t.core c).ch.rings.getD (ringOfW x.word) {} =
        { (s.core c).ch.rings.getD (ringOfW x.word) {} with isOpen := ((s.core c).ch.rings.getD (ringOfW x.word) {}).log2 != 0 } ∧
      (∀ k, k ≠ ringOfW x.word → (t.core c).ch.rings.getD k {} = (s.core c).ch.rings.getD k {}) ∧ (t.core c).sp.mem = (s.core c).sp.mem) ∧
  (∀ (s : State) (c : Nat) (x : Ctx), s.issues c 5 9 ctlReq x → x.l < 1008 →
    ∃ t f, exec (.ringClose c) s = .next t ∧ s.issuedOn t x (ctlReq x) ∧ (t.core c).carries x f ∧ f.sig = some x.now ∧
      (t.core c).ch.rings.getD (ringOfW x.word) {} = { (s.core c).ch.rings.getD (ringOfW x.word) {} with isOpen := false } ∧
      (∀ k, k ≠ ringOfW x.word → (t.core c).ch.rings.getD k {} = (s.core c).ch.rings.getD k {}) ∧
      (t.core c).ch.resvs = (s.core c).ch.resvs.filter (fun r => !(r.ring == ringOfW x.word && r.waiting)) ∧
      (t.part x.p).run.net.length = (s.part x.p).run.net.length + ((s.core c).ch.resvs.filter fun r => r.ring == ringOfW x.word && r.waiting).length ∧
      (∀ g ∈ (t.part x.p).run.net, g ∈ (s.part x.p).run.net ∨ (g.kind = 1 ∧ g.src = x.l ∧ g.nums.getD 0 0 = 1 ∧
        ∃ v ∈ (s.core c).ch.resvs, v.waiting = true ∧ v.ring = ringOfW x.word ∧ g.dst = v.src ∧ g.num = v.num)) ∧
      (t.core c).sp.mem = (s.core c).sp.mem ∧ (∀ d, d ≠ c → t.core d = s.core d) ∧ (∀ r, r ≠ x.p → t.part r = s.part r) ∧
      t = { s with cores := t.cores, parts := t.parts }) ∧
  ∀ (s : State) (c : Nat) (x : Ctx), s.issues c 5 0x0A ctlReq x → x.l < 1008 →
    ∃ t f, exec (.ringReset c) s = .next t ∧ s.issuedOn t x (ctlReq x) ∧ (t.core c).carries x f ∧ f.sig = some x.now ∧
      (t.core c).ch.rings.getD (ringOfW x.word) {} = { (s.core c).ch.rings.getD (ringOfW x.word) {} with
        epoch := (((s.core c).ch.rings.getD (ringOfW x.word) {}).epoch + 1) % 65536, head := 0, tail := 0, recs := [] } ∧
      (∀ k, k ≠ ringOfW x.word → (t.core c).ch.rings.getD k {} = (s.core c).ch.rings.getD k {}) ∧
      (t.core c).ch.unread = satAdd (s.core c).ch.unread
        (((s.core c).ch.rings.getD (ringOfW x.word) {}).recs.filter fun y => y.kind == 1 && y.taken.isNone).length ∧
      (t.core c).ch.resvs = (s.core c).ch.resvs.filter (fun r => !(r.ring == ringOfW x.word && r.waiting)) ∧
      (∀ g ∈ (t.part x.p).run.net, g ∈ (s.part x.p).run.net ∨ (g.kind = 1 ∧ g.src = x.l ∧ g.nums.getD 0 0 = 2 ∧
        g.nums.getD 2 0 = (((s.core c).ch.rings.getD (ringOfW x.word) {}).epoch + 1) % 65536 ∧
        ∃ v ∈ (s.core c).ch.resvs, v.waiting = true ∧ v.ring = ringOfW x.word ∧ g.dst = v.src ∧ g.num = v.num)) ∧
      (t.core c).sp.mem = (s.core c).sp.mem ∧ (∀ d, d ≠ c → t.core d = s.core d) ∧ (∀ r, r ≠ x.p → t.part r = s.part r) ∧
      t = { s with cores := t.cores, parts := t.parts }

/-- R287, R289 to R292, R298: reservations, replies and acknowledgements at an endpoint. The controller handles the next reservation, up to four in a cycle and none while a ring instruction for the ring is due:
one of an open ring with room is granted: the tail moves by the record, which the ring then holds, and the grant goes back; one of a closed ring, of another epoch or larger than the ring is refused; one without room, or
behind one that waits, waits in queued mode and raises RING_FULL in slotted mode. The sender's grant sends the record's flits; CLOSED and STALE end the SEND and are counted; TOO_BIG raises MSG_SIZE; the
acknowledgement of a committed message counts it as sent. -/
def Obligations.ReservationsAndReplies : Prop :=
  (∀ (s : State) (p ep now : Nat) (v : Resv) (r : Ring) (behind : Bool), s.epLive p ep = some now → (s.ch p ep).nextResv now = some v →
    ((s.ch p ep).handledAt = now → (s.ch p ep).handled < 4) →
    (ep < 1008 → (s.core ((s.part p).res.place.getD ep 0)).ctlDue v.ring now (s.part p).slotted = false) →
    r = ((s.ch p ep).rings.getD v.ring {}).advance now →
    behind = (!v.waiting && ((s.ch p ep).resvs.any fun u => u.waiting && u.ring == v.ring && !(u.src == v.src && u.num == v.num && u.ring == v.ring)) &&
      r.isOpen && v.epoch == r.epoch && decide (v.size ≤ 2 ^ r.log2)) →
    (∀ pad, behind = false → r.answer v = some (0, pad) →
      ∃ t g, exec (.reservationHandled p ep) s = .next t ∧
        (t.ch p ep).resvs = (s.ch p ep).resvs.filter (fun u => !(u.src == v.src && u.num == v.num && u.ring == v.ring)) ∧
        ((t.ch p ep).rings.getD v.ring {}).tail = r.tail + pad + v.size ∧
        (∃ y ∈ ((t.ch p ep).rings.getD v.ring {}).recs, y = { at_ := r.tail + pad, size := v.size, kind := 1, src := v.src, len := v.len }) ∧
        (∀ y ∈ r.recs, y ∈ ((t.ch p ep).rings.getD v.ring {}).recs) ∧
        (∀ k, k ≠ v.ring → (t.ch p ep).rings.getD k {} = (s.ch p ep).rings.getD k {}) ∧
        (∃ z ∈ (t.ch p ep).xfers, z.kind = 2 ∧ z.peer = v.src ∧ z.num = v.num ∧ z.left = v.size / 64 + (if pad = 0 then 0 else 1)) ∧
        (t.part p).run.net = (s.part p).run.net ++ [g] ∧ g.kind = 1 ∧ g.src = ep ∧ g.dst = v.src ∧ g.num = v.num ∧ g.nums.getD 0 0 = 0 ∧
        g.nums.getD 2 0 = r.tail + pad ∧ now < g.at_ ∧ (∀ q, q ≠ p → t.part q = s.part q) ∧ t = { s with cores := t.cores, parts := t.parts }) ∧
    (∀ code k, behind = false → r.answer v = some (code + 1, k) →
      ∃ t g, exec (.reservationHandled p ep) s = .next t ∧
        (t.ch p ep).resvs = (s.ch p ep).resvs.filter (fun u => !(u.src == v.src && u.num == v.num && u.ring == v.ring)) ∧
        (t.ch p ep).rings.getD v.ring {} = r ∧ (t.part p).run.net = (s.part p).run.net ++ [g] ∧ g.kind = 1 ∧ g.src = ep ∧ g.dst = v.src ∧ g.num = v.num ∧
        g.nums.getD 0 0 = code + 1 ∧ (t.ch p ep).xfers = (s.ch p ep).xfers ∧ (∀ q, q ≠ p → t.part q = s.part q) ∧
        t = { s with cores := t.cores, parts := t.parts }) ∧
    ((behind = true ∨ r.answer v = none) → (s.part p).slotted = false →
      ∃ t, exec (.reservationHandled p ep) s = .next t ∧ (t.ch p ep).resvs = (s.ch p ep).resvs.map (fun u =>
          if u.src = v.src ∧ u.num = v.num ∧ u.ring = v.ring then { u with waiting := true } else u) ∧ (t.ch p ep).rings.getD v.ring {} = r ∧
        (t.part p).run = (s.part p).run ∧ (t.ch p ep).xfers = (s.ch p ep).xfers ∧ (∀ q, q ≠ p → t.part q = s.part q) ∧
        t = { s with cores := t.cores, parts := t.parts }) ∧
    ((behind = true ∨ r.answer v = none) → (s.part p).slotted = true → ep < 1008 → s.owner ((s.part p).res.place.getD ep 0) = some (p, ep) →
      s.faultFree p ((s.part p).res.place.getD ep 0) →
      ∃ t, exec (.reservationHandled p ep) s = .next t ∧ s.raises t p ((s.part p).res.place.getD ep 0) 5 0 0x1B ∧ (t.ch p ep).fRing = v.ring ∧
        (t.ch p ep).fPeer = v.src) ∧
    ((behind = true ∨ r.answer v = none) → (s.part p).slotted = true → 1008 ≤ ep → (∀ h ∈ (s.part p).run.holds, h.kind ≠ 7) →
      ∃ t, exec (.reservationHandled p ep) s = .next t ∧ (t.part p).cnt.fCause = 0x1B ∧ (t.part p).cnt.fEng = 5 ∧ (t.part p).cnt.fCore = ep ∧
        t.cores = s.cores)) ∧
  (∀ (s : State) (p ep now : Nat), s.epLive p ep = some now →
    ((s.ch p ep).nextResv now = none ∨ ((s.ch p ep).handledAt = now ∧ 4 ≤ (s.ch p ep).handled) ∨
      (ep < 1008 ∧ ∃ v, (s.ch p ep).nextResv now = some v ∧ (s.core ((s.part p).res.place.getD ep 0)).ctlDue v.ring now (s.part p).slotted = true)) →
    exec (.reservationHandled p ep) s = .next s) ∧
  (∀ (s : State) (p ep now : Nat) (f : Flit) (o : Xout) (a b : List Xout), s.epLive p ep = some now → (s.part p).run.arrivedFlit 1 ep = some f →
    (s.ch p ep).outs = a ++ o :: b → o.num = f.num → o.kind = 0 → (∀ y ∈ a ++ b, y.num ≠ f.num) →
    (f.nums.getD 0 0 = 0 → (∀ y ∈ a ++ b, y.state = 2) →
      ∃ t l, exec (.reservationReply p ep) s = .next t ∧ (t.part p).run.net = ((s.part p).run.dropFlit f).net ++ l ∧
        l.length = recSize (f.nums.getD 5 0) / 64 + (if f.nums.getD 3 0 = 0 then 0 else 1) ∧
        (∀ k g, l[k]? = some g → g.kind = 2 ∧ g.src = ep ∧ g.dst = o.dst ∧ g.num = f.num ∧ g.at_ = max (now + 2) (s.ch p ep).portFree + k ∧
          (ep < 1008 → f.nums.getD 3 0 = 0 → ∀ fl, (s.core ((s.part p).res.place.getD ep 0)).flightOf 5 f.num = some fl →
            g.pull = bodyPull (fl.nums.getD 2 0 * 64) (f.nums.getD 5 0) k)) ∧
        (∀ d, (t.core d).sp.mem = (s.core d).sp.mem) ∧ (∀ q, q ≠ p → t.part q = s.part q) ∧ t = { s with cores := t.cores, parts := t.parts }) ∧
    (∀ y a', f.nums.getD 0 0 = 0 → a = y :: a' → y.state = 0 →
      ∃ t z, exec (.reservationReply p ep) s = .next t ∧ (t.part p).run.net = ((s.part p).run.dropFlit f).net ∧ (t.ch p ep).outs = a ++ z :: b ∧
        z.state = 1 ∧ z.ready = now + 2 ∧ z.num = f.num ∧ z.flits.length = recSize (f.nums.getD 5 0) / 64 + (if f.nums.getD 3 0 = 0 then 0 else 1) ∧
        (∀ d, (t.core d).sp = (s.core d).sp) ∧ (∀ q, q ≠ p → t.part q = s.part q) ∧ t = { s with cores := t.cores, parts := t.parts }) ∧
    (f.nums.getD 0 0 = 1 → (∀ y ∈ a ++ b, y.state ≠ 1) →
      ∃ t, exec (.reservationReply p ep) s = .next t ∧ (t.part p).run.net = ((s.part p).run.dropFlit f).net ∧ (t.ch p ep).outs = a ++ b ∧
        ((t.ch p ep).chans.getD o.chan {}).dropClosed = satInc 16 ((s.ch p ep).chans.getD o.chan {}).dropClosed ∧
        ((t.ch p ep).chans.getD o.chan {}).sent = ((s.ch p ep).chans.getD o.chan {}).sent ∧ t = { s with cores := t.cores, parts := t.parts }) ∧
    (f.nums.getD 0 0 = 2 → (∀ y ∈ a ++ b, y.state ≠ 1) →
      ∃ t, exec (.reservationReply p ep) s = .next t ∧ (t.part p).run.net = ((s.part p).run.dropFlit f).net ∧ (t.ch p ep).outs = a ++ b ∧
        ((t.ch p ep).chans.getD o.chan {}).dropStale = satInc 16 ((s.ch p ep).chans.getD o.chan {}).dropStale ∧
        ((t.ch p ep).chans.getD o.chan {}).epoch = f.nums.getD 2 0 ∧ t = { s with cores := t.cores, parts := t.parts }) ∧
    (3 ≤ f.nums.getD 0 0 → ep < 1008 → s.owner ((s.part p).res.place.getD ep 0) = some (p, ep) → s.faultFree p ((s.part p).res.place.getD ep 0) →
      ∃ t tag, exec (.reservationReply p ep) s = .next t ∧ s.raises t p ((s.part p).res.place.getD ep 0) 5 tag 0x1A ∧ (t.ch p ep).fPeer = o.dst)) ∧
  (∀ (s : State) (p ep now : Nat) (f : Flit) (o : Xout), s.epLive p ep = some now → (s.part p).run.arrivedFlit 3 ep = some f →
    ((s.ch p ep).outs.find? fun o => o.num == f.num) = some o →
    ∃ t, exec (.acknowledgementReceived p ep) s = .next t ∧ (t.part p).run.net = ((s.part p).run.dropFlit f).net ∧
      (t.ch p ep).outs = (s.ch p ep).outs.filter (fun y => y.num != f.num) ∧
      ((t.ch p ep).chans.getD o.chan {}).sent = (if o.kind = 0 ∧ f.nums.getD 0 0 = 1 then satAdd ((s.ch p ep).chans.getD o.chan {}).sent 1
        else ((s.ch p ep).chans.getD o.chan {}).sent) ∧ (∀ d, (t.core d).sp = (s.core d).sp) ∧
      (∀ q, q ≠ p → t.part q = s.part q) ∧ t = { s with cores := t.cores, parts := t.parts }) ∧
  ∀ (s : State) (p ep : Nat), (s.epLive p ep = none ∨ ∃ now, s.epLive p ep = some now ∧ (s.part p).run.arrivedFlit 1 ep = none ∧
    (s.part p).run.arrivedFlit 3 ep = none) → exec (.reservationReply p ep) s = .next s ∧ exec (.acknowledgementReceived p ep) s = .next s

/-- R274, R281, R289, R291, R292, R297, R298: flits at an endpoint. A reservation that is delivered awaits the controller; a data flit of the ring's epoch, or of another kind, is held
until it is written, and is counted for its transfer; a stale one is discarded and its message counts once; a unit of a remote read or write goes to the unit that it names and no other, the last one of a remote write answers, and one into a
resident range or a ring raises REMOTE_RANGE; a flit of a message goes into its ring, and the last commits the message; a remote read is answered with its
units, taken as they leave; a transfer whose flits are missing 96 cycles before its due cycle announces a hold. -/
def Obligations.FlitsAtEndpoints : Prop :=
  (∀ (s : State) (p ep : Nat) (f : Flit), (s.part p).run.stepRun = true → (s.part p).isEp ep = true →
    ((s.part p).run.net.find? (Flit.deliverable (s.part p) ep)) = some f →
    (f.kind = 0 → (∀ x ∈ (s.ch p ep).xfers, x.kind ≠ 0) →
      ∃ t, exec (.flitDelivery p ep) s = .next t ∧ (t.part p).run.net = modFlit (s.part p).run.net (Flit.deliverable (s.part p) ep) (fun _ => none) ∧
        (t.ch p ep).resvs = (s.ch p ep).resvs ++ [⟨f.nums.getD 0 0, f.src, f.num, f.nums.getD 6 0, f.nums.getD 1 0, f.nums.getD 4 0, f.nums.getD 5 0,
          f.nums.getD 2 0, if f.nums.getD 3 0 = 0 then none else some (f.nums.getD 3 0 - 1), (s.part p).run.stepCyc, false⟩] ∧
        (∀ d, (t.core d).sp = (s.core d).sp) ∧ (∀ q, q ≠ p → t.part q = s.part q) ∧ t = { s with cores := t.cores, parts := t.parts }) ∧
    (f.kind ≠ 0 → (f.kind = 2 → f.nums.getD 2 0 = ((s.ch p ep).rings.getD (f.nums.getD 0 0) {}).epoch) →
      ∃ t, exec (.flitDelivery p ep) s = .next t ∧ (t.part p).run.net = modFlit (s.part p).run.net (Flit.deliverable (s.part p) ep)
          (fun f => some { f with arrived := some (s.part p).run.stepCyc, loc := none }) ∧
        (t.ch p ep).xfers = ((s.ch p ep).modXfer f.kind f.src f.num fun y => { y with left := y.left - 1, late := y.late && decide (1 < y.left) }).xfers ∧
        (∀ d, (t.core d).sp = (s.core d).sp) ∧ (∀ q, q ≠ p → t.part q = s.part q) ∧ t = { s with cores := t.cores, parts := t.parts }) ∧
    (∀ x, f.kind = 2 → f.nums.getD 2 0 ≠ ((s.ch p ep).rings.getD (f.nums.getD 0 0) {}).epoch → (s.ch p ep).xfers = [x] → x.kind = 2 → x.peer = f.src →
      x.num = f.num → 1 < x.toWrite →
      ∃ t, exec (.flitDelivery p ep) s = .next t ∧ (t.part p).run.net = modFlit (s.part p).run.net (Flit.deliverable (s.part p) ep) (fun _ => none) ∧
        ((t.ch p ep).rings.getD (f.nums.getD 0 0) {}).stale = (if x.stale then ((s.ch p ep).rings.getD (f.nums.getD 0 0) {}).stale
          else satInc 15 ((s.ch p ep).rings.getD (f.nums.getD 0 0) {}).stale) ∧
        (t.ch p ep).xfers = [{ x with left := x.left - 1, late := x.late && decide (1 < x.left), stale := true, toWrite := x.toWrite - 1 }] ∧
        (∀ d, (t.core d).sp = (s.core d).sp) ∧ (∀ q, q ≠ p → t.part q = s.part q) ∧ t = { s with cores := t.cores, parts := t.parts })) ∧
  (∀ (s : State) (p ep now c u : Nat) (f : Flit) (x : Xfer), s.epLive p ep = some now → ep < 1008 → c = (s.part p).res.place.getD ep 0 →
    s.owner c = some (p, ep) → ((s.part p).run.net.find? (Flit.writable (s.part p) ep now)) = some f → u = f.nums.getD 0 0 → f.data.length = 64 →
    (f.kind = 6 → (s.core c).guarded u = false → (s.ch p ep).xfers = [x] → x.kind = 6 → x.peer = f.src → x.num = f.num →
      ∃ t, exec (.flitWrite p ep) s = .next t ∧ memRead (t.core c).sp.mem (u * 64) 64 = f.data ∧
        (∀ a, (a < u * 64 ∨ u * 64 + 64 ≤ a) → memGet (t.core c).sp.mem a = memGet (s.core c).sp.mem a) ∧
        (1 < x.toWrite → (t.ch p ep).xfers = [{ x with toWrite := x.toWrite - 1 }] ∧
          (t.part p).run.net = modFlit (s.part p).run.net (Flit.writable (s.part p) ep now) (fun _ => none)) ∧
        (x.toWrite ≤ 1 → (t.ch p ep).xfers = [] ∧ ∃ g, (t.part p).run.net = modFlit (s.part p).run.net (Flit.writable (s.part p) ep now) (fun _ => none) ++ [g] ∧
          g.kind = 3 ∧ g.src = ep ∧ g.dst = f.src ∧ g.num = f.num ∧ now < g.at_) ∧
        (∀ d, d ≠ c → t.core d = s.core d) ∧ (∀ q, q ≠ p → t.part q = s.part q) ∧ t = { s with cores := t.cores, parts := t.parts }) ∧
    (f.kind = 6 → (s.core c).guarded u = true → s.faultFree p c →
      ∃ t, exec (.flitWrite p ep) s = .next t ∧ s.raises t p c 5 0 0x1D) ∧
    (f.kind = 5 → (s.ch p ep).xfers = [x] → x.kind = 5 → x.peer = f.src → x.num = f.num →
      ∃ t, exec (.flitWrite p ep) s = .next t ∧ memRead (t.core c).sp.mem (u * 64) 64 = f.data ∧
        (∀ a, (a < u * 64 ∨ u * 64 + 64 ≤ a) → memGet (t.core c).sp.mem a = memGet (s.core c).sp.mem a) ∧
        (t.ch p ep).xfers = (if x.toWrite ≤ 1 then [] else [{ x with toWrite := x.toWrite - 1 }]) ∧
        (t.part p).run.net = modFlit (s.part p).run.net (Flit.writable (s.part p) ep now) (fun _ => none) ∧
        (∀ d, d ≠ c → t.core d = s.core d) ∧ (∀ q, q ≠ p → t.part q = s.part q) ∧ t = { s with cores := t.cores, parts := t.parts }) ∧
    (∀ (r : Ring) (a : Nat), f.kind = 2 → r = (s.ch p ep).rings.getD u {} → f.nums.getD 2 0 = r.epoch → a = r.base + f.nums.getD 1 0 % 2 ^ r.log2 →
      (s.ch p ep).xfers = [x] → x.kind = 2 → x.peer = f.src → x.num = f.num → x.ring = u → x.stale = false → r.aflagEn = false →
      ∃ t, exec (.flitWrite p ep) s = .next t ∧ memRead (t.core c).sp.mem a 64 = f.data ∧
        (∀ b, (b < a ∨ a + 64 ≤ b) → memGet (t.core c).sp.mem b = memGet (s.core c).sp.mem b) ∧
        (1 < x.toWrite → (t.ch p ep).xfers = [{ x with toWrite := x.toWrite - 1 }] ∧ (t.ch p ep).rings = (s.ch p ep).rings) ∧
        (x.toWrite ≤ 1 → (t.ch p ep).xfers = [] ∧ ((t.ch p ep).rings.getD u {}).rx = satAdd r.rx 1 ∧
          (∀ y ∈ ((t.ch p ep).rings.getD u {}).recs, y.at_ = x.at_ → y.committed = some now) ∧
          ∃ g, (t.part p).run.net = modFlit (s.part p).run.net (Flit.writable (s.part p) ep now) (fun _ => none) ++ [g] ∧ g.kind = 3 ∧ g.dst = f.src ∧
            g.num = f.num ∧ g.nums = [1]) ∧
        (∀ d, d ≠ c → t.core d = s.core d) ∧ (∀ q, q ≠ p → t.part q = s.part q) ∧ t = { s with cores := t.cores, parts := t.parts })) ∧
  (∀ (s : State) (p ep now : Nat) (f : Flit), s.epLive p ep = some now → (s.part p).run.arrivedFlit 4 ep = some f →
    ∃ t l, exec (.remoteReadRequest p ep) s = .next t ∧ (t.part p).run.net = ((s.part p).run.dropFlit f).net ++ l ∧ l.length = f.nums.getD 1 0 ∧
      (∀ k g, l[k]? = some g → g.kind = 5 ∧ g.src = ep ∧ g.dst = f.src ∧ g.num = f.num ∧ g.nums = [f.nums.getD 2 0 + k] ∧
        g.pull = some (0, (f.nums.getD 0 0 + k) * 64, 64) ∧ max now (f.arrived.getD 0 + 2) + k ≤ g.at_) ∧
      t.cores = s.cores ∧ (∀ q, q ≠ p → t.part q = s.part q) ∧ t = { s with parts := t.parts }) ∧
  (∀ (s : State) (p ep now : Nat) (x : Xfer), s.epLive p ep = some now →
    ((s.ch p ep).xfers.find? fun x => !x.checked && (match x.due with | some d => decide (d ≤ now + 96) | none => false)) = some x →
    (x.left = 0 →
      ∃ t, exec (.receiveCheck p ep) s = .next t ∧
        (t.ch p ep).xfers = ((s.ch p ep).modXfer x.kind x.peer x.num fun y => { y with checked := true, late := false }).xfers ∧
        (t.part p).run = (s.part p).run ∧ (∀ q, q ≠ p → t.part q = s.part q) ∧ t = { s with cores := t.cores, parts := t.parts }) ∧
    (0 < x.left →
      ∃ t h, exec (.receiveCheck p ep) s = .next t ∧
        (t.ch p ep).xfers = ((s.ch p ep).modXfer x.kind x.peer x.num fun y => { y with checked := true, late := true }).xfers ∧
        (t.part p).run.holds = (s.part p).run.holds ++ [h] ∧ (h.kind = 2 ∨ h.kind = 3) ∧ h.start = (s.part p).run.logical + 96 ∧ h.fin = none ∧
        (t.part p).cnt = { (s.part p).cnt with holdAnn := satAdd (s.part p).cnt.holdAnn 1 } ∧ (∀ q, q ≠ p → t.part q = s.part q) ∧
        t = { s with cores := t.cores, parts := t.parts })) ∧
  ∀ (s : State) (p ep : Nat), ((s.part p).run.net = [] → exec (.flitDelivery p ep) s = .next s ∧ exec (.flitWrite p ep) s = .next s ∧
      exec (.remoteReadRequest p ep) s = .next s) ∧
    ((s.ch p ep).xfers = [] → exec (.receiveCheck p ep) s = .next s)

/-- R276, R278, R280, R304, R311: routers and links of slotted mode. A flit at an input leaves in its cycle on the output that the cycle's entry names, three cycles later at the next
router, or to its core; with no entry for it, or once its cycle has passed, it is a slot collision, counted and a fault; a CRC error sends the flit again 24 cycles later and is counted, and the fourth on one link in a row
raises LINK_FAIL; a hold-word disagreement is counted, and the sixteenth on a link within a second raises LINK_FAIL. -/
def Obligations.RoutersAndLinks : Prop :=
  (∀ (s : State) (p die src lane at_ : Nat) (f : Flit) (hit : Flit → Bool), s.slottedAt die = some p → (s.part p).run.stepRun = true → (s.part p).run.held = false →
    hit = (fun f => f.timed (s.part p) && match f.loc with
      | some (d, sr, ln, t) => d == die && sr == src && ln == lane && decide (t ≤ (s.part p).run.stepCyc)
      | none => false) →
    (s.part p).run.net.find? hit = some f → f.loc = some (die, src, lane, at_) →
    (∀ k, at_ = (s.part p).run.stepCyc → slotField ((s.die die).slots.getD (at_ % 256) 0) src lane = some k →
      (k / 3 < 4 →
        ∃ t, exec (.flitAtRouter die src lane) s = .next t ∧ (t.part p).run.net = modFlit (s.part p).run.net hit (fun f => some { f with
            loc := some ((acrossLink die (k / 3)).1, (acrossLink die (k / 3)).2, k % 3, (s.part p).run.stepCyc + 3) }) ∧
          (∀ q, q ≠ p → t.part q = s.part q) ∧ t = { s with parts := t.parts }) ∧
      (4 ≤ k / 3 → (s.part p).res.place.getD f.dst 1152 = 2 * die + (k / 3 - 4) →
        ∃ t, exec (.flitAtRouter die src lane) s = .next t ∧ (t.part p).run.net = modFlit (s.part p).run.net hit (fun f => some { f with loc := none }) ∧
          (∀ q, q ≠ p → t.part q = s.part q) ∧ t = { s with parts := t.parts })) ∧
    ((at_ ≠ (s.part p).run.stepCyc ∨ slotField ((s.die die).slots.getD (at_ % 256) 0) src lane = none ∨
        ∃ k, slotField ((s.die die).slots.getD (at_ % 256) 0) src lane = some k ∧ 4 ≤ k / 3 ∧ (s.part p).res.place.getD f.dst 1152 ≠ 2 * die + (k / 3 - 4)) →
      (∀ h ∈ (s.part p).run.holds, h.kind ≠ 7) →
      ∃ t, exec (.flitAtRouter die src lane) s = .next t ∧ (t.die die).collCnt = satAdd (s.die die).collCnt 1 ∧
        (t.die die).collSlot = at_ % 256 ∧ (t.die die).collSrc = src ∧ (t.die die).collLane = lane ∧ (t.part p).cnt.fCause = 0x1C ∧
        (t.part p).cnt.fEng = 7 ∧ (∀ q, q ≠ p → t.part q = s.part q) ∧ (∀ d, d ≠ die → t.die d = s.die d) ∧ t.cores = s.cores)) ∧
  (∀ (s : State) (p die src lane : Nat), s.slottedAt die = some p → ((s.part p).run.stepRun = false ∨ (s.part p).run.held = true ∨ (s.part p).run.net = []) →
    exec (.flitAtRouter die src lane) s = .next s) ∧
  (∀ (s : State) (die port p n fails : Nat) (again : Bool) (f : Flit), (s.part p).run.net[n]? = some f →
    fails = (if f.failAt = 4 * die + port then f.fails else 0) →
    (f.arrived = none →
      ∃ t g, exec (.flitCrcError die port false p n again) s = .next t ∧ (t.part p).run.net[n]? = some g ∧
        g = { f with at_ := f.at_ + 24, retried := true, fails := fails + 1, failAt := 4 * die + port
                     loc := f.loc.map fun l => if (s.part p).slotted then (die, port + 1, 3, s.cc + 24) else (l.1, l.2.1, l.2.2.1, l.2.2.2 + 24) } ∧
        (∀ m, m ≠ n → (t.part p).run.net[m]? = (s.part p).run.net[m]?) ∧
        (t.die die).retryData.getD port 0 = satInc 16 ((s.die die).retryData.getD port 0) ∧ (∀ d, d ≠ die → t.die d = s.die d) ∧
        (∀ q, q ≠ p → t.part q = s.part q) ∧ t.cores = s.cores ∧ (fails < 3 → t = { s with parts := t.parts, dies := t.dies }) ∧
        (3 ≤ fails → (∀ h ∈ (s.part p).run.holds, h.kind ≠ 7) → (t.part p).cnt.fCause = 0x1E ∧ bit (t.die die).failing port = true)) ∧
    (f.arrived.isSome = true → exec (.flitCrcError die port false p n again) s = .next s)) ∧
  (∀ (s : State) (die port p n : Nat) (again : Bool),
    ∃ t, exec (.flitCrcError die port true p n again) s = .next t ∧ (t.die die).retryMem.getD port 0 = satInc 16 ((s.die die).retryMem.getD port 0) ∧
      (t.die die).retryData = (s.die die).retryData ∧ (∀ d, d ≠ die → t.die d = s.die d) ∧
      (∀ f, s.hbm.net[n]? = some f → t.hbm.net[n]? = some { f with since := f.since + 24 }) ∧ (∀ m, m ≠ n → t.hbm.net[m]? = s.hbm.net[m]?) ∧
      (again = false → t = { s with dies := t.dies, hbm := t.hbm }) ∧
      (again = true → (∀ h ∈ (s.part p).run.holds, h.kind ≠ 7) → (t.part p).cnt.fCause = 0x1E ∧ bit (t.die die).failing (4 + port) = true)) ∧
  ∀ (s : State) (die port : Nat) (recent : List (Nat × Nat)),
    recent = ((s.die die).disAt.filter fun y => decide (s.opTicks ≤ y.2 + 2500000000)) ++ [(port, s.opTicks)] →
    ∃ t, exec (.holdWordDisagreement die port) s = .next t ∧ (t.die die).holdDis = satAdd (s.die die).holdDis 1 ∧
      (t.die die).disAt = recent ∧ (∀ d, d ≠ die → t.die d = s.die d) ∧
      ((recent.filter fun y => y.1 == port).length < 16 → t = { s with dies := t.dies }) ∧
      (16 ≤ (recent.filter fun y => y.1 == port).length → bit (t.die die).failing (8 + port) = true ∧
        ∀ p, p < 8 → (s.part p).hasDie die = true → (s.part p).run.stepRun = true → (∀ h ∈ (s.part p).run.holds, h.kind ≠ 7) → (t.part p).cnt.fCause = 0x1E)

/-- R45, R286, R293, R295, R301: what the code of a Culm core does with its channels while a step runs: a message of its own goes out as a SEND does, with its reservation, or raises CH_DEST where the
partition has no such endpoint; the earliest message of a ring is taken and leaves to the code; rings are set, opened (an unused one stays closed), closed and reset. -/
def Obligations.CulmCoreChannels : Prop :=
  (∀ (s : State) (p culm now dest ring chan lead : Nat) (body : Bytes), s.epLive p (1008 + culm) = some now →
    ((s.part p).isEp dest = true → ((s.ch p (1008 + culm)).outs.filter fun o => o.kind == 0 && o.state == 0).length < 2 → body.length ≤ 65536 →
      body.length % 16 = 0 → chan < 16 → ring < 32 →
      ∃ t g, exec (.culmCoreSend p culm (.send dest ring chan lead body)) s = .next t ∧ g ∈ (t.part p).run.net ∧ g.kind = 0 ∧
        g.src = 1008 + culm ∧ g.dst = dest ∧ g.at_ = now ∧ g.num = (s.ch p (1008 + culm)).count + 1 ∧ g.nums.getD 0 0 = ring ∧ g.nums.getD 1 0 = recSize body.length ∧
        (t.ch p (1008 + culm)).count = (s.ch p (1008 + culm)).count + 1 ∧
        ((t.ch p (1008 + culm)).chans.getD chan {}).seq = ((s.ch p (1008 + culm)).chans.getD chan {}).seq + 1 ∧ t.cores = s.cores ∧
        (∀ q, q ≠ p → t.part q = s.part q) ∧ t = { s with parts := t.parts }) ∧
    ((s.part p).isEp dest = false → (∀ h ∈ (s.part p).run.holds, h.kind ≠ 7) →
      ∃ t, exec (.culmCoreSend p culm (.send dest ring chan lead body)) s = .next t ∧ (t.part p).cnt.fCause = 0x19 ∧ (t.part p).run.net = (s.part p).run.net ∧
        t.cores = s.cores ∧ (∀ q, q ≠ p → t.part q = s.part q))) ∧
  (∀ (s : State) (p culm now ring m : Nat), s.epLive p (1008 + culm) = some now →
    (∀ r, ((s.ch p (1008 + culm)).rings.getD ring {}).pick m now = some r →
      ∃ t, exec (.culmCoreSend p culm (.take ring m)) s = .next t ∧ t.out = s.out ++ [⟨9, 1008 + culm, memRead ((s.part p).culmMem.getD culm [])
          (((s.ch p (1008 + culm)).rings.getD ring {}).base + r.at_ % 2 ^ ((s.ch p (1008 + culm)).rings.getD ring {}).log2) (16 + r.len)⟩] ∧
        (∀ y ∈ ((t.ch p (1008 + culm)).rings.getD ring {}).recs, y.at_ = r.at_ → y.taken = some now) ∧ t = { s with parts := t.parts, out := t.out }) ∧
    (((s.ch p (1008 + culm)).rings.getD ring {}).pick m now = none → exec (.culmCoreSend p culm (.take ring m)) s = .next s)) ∧
  ∀ (s : State) (p culm now ring : Nat), s.epLive p (1008 + culm) = some now →
    (∃ t, exec (.culmCoreSend p culm (.openRing ring)) s = .next t ∧ (t.ch p (1008 + culm)).rings.getD ring {} =
        { (s.ch p (1008 + culm)).rings.getD ring {} with isOpen := ((s.ch p (1008 + culm)).rings.getD ring {}).log2 != 0 } ∧ t = { s with parts := t.parts }) ∧
    (∃ t, exec (.culmCoreSend p culm (.closeRing ring)) s = .next t ∧
      (t.ch p (1008 + culm)).rings.getD ring {} = { (s.ch p (1008 + culm)).rings.getD ring {} with isOpen := false } ∧ t = { s with parts := t.parts }) ∧
    (∃ t, exec (.culmCoreSend p culm (.resetRing ring)) s = .next t ∧ ((t.ch p (1008 + culm)).rings.getD ring {}).recs = [] ∧
      ((t.ch p (1008 + culm)).rings.getD ring {}).epoch = (((s.ch p (1008 + culm)).rings.getD ring {}).epoch + 1) % 65536 ∧ t = { s with parts := t.parts }) ∧
    ∀ cfg : RingCfg, ∃ t, exec (.culmCoreSend p culm (.setRing ring cfg)) s = .next t ∧
      (t.ch p (1008 + culm)).rings.getD ring {} = { base := cfg.base, log2 := cfg.log2, isOpen := cfg.isOpen, aflag := cfg.aflag } ∧
      t = { s with parts := t.parts }

/-! ### Holds, restart and checkpoints (10, 17, 18) -/

/-- R91, R141, R279, R309, R310, R314, R316: a hold takes effect and ends. At its logical cycle the partition stops, one that is RUNNING is HELD unless the hold is the stop of a fault, and the flits on their way
are marked; a hold whose end has come before leaves no trace; before its cycle nothing changes. When the announced ends of all
holds in effect have come the interval is counted and the partition runs on, a DBG_RESUME that waits completing and a frame that waited beginning; a data hold of 4,194,304 cycles whose end has not come raises HOLD_TIMEOUT, once. -/
def Obligations.HoldsTakeEffect : Prop :=
  (∀ (s : State) (p : Nat), ((s.part p).run.starting.filter fun h => !h.dead s.cc) ≠ [] →
    ∃ t, exec (.holdStartEffect p) s = .next t ∧ (t.part p).run.held = true ∧
      (t.part p).run.holds = (s.part p).run.holds.filter (fun h => !(h.began.isNone && decide (h.start ≤ (s.part p).run.logical))) ++
        ((s.part p).run.starting.filter fun h => !h.dead s.cc).map (fun h => { h with began := some s.cc, fin := if h.pulse then some (s.cc + 25000) else h.fin }) ∧
      ((s.part p).st = .running → (t.part p).st = if ((s.part p).run.starting.filter fun h => !h.dead s.cc).all (fun h => h.kind == 7) then .running else .held) ∧
      ((s.part p).st ≠ .running → (t.part p).st = (s.part p).st) ∧
      (t.part p).run.net = (s.part p).run.net.map (fun f => if f.at_ < (s.part p).run.stepCyc then
        { f with under := true, loc := if f.timed (s.part p) then none else f.loc } else f) ∧
      (t.part p).run.stepCyc = (s.part p).run.stepCyc ∧ (t.part p).run.logical = (s.part p).run.logical ∧
      (∀ r, r ≠ p → t.part r = s.part r) ∧ t = { s with parts := t.parts }) ∧
  (∀ (s : State) (p : Nat), (s.part p).run.starting ≠ [] → (∀ h ∈ (s.part p).run.starting, h.dead s.cc = true) →
    ∃ t, exec (.holdStartEffect p) s = .next t ∧ t.part p = { s.part p with run := { (s.part p).run with
        holds := (s.part p).run.holds.filter fun h => !(h.began.isNone && decide (h.start ≤ (s.part p).run.logical)) } } ∧
      (∀ r, r ≠ p → t.part r = s.part r) ∧ t = { s with parts := t.parts }) ∧
  (∀ (s : State) (p : Nat), (s.part p).run.starting = [] → exec (.holdStartEffect p) s = .next s) ∧
  (∀ (s : State) (p : Nat), (s.part p).run.held = true → ((s.part p).run.holds.filter fun h => h.began.isSome) ≠ [] →
    (∀ h ∈ (s.part p).run.holds, h.began.isSome = true → h.dead s.cc = true) →
    ((s.part p).ctl.resume = [] → (s.part p).run.frame = none ∨ (s.part p).run.stepRun = true →
      ∃ t, exec (.holdEndEffect p) s = .next t ∧ (t.part p).run.held = false ∧ (t.part p).run.holds = (s.part p).run.holds.filter (fun h => h.began.isNone) ∧
        (t.part p).run.heldEnd = s.cc ∧ (t.part p).run.frame = (s.part p).run.frame.map (fun f => { f with holds := f.holds + 1 }) ∧
        (t.part p).cnt = { (s.part p).cnt with holdCnt := satAdd (s.part p).cnt.holdCnt 1 } ∧
        (t.part p).st = (if (s.part p).st = .held then .running else (s.part p).st) ∧ (∀ c, (t.core c).sp.mem = (s.core c).sp.mem) ∧
        (∀ r, r ≠ p → t.part r = s.part r) ∧ t = { s with parts := t.parts, cores := t.cores }) ∧
    (∀ n, (s.part p).ctl.resume = [n] → s.host.accepted.contains n = true → (s.part p).run.frame = none ∨ (s.part p).run.stepRun = true →
      ∃ t, exec (.holdEndEffect p) s = .next t ∧ (t.part p).run.held = false ∧ (t.part p).ctl.resume = [] ∧ t.host.accepted.contains n = false ∧
        fld (t.slot n) 6 1 = stOk ∧ (t.part p).st = (if (s.part p).st = .held then .running else (s.part p).st) ∧ (∀ r, r ≠ p → t.part r = s.part r)) ∧
    (∀ f g, (s.part p).run.frame = some f → (s.part p).run.stepRun = false → (s.part p).img.image = some g →
      ∃ t, exec (.holdEndEffect p) s = .next t ∧ (t.part p).run.held = false ∧ (t.part p).run.stepRun = true ∧ (t.part p).run.stepCyc = 0 ∧
        (t.part p).run.frame = some { f with holds := f.holds + 1 } ∧ (t.part p).cnt.holdCnt = satAdd (s.part p).cnt.holdCnt 1 ∧
        (t.part p).st = (if (s.part p).st = .held then .running else (s.part p).st) ∧ (∀ c, (t.core c).sp.mem = (s.core c).sp.mem) ∧
        (∀ r, r ≠ p → t.part r = s.part r))) ∧
  (∀ (s : State) (p : Nat), ((s.part p).run.held = false ∨ ∃ h ∈ (s.part p).run.holds, h.began.isSome = true ∧ h.dead s.cc = false) →
    exec (.holdEndEffect p) s = .next s) ∧
  (∀ (s : State) (p b : Nat) (h : Hold), (s.part p).run.holds = [h] → h.began = some b → b + 4194304 ≤ s.cc → h.kind ≤ 3 → h.timedOut = false →
    h.dead (b + 4194304) = false →
    ∃ t, exec (.holdTimeout p) s = .next t ∧ (t.part p).cnt.fCause = 0x1F ∧ (t.part p).cnt.fStep = (s.part p).ctl.stepCount ∧
      (t.part p).run.holds = [{ h with timedOut := true }, ⟨7, none, (s.part p).run.logical + 96, none, none, false⟩] ∧
      (∀ r, r ≠ p → t.part r = s.part r) ∧ t.cores = s.cores ∧ t = { s with parts := t.parts, stook := t.stook, host := t.host, out := t.out }) ∧
  ∀ (s : State) (p : Nat), (∀ h ∈ (s.part p).run.holds, 3 < h.kind ∨ h.timedOut = true ∨ h.began = none ∨
      ∃ b, h.began = some b ∧ (s.cc < b + 4194304 ∨ h.dead (b + 4194304) = true)) → exec (.holdTimeout p) s = .next s

/-- R52, R58, R66, R69, R72, R315, R320, R334, R512, R513, R528: a restart. When the STOP hold of a fault has taken effect the run ends and the partition is RESTARTING, its fault under
classification, or FAULTED where it cannot be placed; a fault of the schedule class that comes again in its rerun is a program fault, and the partition FAULTED; in a REPLAY it aborts the REPLAY. The newest good checkpoint gives
the partition its STEP_COUNT, mutable section and journalled frames, and a STOP that waits takes effect; with no checkpoint the partition takes its partner's, or is FAULTED; a weight leaf that is not whole waits for the partner, or the partition is FAULTED. Each frame
is re-executed from its tensor without an emission; with none left the partition waits for its next launch; a minute of catch-up is recorded. -/
def Obligations.RestartFollows : Prop :=
  ((∀ (s : State) (p : Nat), ((s.part p).run.holds.any fun h => h.kind == 7 && h.began.isSome) = true → (s.part p).st.live = true → (s.part p).ck.replay = none →
    (∀ f, (s.part p).ck.f1 = some f → f.cause ≠ 0x23 → (s.part p).ck.cls = none →
      ∃ t, exec (.restartBegin p) s = .next t ∧ ((t.part p).st = .restarting ∨ (t.part p).st = .faulted) ∧ (t.part p).run.frame = none ∧
        (t.part p).run.stepRun = false ∧ (t.part p).ck.restarts = satAdd (s.part p).ck.restarts 1 ∧
        ((t.part p).st = .restarting → (t.part p).ck.stage = 2 ∧ (t.part p).ck.cls = some (f, (s.part p).ck.f1Cls, (s.part p).ck.f1Idx))) ∧
    (∀ f1 f2 cls idx, (s.part p).ck.cls = some (f1, cls, idx) → (s.part p).ck.f1 = some f2 → scheduleClass f1.cause = true → f1.step ≤ f2.step →
      f1.same f2 = true →
      ∃ t, exec (.restartBegin p) s = .next t ∧ (t.part p).st = .faulted ∧ (t.part p).cnt.fClass = 4 ∧ (t.part p).run.stepRun = false ∧
        (t.part p).run.frame = none)) ∧
  (∀ (s : State) (p : Nat) (r : Replay) (f : FaultId), ((s.part p).run.holds.any fun h => h.kind == 7 && h.began.isSome) = true →
    (s.part p).ck.replay = some r → (s.part p).ck.f1 = some f → (s.part p).ck.cls = none →
    ∃ t, exec (.restartBegin p) s = .next t ∧ (t.part p).ck.replay = some { r with aborted := true } ∧ (t.part p).ck.catchUp = r.frames ∧
      (t.part p).ck.cls = some (f, (s.part p).ck.f1Cls, (s.part p).ck.f1Idx) ∧ (t.part p).run.stepRun = false ∧ (t.part p).run.holds = []) ∧
  (∀ (s : State) (p : Nat), ((s.part p).run.holds.any fun h => h.kind == 7 && h.began.isSome) = false → exec (.restartBegin p) s = .next s)) ∧
  (∀ (s : State) (p : Nat) (okA okB : Bool) (fits : Ckpt → Bool → Bool) (pick : Option Ckpt), (s.part p).ck.stage = 2 →
    ((s.part p).st = .restarting ∨ (s.part p).st = .shadow) → (s.part p).ck.leafBad = none → (s.part p).twin.fromLead = false →
    fits = (fun k ok => k.valid && ok && ((s.part p).img.onFallback || sub k.bir 6 138 == sub (s.bir p) 6 138)) →
    pick = (if (s.part p).ck.newest then (if fits (s.part p).ck.slotB okB then some (s.part p).ck.slotB else if fits (s.part p).ck.slotA okA then some (s.part p).ck.slotA else none)
      else if fits (s.part p).ck.slotA okA then some (s.part p).ck.slotA else if fits (s.part p).ck.slotB okB then some (s.part p).ck.slotB else none) →
    (∀ k g, pick = some k → (s.part p).img.image = some g →
      ((s.part p).ctl.stop = [] ∨ (s.part p).st = .shadow → ((s.part p).twin.role = 0 ∨ s.twin.pair ≠ 2 ∨ (s.part p).st = .shadow) →
        ∃ t, exec (.restoreComplete p okA okB) s = .next t ∧ (t.part p).ctl.stepCount = k.step ∧ (t.part p).ck.stage = 3 ∧
          (t.part p).ctl.seed = (if k.seed.isEmpty then (s.part p).ctl.seed else k.seed) ∧
          (t.part p).img.hbm = memCopy (memClear (s.part p).img.hbm (s.regionOff (s.part p) 1) g.mutSize) (s.regionOff (s.part p) 1) k.mut_ ∧
          (t.part p).st = (s.part p).st ∧ (t.part p).ck.catchUp = (s.part p).ck.after k.journalN ∧ (t.part p).pwr.ramp = some 0) ∧
      ((s.part p).ctl.stop ≠ [] → (s.part p).st = .restarting →
        ∃ t, exec (.restoreComplete p okA okB) s = .next t ∧ (t.part p).st = .armed ∧ (t.part p).ctl.stop = [] ∧ (t.part p).ctl.stepCount = k.step ∧
          (t.part p).ck.stage = 0) ∧
      ((s.part p).ctl.stop = [] → (s.part p).st = .restarting → (s.part p).twin.role ≠ 0 → s.twin.pair = 2 →
        ∃ t, exec (.restoreComplete p okA okB) s = .next t ∧ (t.part p).st = .shadow ∧ (t.part p).ctl.stepCount = k.step ∧ (t.part p).ck.stage = 3)) ∧
    (pick = none → (s.part p).twin.role ≠ 0 → s.twin.pair = 2 →
      ∃ t, exec (.restoreComplete p okA okB) s = .next t ∧ t.part p = { s.part p with twin := { (s.part p).twin with fromLead := true, rxCkpt := [] } } ∧
        (∀ r, r ≠ p → t.part r = s.part r) ∧ t = { s with parts := t.parts }) ∧
    (pick = none → ((s.part p).twin.role = 0 ∨ s.twin.pair ≠ 2) →
      ∃ t, exec (.restoreComplete p okA okB) s = .next t ∧ (t.part p).st = .faulted ∧ (t.part p).ck.stage = 0)) ∧
  (∀ (s : State) (p : Nat) (okA okB : Bool), (s.part p).ck.stage = 2 → ((s.part p).st = .restarting ∨ (s.part p).st = .shadow) →
    ((s.part p).ck.leafBad.isSome = true → (s.part p).twin.role ≠ 0 → s.twin.pair = 2 → exec (.restoreComplete p okA okB) s = .next s) ∧
    ((s.part p).ck.leafBad.isSome = true → ((s.part p).twin.role = 0 ∨ s.twin.pair ≠ 2) →
      ∃ t, exec (.restoreComplete p okA okB) s = .next t ∧ (t.part p).st = .faulted ∧ (t.part p).ck.stage = 0) ∧
    ((s.part p).ck.leafBad = none → (s.part p).twin.fromLead = true → (s.part p).twin.rxCkpt.length < 512 → exec (.restoreComplete p okA okB) s = .next s) ∧
    (∀ g, (s.part p).ck.leafBad = none → (s.part p).twin.fromLead = true → 512 ≤ (s.part p).twin.rxCkpt.length → (s.part p).img.image = some g →
      ∃ t, exec (.restoreComplete p okA okB) s = .next t ∧ (t.part p).ctl.stepCount = fld (s.part p).twin.rxCkpt 8 8 ∧ (t.part p).twin.fromLead = false ∧
        (t.part p).twin.rxCkpt = [])) ∧
  (∀ (s : State) (p : Nat) (okA okB : Bool), ((s.part p).ck.stage ≠ 2 ∨ ((s.part p).st ≠ .restarting ∧ (s.part p).st ≠ .shadow)) →
    exec (.restoreComplete p okA okB) s = .next s) ∧
  (∀ (s : State) (p : Nat) (j : JEntry) (rest : List JEntry) (g : Image), (s.part p).ck.stage = 3 →
    ((s.part p).st = .restarting ∨ (s.part p).st = .shadow ∨ ∃ r, (s.part p).ck.replay = some r ∧ r.ended = false) →
    (s.part p).ck.catchUp = j :: rest → (s.part p).img.image = some g → (s.part p).run.frame = none → (s.part p).run.held = false → (s.part p).run.holds = [] →
    ∃ t f, exec (.catchUpFrame p) s = .next t ∧ (t.part p).run.frame = some f ∧ f.rerun = true ∧ f.entry = j.entry ∧ f.ept = j.ept ∧ f.learn = j.learn ∧
      f.cut = j.cut ∧ f.launch = j.launch ∧ f.step0 = (s.part p).ctl.stepCount ∧ (t.part p).run.emits = (s.part p).run.emits ∧
      (t.part p).img.hbm = memWrite (s.part p).img.hbm (s.regionOff (s.part p) 2) j.tensor ∧ (t.part p).ck.catchUp = (s.part p).ck.catchUp ∧
      (t.part p).ck.journal = (s.part p).ck.journal ∧ (∀ r, r ≠ p → t.part r = s.part r) ∧ t = { s with parts := t.parts, cores := t.cores, hbm := t.hbm }) ∧
  (∀ (s : State) (p : Nat), ((s.part p).ck.stage ≠ 3 ∨ (s.part p).ck.catchUp = [] ∨ (s.part p).run.frame.isSome = true ∨ (s.part p).run.held = true ∨
    (s.part p).run.holds ≠ []) → exec (.catchUpFrame p) s = .next s) ∧
  (∀ (s : State) (p : Nat), (s.part p).ck.stage = 3 → ((s.part p).st = .restarting ∨ (s.part p).st = .shadow) →
    ((s.part p).ck.catchUp = [] → (s.part p).run.frame = none → (s.part p).ck.replay = none →
      ∃ t, exec (.catchUpComplete p) s = .next t ∧ t.part p = { s.part p with ck := { (s.part p).ck with stage := 4 } } ∧ (∀ r, r ≠ p → t.part r = s.part r) ∧
        t = { s with parts := t.parts }) ∧
    (((s.part p).ck.catchUp ≠ [] ∨ (s.part p).run.frame.isSome = true) → exec (.catchUpComplete p) s = .next s) ∧
    ((s.part p).ck.lastOverdue + 150000000000 ≤ s.opTicks →
      ∃ t, exec (.catchUpOverdue p) s = .next t ∧ t.part p = { s.part p with ck := { (s.part p).ck with lastOverdue := s.opTicks } } ∧
        (∀ r, r ≠ p → t.part r = s.part r) ∧ t.stook.offered = s.stook.offered + 1 ∧
        t = { s with parts := t.parts, stook := t.stook, host := t.host, out := t.out }) ∧
    (s.opTicks < (s.part p).ck.lastOverdue + 150000000000 → exec (.catchUpOverdue p) s = .next s)) ∧
  ∀ (s : State) (p : Nat), (s.part p).ck.stage ≠ 3 → exec (.catchUpComplete p) s = .next s ∧ exec (.catchUpOverdue p) s = .next s

/-- R73, R340, R508, R510, R514: checkpoints and background verification. With the parity pass the copy is complete: it holds the mutable section, the stripes not copied before as they stand; the commit makes the slot that does not hold
the newest checkpoint the newest, keeps the other as it was, completes the CHECKPOINT that waited for it, and begins the one that is pending at a frame boundary or lets a STOP take effect. A pass of the verification reads each leaf
once, one pass every 30 minutes; a weight leaf that disagrees raises WEIGHT_MISMATCH on a partition that runs, and passes are counted. -/
def Obligations.CheckpointsCommit : Prop :=
  (∀ (s : State) (p o : Nat) (l : List Nat) (g : Image), (s.part p).ck.copying = some (l, false) → (s.part p).img.image = some g → o = s.regionOff (s.part p) 1 →
    memWf (s.part p).img.hbm = true → memWf (s.part p).ck.copy.mut_ = true → (∀ a, a < g.mutSize → a / s.stripeBytes ∉ l → memGet (s.part p).ck.copy.mut_ a = 0) →
    ∃ t, exec (.checkpointParityPass p) s = .next t ∧ (t.part p).ck.copying = some (l, true) ∧
      (∀ a, a < g.mutSize → memGet (t.part p).ck.copy.mut_ a =
        if l.contains (a / s.stripeBytes) then memGet (s.part p).ck.copy.mut_ a else memGet (s.part p).img.hbm (o + a)) ∧
      (t.part p).ck.copy.step = (s.part p).ck.copy.step ∧ (t.part p).ck.slotA = (s.part p).ck.slotA ∧ (t.part p).ck.slotB = (s.part p).ck.slotB ∧
      (t.part p).img.hbm = (s.part p).img.hbm ∧ (t.part p).run = (s.part p).run ∧ (t.part p).ctl = (s.part p).ctl ∧
      (∀ r, r ≠ p → t.part r = s.part r) ∧ t = { s with parts := t.parts, hbm := t.hbm }) ∧
  (∀ (s : State) (p : Nat), (∀ l, (s.part p).ck.copying ≠ some (l, false)) → exec (.checkpointParityPass p) s = .next s) ∧
  (∀ (s : State) (p : Nat) (l : List Nat), (s.part p).ck.copying = some (l, true) → ((s.part p).run.frame.isSome = true ∨ (s.part p).ctl.ckpt = []) →
    ((s.part p).run.frame.isSome = true ∨ (s.part p).ctl.stop = []) →
    ((s.part p).ck.slots = [] →
      ∃ t, exec (.checkpointCommit p) s = .next t ∧ (t.part p).ck.copying = none ∧
        ((s.part p).ck.slotA.valid = true → (s.part p).ck.newest = false →
          (t.part p).ck.slotB = (s.part p).ck.copy ∧ (t.part p).ck.slotA = (s.part p).ck.slotA ∧ (t.part p).ck.newest = true) ∧
        (((s.part p).ck.slotA.valid = false ∨ (s.part p).ck.newest = true) →
          (t.part p).ck.slotA = (s.part p).ck.copy ∧ (t.part p).ck.slotB = (s.part p).ck.slotB ∧ (t.part p).ck.newest = false) ∧
        (t.part p).ck.journal = (s.part p).ck.journal.drop ((s.part p).ck.copy.journalN - ((s.part p).ck.journalN - (s.part p).ck.journal.length)) ∧
        (t.part p).ctl = (s.part p).ctl ∧ (t.part p).img.hbm = (s.part p).img.hbm ∧ (t.part p).run = (s.part p).run ∧ (∀ r, r ≠ p → t.part r = s.part r) ∧
        t = { s with parts := t.parts }) ∧
    (∀ n, (s.part p).ck.slots = [n] → s.host.accepted.contains n = true →
      ∃ t, exec (.checkpointCommit p) s = .next t ∧ t.host.accepted.contains n = false ∧ fld (t.slot n) 6 1 = stOk ∧
        sub (t.slot n) 32 9 = natLe 8 (s.part p).ck.copy.step ++ [if (s.part p).ck.slotA.valid && !(s.part p).ck.newest then 1 else 0] ∧
        (t.part p).ck.copying = none ∧ (t.part p).ck.slots = [] ∧ (t.part p).ck.newest = ((s.part p).ck.slotA.valid && !(s.part p).ck.newest) ∧
        (∀ r, r ≠ p → t.part r = s.part r) ∧ t = { s with parts := t.parts, host := t.host, out := t.out })) ∧
  (∀ (s : State) (p : Nat) (l : List Nat) (g : Image), (s.part p).ck.copying = some (l, true) → (s.part p).run.frame = none → (s.part p).img.image = some g →
    ((s.part p).ctl.ckpt ≠ [] → (s.part p).ctl.stop = [] →
      ∃ t, exec (.checkpointCommit p) s = .next t ∧ (t.part p).ck.copying = some ([], false) ∧ (t.part p).ck.slots = (s.part p).ctl.ckpt ∧
        (t.part p).ctl.ckpt = [] ∧ (t.part p).ck.newest = ((s.part p).ck.slotA.valid && !(s.part p).ck.newest)) ∧
    ((s.part p).ctl.ckpt = [] → (s.part p).ctl.stop ≠ [] → ((s.part p).st = .running ∨ (s.part p).st = .held) → ((s.part p).ck.stage = 0 ∨ (s.part p).ck.stage = 4) →
      (∀ h ∈ (s.part p).run.holds, h.kind ≠ 7) →
      ∃ t, exec (.checkpointCommit p) s = .next t ∧ (t.part p).st = .armed ∧ (t.part p).ctl.stop = [] ∧ (t.part p).ck.copying = none)) ∧
  (∀ (s : State) (p : Nat), (∀ l, (s.part p).ck.copying ≠ some (l, true)) → exec (.checkpointCommit p) s = .next s) ∧
  ∀ (s : State) (p : Nat) (bad : Bool) (g : Image) (waits : Bool), (s.part p).img.image = some g →
    waits = ((s.part p).ck.leaf == 0 && (match (s.part p).ck.leafAt with | some t => decide (s.opMs < t + 1800000) | none => false)) →
    ((waits = true ∨ g.constant = []) → exec (.weightLeafCheck p bad) s = .next s) ∧
    (waits = false → g.constant ≠ [] → (bad = false ∨ (s.part p).st.live = false) →
      ∃ t, exec (.weightLeafCheck p bad) s = .next t ∧
        t.part p = { s.part p with ck := { (s.part p).ck with
          leaf := if ceilDiv g.constant.length 1048576 ≤ (s.part p).ck.leaf + 1 then 0 else (s.part p).ck.leaf + 1
          leafAt := if (s.part p).ck.leaf = 0 then some s.opMs else (s.part p).ck.leafAt
          verifyPasses := if ceilDiv g.constant.length 1048576 ≤ (s.part p).ck.leaf + 1 then satAdd (s.part p).ck.verifyPasses 1 else (s.part p).ck.verifyPasses } } ∧
        (∀ r, r ≠ p → t.part r = s.part r) ∧ t = { s with parts := t.parts, hbm := t.hbm }) ∧
    (waits = false → g.constant ≠ [] → bad = true → (s.part p).st.live = true → (∀ h ∈ (s.part p).run.holds, h.kind ≠ 7) →
      ∃ t, exec (.weightLeafCheck p bad) s = .next t ∧ (t.part p).cnt.fCause = 0x23 ∧ (t.part p).cnt.fCore = 1023 ∧ (t.part p).ck.leafBad = some (s.part p).ck.leaf ∧
        (∃ h ∈ (t.part p).run.holds, h.kind = 7 ∧ h.start = (s.part p).run.logical + 96) ∧ (∀ r, r ≠ p → t.part r = s.part r) ∧
        t = { s with parts := t.parts, hbm := t.hbm, stook := t.stook, host := t.host, out := t.out })

/-! ### HBM (11) -/

/-- R341 to R346, R351: bursts and their errors, refresh, self-refresh and failure. A read outside a refresh window in use wakes its pseudo-channel; one symbol in error is corrected and
counted, more poison the burst and are counted; no byte changes, and inside the window nothing does. A scrub reads the burst at its position, goes on to the next, writes a corrected burst back and counts its pass; it waits for its request, the window and the day. A marked row of a bank with a
spare row that stands in its buffer is repaired in an unused window. At its window boundary a stack whose hottest die is at 85 degrees C uses every window, and one at 83 or
below the windows of even number; a slice without a request for 1 ms, that no awake partition holds, enters self-refresh; a pseudo-channel in service that fails stops
each live partition that holds its slice. -/
def Obligations.HbmErrorsRefreshAndFailure : Prop :=
  ((∀ (s : State) (p off i row : Nat), s.pcOf (s.part p) (off / 64 * 64) = some (i, row) → s.refreshing i = false →
    (∃ t, exec (.hbmRead p off 0) s = .next t ∧ t.pc i = { s.pc i with selfref := false, lastReq := s.opTicks } ∧ (∀ j, j ≠ i → t.pc j = s.pc j) ∧
      t = { s with hbm := t.hbm }) ∧
    ((s.part p).img.hbmPoison.contains (off / 64) = false → (s.pc i).buffered row = false →
      ((s.pc i).usedBanks.contains (row / 2 ^ 18) = false ∨ (s.pc i).marked.contains row = false) →
      (∃ t, exec (.hbmRead p off 1) s = .next t ∧ (t.pc i).ce = satAdd (s.pc i).ce 1 ∧ (t.pc i).ue = (s.pc i).ue ∧ (t.pc i).lastRow = row ∧
        (t.pc i).lastUe = false ∧ (t.pc i).selfref = false ∧ off / 64 ∈ (t.part p).img.hbmCe ∧ (t.part p).img.hbm = (s.part p).img.hbm ∧
        (t.part p).img.hbmUe = (s.part p).img.hbmUe ∧ (∀ j, j ≠ i → t.pc j = s.pc j) ∧ (∀ r, r ≠ p → t.part r = s.part r) ∧
        t = { s with hbm := t.hbm, parts := t.parts }) ∧
      (∀ errs, 2 ≤ errs → off < s.streamsOff (s.part p) →
        ∃ t, exec (.hbmRead p off errs) s = .next t ∧ (t.pc i).ue = satAdd (s.pc i).ue 1 ∧ (t.pc i).ce = (s.pc i).ce ∧ (t.pc i).lastUe = true ∧
          row ∈ (t.pc i).marked ∧ (t.part p).img.poisoned off = true ∧ (t.part p).img.hbm = (s.part p).img.hbm ∧ (∀ j, j ≠ i → t.pc j = s.pc j) ∧
          (∀ r, r ≠ p → t.part r = s.part r) ∧ t = { s with hbm := t.hbm, parts := t.parts })) ∧
    (∀ errs, ((s.part p).img.hbmPoison.contains (off / 64) = true ∨ (s.pc i).buffered row = true) → off < s.streamsOff (s.part p) →
      ∃ t, exec (.hbmRead p off errs) s = .next t ∧ t.pc i = { s.pc i with selfref := false, lastReq := s.opTicks } ∧ (∀ j, j ≠ i → t.pc j = s.pc j) ∧
        t = { s with hbm := t.hbm })) ∧
  (∀ (s : State) (p off i row errs : Nat), s.pcOf (s.part p) (off / 64 * 64) = some (i, row) → s.refreshing i = true → off < s.streamsOff (s.part p) →
    exec (.hbmRead p off errs) s = .next s) ∧
  (∀ (s : State) (pc errs : Nat) (newer : Bool) (waits : Bool),
    waits = ((s.pc pc).scrubPos == 0 && (match (s.pc pc).scrubAt with | some t => decide (s.opMs < t + 86400000) | none => false)) →
    (pc / 32 < s.stacks → ((s.pc pc).role = 0 ∨ (s.pc pc).role = 2) → s.refreshing pc = false → waits = false →
      ((s.pc pc).queue.any fun r => r.part == 8 && r.prio == 6) = false →
      (∃ t, exec (.patrolScrub pc 0 false) s = .next t ∧ (t.pc pc).scrubPos = (if (s.pc pc).scrubPos + 1 = 25165824 then 0 else (s.pc pc).scrubPos + 1) ∧
        (t.pc pc).passes = (if (s.pc pc).scrubPos + 1 = 25165824 then satAdd (s.pc pc).passes 1 else (s.pc pc).passes) ∧
        (t.pc pc).scrubAt = (if (s.pc pc).scrubPos = 0 then some s.opMs else (s.pc pc).scrubAt) ∧
        ((s.pc pc).scrubPos + 1 < 25165824 → ⟨6, 8, (s.pc pc).scrubPos + 1⟩ ∈ (t.pc pc).queue) ∧ (t.pc pc).ce = (s.pc pc).ce ∧ (t.pc pc).ue = (s.pc pc).ue ∧
        t = { s with hbm := t.hbm }) ∧
      (∀ p u row, s.burstAt pc ((s.pc pc).scrubPos * 64) = some (p, false, u) → s.pcOf (s.part p) (u * 64) = some (pc, row) →
        (s.part p).img.hbmPoison.contains u = false → (s.pc pc).buffered row = false →
        ((s.pc pc).usedBanks.contains (row / 2 ^ 18) = false ∨ (s.pc pc).marked.contains row = false) →
        ∃ t, exec (.patrolScrub pc 1 newer) s = .next t ∧ (t.pc pc).ce = satAdd (s.pc pc).ce 1 ∧ u ∉ (t.part p).img.hbmCe ∧
          (t.part p).img.hbm = (s.part p).img.hbm ∧ (∀ j, j ≠ pc → t.pc j = s.pc j) ∧ (∀ r, r ≠ p → t.part r = s.part r) ∧
          t = { s with hbm := t.hbm, parts := t.parts })) ∧
    ((s.stacks ≤ pc / 32 ∨ (s.pc pc).role = 1 ∨ (s.pc pc).role = 3 ∨ s.refreshing pc = true ∨ waits = true ∨
      ((s.pc pc).queue.any fun r => r.part == 8 && r.prio == 6) = true) → exec (.patrolScrub pc errs newer) s = .next s)) ∧
  (∀ (s : State) (pc row : Nat) (free : Bool),
    free = (inRefresh (pc / 32) s.cc && (!(s.hbm.winUsed.getD (pc / 32) true) || (s.holders (s.pc pc).slice).any fun p => (s.part p).st == .restarting)) →
    ((s.pc pc).buffered row = true → free = true →
      ∃ t, exec (.rowRepair pc row) s = .next t ∧ (t.pc pc).soft = ((s.pc pc).soft + 1) % 256 ∧ row ∈ (t.pc pc).softRows ∧
        row / 2 ^ 18 ∈ (t.pc pc).usedBanks ∧ (t.pc pc).marked.contains row = false ∧ (∀ j, j ≠ pc → t.pc j = s.pc j) ∧
        (∀ r, (t.part r).img.hbm = (s.part r).img.hbm) ∧ t.stook.offered = s.stook.offered + 1 ∧
        t = { s with hbm := t.hbm, parts := t.parts, stook := t.stook, host := t.host, out := t.out }) ∧
    (((s.pc pc).buffered row = false ∨ free = false) → exec (.rowRepair pc row) s = .next s))) ∧
  (∀ (s : State) (k : Nat),
    (k < s.stacks → s.cc % 4875 = 150 * k →
      ∃ t, exec (.refreshWindow k) s = .next t ∧
        (680 ≤ s.hbm.temp.getD k 0 → t.hbm.refAll.getD k false = true ∧ t.hbm.winUsed.getD k false = true) ∧
        (s.hbm.temp.getD k 0 ≤ 664 → t.hbm.refAll.getD k false = false ∧ t.hbm.winUsed.getD k false = decide (s.cc / 4875 % 2 = 0)) ∧
        (664 < s.hbm.temp.getD k 0 → s.hbm.temp.getD k 0 < 680 → t.hbm.refAll.getD k false = s.hbm.refAll.getD k false) ∧
        (∀ j, j ≠ k → t.hbm.refAll.getD j false = s.hbm.refAll.getD j false) ∧ t = { s with hbm := t.hbm }) ∧
    ((s.stacks ≤ k ∨ s.cc % 4875 ≠ 150 * k) → exec (.refreshWindow k) s = .next s)) ∧
  (∀ (s : State) (k : Nat) (is : List Nat), is = (s.slicePcs k).filter (fun i => k != 31 || (s.pc i).role == 1) →
    (k ≤ 31 → (∀ i ∈ is, (s.pc i).lastReq + Config.ccPerMs ≤ s.opTicks) → (∀ p ∈ s.holders k, (s.part p).st.keepsAwake = false) →
      ∃ t, exec (.selfRefreshEntry k) s = .next t ∧ (∀ i ∈ is, t.pc i = { s.pc i with selfref := true }) ∧
        (∀ i, i ∉ is → t.pc i = s.pc i) ∧ t = { s with hbm := t.hbm }) ∧
    ((31 < k ∨ (∃ i ∈ is, s.opTicks < (s.pc i).lastReq + Config.ccPerMs) ∨ ∃ p ∈ s.holders k, (s.part p).st.keepsAwake = true) →
      exec (.selfRefreshEntry k) s = .next s)) ∧
  ∀ (s : State) (pc : Nat) (ps : List Nat), ps = (s.holders (s.pc pc).slice).filter (fun r => (s.part r).st.live) →
    ((s.pc pc).role ≠ 1 → (s.pc pc).role ≠ 3 →
      ∃ t, exec (.hbmFail pc) s = .next t ∧ (∀ p ∈ ps, (∀ h ∈ (s.part p).run.holds, h.kind ≠ 7) →
          (t.part p).cnt.fCause = 0x20 ∧ (t.part p).cnt.fCore = 1023 ∧ (t.part p).cnt.fEng = 7 ∧
          (∃ h ∈ (t.part p).run.holds, h.kind = 7 ∧ h.start = (s.part p).run.logical + 96)) ∧ (∀ r, r ∉ ps → t.part r = s.part r) ∧
        t = { s with parts := t.parts, stook := t.stook, host := t.host, out := t.out }) ∧
    (((s.pc pc).role = 1 ∨ (s.pc pc).role = 3) → exec (.hbmFail pc) s = .next s)


/-! ### The field and measurement (12, 13) -/

/-- R354, R356, R357, R359, R360, R361, R366, R372, R375, R383: what arrives on a field port. Lanes come up on a port that has a mode, and go down (DOWN set,
a warning). An Ethernet frame on a port that is up is counted, and dropped as MACSEC, as OTHER or for its checksum where it fails. A Haulm frame that fails a
check, names no point or comes out of order is dropped under its counter; one that passes gives each point that it reaches the value under its stamp, or counts
a discard. A solicitation for an address of the port is answered outside an emission window. An ASDU gives its points their values and its virtual source its
estimate. -/
def Obligations.FieldFrames : Prop :=
  (∀ (s : State) (port lanes : Nat),
    ((s.port port).mode ≠ 0 → s.board.laneRefBad = false → ∃ t, exec (.portLinkUp port lanes) s = .next t ∧
      t.port port = { s.port port with lanes := (s.port port).lanes ||| lanes % 16 } ∧
      (∀ p, p ≠ port → t.port p = s.port p) ∧ t = { s with field := { s.field with ports := t.field.ports } }) ∧
    (((s.port port).mode = 0 ∨ s.board.laneRefBad = true) → exec (.portLinkUp port lanes) s = .next s) ∧
    ((s.port port).lanes &&& lanes ≠ 0 → ∃ t, exec (.portLinkDown port lanes) s = .next t ∧
      t.port port = { s.port port with lanes := (s.port port).lanes &&& (15 - lanes % 16), down := true, downAt := some s.opTicks } ∧
      (∀ p, p ≠ port → t.port p = s.port p) ∧ t.stook.offered = s.stook.offered + 1 ∧
      t = { s with field := { s.field with ports := t.field.ports }, stook := t.stook, host := t.host, out := t.out }) ∧
    ((s.port port).lanes &&& lanes = 0 → exec (.portLinkDown port lanes) s = .next s)) ∧
  (∀ (s : State) (port sub : Nat) (sec : SecTag) (f : Bytes) (n : Nat), n = f.length + (if sec = .none then 0 else 32) →
    (((s.port port).mode = 2 ∨ (s.port port).mode = 3) → (s.port port).isUp sub = true →
      ∃ t, exec (.ethernetFrame port sub sec f) s = .next t ∧ (t.port port).rx = satAdd (s.port port).rx 1 ∧
        (s.secCheck port sub sec = none →
          (t.port port).drop = (s.port port).drop.put 4 (satAdd ((s.port port).drop.getD 4 0) 1) ∧ t.field.assocs = s.field.assocs) ∧
        ((s.secCheck port sub sec).isSome = true → (n < 64 ∨ 1600 < n ∨ s.classify port sub f = none) →
          (t.port port).drop = (s.port port).drop.put 5 (satAdd ((s.port port).drop.getD 5 0) 1)) ∧
        ((s.secCheck port sub sec).isSome = true → 64 ≤ n → n ≤ 1600 → ∀ k, s.classify port sub f = some k →
          (t.port port).drop = if k = 2 ∧ udpOk f (if leNat (Sys2Proof.sub f 12 2).reverse = 0x8100 then 18 else 14) = false
            then (s.port port).drop.put 0 (satAdd ((s.port port).drop.getD 0 0) 1) else (s.port port).drop) ∧
        (∀ i an pn ok a, sec = .tagged i an pn ok → s.secCheck port sub sec = some i → s.field.assocs.get? i = some a →
          t.field.assocs.get? i = some { a with rxPn := a.rxPn.put an (max (a.rxPn.getD an 1) (pn + 1)) }) ∧
        (t.port port).last = (s.port port).last ∧ t.field.points = s.field.points ∧ (∀ p, p ≠ port → t.port p = s.port p) ∧ t = { s with field := t.field }) ∧
    ((((s.port port).mode ≠ 2 ∧ (s.port port).mode ≠ 3) ∨ (s.port port).isUp sub = false) → exec (.ethernetFrame port sub sec f) s = .next s)) ∧
  (∀ (s : State) (port sub msa : Nat) (f : Bytes) (rx : Nat) (drop : Nat → Tbl Nat), rx = (if (s.port port).mode = 1 then satAdd (s.port port).rx 1 else (s.port port).rx) →
    drop = (fun k => (s.port port).drop.put k (satAdd ((s.port port).drop.getD k 0) 1)) →
    (((s.port port).isUp sub = false ∨ ((s.port port).mode ≠ 1 ∧ msa = 0 ∧ bit (fld ((s.port port).subCfg sub) 3 1) 0 = true)) →
      exec (.haulmDataIn port sub msa f) s = .next s) ∧
    ((s.port port).isUp sub = true → ((s.port port).mode = 1 ∨ msa ≠ 0 ∨ bit (fld ((s.port port).subCfg sub) 3 1) 0 = false) →
      (∀ k, haulmCheck f [1] = some k → ∃ t, exec (.haulmDataIn port sub msa f) s = .next t ∧ t.port port = { s.port port with rx := rx, drop := drop k } ∧
        (∀ p, p ≠ port → t.port p = s.port p) ∧ t = { s with field := { s.field with ports := t.field.ports } }) ∧
      (haulmCheck f [1] = none → s.streamPoints port sub (fld f 8 4) = [] → ∃ t, exec (.haulmDataIn port sub msa f) s = .next t ∧
        t.port port = { s.port port with rx := rx, drop := drop 2 } ∧ (∀ p, p ≠ port → t.port p = s.port p) ∧
        t = { s with field := { s.field with ports := t.field.ports } }) ∧
      (∀ q u, haulmCheck f [1] = none → s.streamPoints port sub (fld f 8 4) ≠ [] → (s.port port).last.get? (sub * 4294967296 + fld f 8 4) = some (q, u) →
        (fld f 12 8 ≤ q ∨ timeOf (Sys2Proof.sub f 20 12) < u) → ∃ t, exec (.haulmDataIn port sub msa f) s = .next t ∧
        t.port port = { s.port port with rx := rx, drop := drop 3 } ∧ (∀ p, p ≠ port → t.port p = s.port p) ∧
        t = { s with field := { s.field with ports := t.field.ports } }) ∧
      (haulmCheck f [1] = none → s.streamPoints port sub (fld f 8 4) ≠ [] →
        (∀ q u, (s.port port).last.get? (sub * 4294967296 + fld f 8 4) = some (q, u) → q < fld f 12 8 ∧ u ≤ timeOf (Sys2Proof.sub f 20 12)) →
        ∃ t, exec (.haulmDataIn port sub msa f) s = .next t ∧
          t.port port = { s.port port with rx := rx, last := (s.port port).last.put (sub * 4294967296 + fld f 8 4) (fld f 12 8, timeOf (Sys2Proof.sub f 20 12)) } ∧
          (∀ p, p ≠ port → t.port p = s.port p) ∧ (∀ j, (∀ e ∈ s.streamPoints port sub (fld f 8 4), e.1 ≠ j) → t.point j = s.point j) ∧
          (∀ i x raw, ((s.streamPoints port sub (fld f 8 4)).filter fun e => e.1 == i) = [(i, x)] → raw = elemAt (fld f 34 1) (f.drop 64) x.vidx →
            (fld f 32 2 ≤ x.vidx → t.point i = s.point i) ∧
            (x.vidx < fld f 32 2 → (x.wfmt ≠ fld f 34 1 ∨ (x.msa ≠ 0 ∧ x.msa ≠ msa)) → t.point i = { s.point i with discards := satAdd (s.point i).discards 1 }) ∧
            (x.vidx < fld f 32 2 → x.wfmt = fld f 34 1 → (x.msa = 0 ∨ x.msa = msa) →
              (t.point i).held = (s.point i).heldAfter (if x.cal = 0 then ⟨(convert (fld f 34 1) 8 true false raw).code, timeOf (Sys2Proof.sub f 20 12), s.now, bit (fld f 6 1) 2⟩
                else ⟨calValue (s.calFactory (256 + x.cal)) (s.calUser (256 + x.cal)) (decodeVal (fld f 34 1) raw),
                  calStamp (s.calFactory (256 + x.cal)) (s.calUser (256 + x.cal)) (timeOf (Sys2Proof.sub f 20 12)), s.now, bit (fld f 6 1) 2⟩) ∧
              (t.point i).discards = (s.point i).discards ∧ (t.point i).raw = (s.point i).raw)) ∧
          t = { s with field := t.field, ltes := t.ltes, parts := t.parts }))) ∧
  (∀ (s : State) (port sub : Nat) (target source cfg : Bytes), cfg = (s.port port).subCfg sub →
    ((target = Sys2Proof.sub cfg 16 16 ∨ target = Sys2Proof.sub cfg 32 16) → ((s.port port).mode = 2 ∨ (s.port port).mode = 3) → s.inWindow port = false →
      (bit (fld cfg 3 1) 0 = false → (s.port port).isUp sub = true →
        ∃ t, exec (.neighborSolicitation port sub target source) s = .next t ∧
          t.out = s.out ++ [⟨3, port * 4 + sub, source ++ target ++ Sys2Proof.sub cfg 8 6⟩] ∧ t.port port = { s.port port with tx := satAdd (s.port port).tx 1 } ∧
          (∀ p, p ≠ port → t.port p = s.port p) ∧ t = { s with field := { s.field with ports := t.field.ports }, out := t.out }) ∧
      (∀ k a an, bit (fld cfg 3 1) 0 = true → (s.port port).isUp sub = true → k ≠ 0 → s.field.assocs.get? k = some a →
        (s.field.assocs.find? fun y => y.2.transmit && y.2.port == port && y.2.sub == sub) = some (k, a) → a.an = some an → a.pns.getD an 1 < 2 ^ 64 - 1 →
        ∃ t, exec (.neighborSolicitation port sub target source) s = .next t ∧
          ⟨3, port * 4 + sub, source ++ target ++ Sys2Proof.sub cfg 8 6⟩ ∈ t.out ∧ t.port port = { s.port port with tx := satAdd (s.port port).tx 1 } ∧
          (∃ b, t.field.assocs.get? k = some b ∧ b.pns.getD an 1 = a.pns.getD an 1 + 1) ∧ (∀ p, p ≠ port → t.port p = s.port p) ∧
          t = { s with field := { s.field with ports := t.field.ports, assocs := t.field.assocs }, stook := t.stook, host := t.host, out := t.out }) ∧
      (((s.port port).isUp sub = false ∨ (bit (fld cfg 3 1) 0 = true ∧ ∀ y ∈ s.field.assocs, ¬(y.2.transmit = true ∧ y.2.port = port ∧ y.2.sub = sub))) →
        ∃ t, exec (.neighborSolicitation port sub target source) s = .next t ∧ t.port port = { s.port port with txDrop := satAdd (s.port port).txDrop 1 } ∧
          (∀ p, p ≠ port → t.port p = s.port p) ∧ t = { s with field := { s.field with ports := t.field.ports } })) ∧
    (((target ≠ Sys2Proof.sub cfg 16 16 ∧ target ≠ Sys2Proof.sub cfg 32 16) ∨ ((s.port port).mode ≠ 2 ∧ (s.port port).mode ≠ 3) ∨ s.inWindow port = true) →
      exec (.neighborSolicitation port sub target source) s = .next s)) ∧
  (∀ (s : State) (v smp conf syn : Nat) (values : List (Nat × Nat)) (tr : Option Track), (s.field.subs.get? v = none ∨ ∃ sb, s.field.subs.get? v = some sb ∧
      (bit (fld sb.raw 1 1) 0 = false ∨ ((s.port (fld sb.raw 26 1 % 8)).mode ≠ 2 ∧ (s.port (fld sb.raw 26 1 % 8)).mode ≠ 3) ∨
        (s.port (fld sb.raw 26 1 % 8)).isUp (fld sb.raw 26 1 / 8 % 4) = false)) → exec (.svAsdu v smp conf syn values tr) s = .next s) ∧
  ∀ (s : State) (v smp conf syn port now : Nat) (values : List (Nat × Nat)) (sb : SvSub) (pts : List (Nat × Point)), s.field.subs.get? v = some sb →
    bit (fld sb.raw 1 1) 0 = true → port = fld sb.raw 26 1 % 8 → ((s.port port).mode = 2 ∨ (s.port port).mode = 3) →
    (s.port port).isUp (fld sb.raw 26 1 / 8 % 4) = true →
    pts = (s.field.points.filter fun y => y.2.owned && y.2.valid? && !y.2.output && y.2.src == 1 && y.2.stream == v) → now = svStamp sb.raw s.now smp syn →
    (∃ t, exec (.svAsdu v smp conf syn values none) s = .next t ∧ t.field.subs.get? v = some { sb with count := sb.count + 1 } ∧
      (pts = [] → t.port port = { s.port port with drop := (s.port port).drop.put 2 (satAdd ((s.port port).drop.getD 2 0) 1) } ∧ t.field.points = s.field.points) ∧
      (∀ q u, pts ≠ [] → (s.port port).last.get? (2 ^ 40 + v) = some (q, u) → now < u →
        t.port port = { s.port port with drop := (s.port port).drop.put 3 (satAdd ((s.port port).drop.getD 3 0) 1) } ∧ t.field.points = s.field.points) ∧
      (pts ≠ [] → (∀ q u, (s.port port).last.get? (2 ^ 40 + v) = some (q, u) → u ≤ now) →
        t.port port = { s.port port with last := (s.port port).last.put (2 ^ 40 + v) (sb.count + 1, now) } ∧
        (∀ j, (∀ e ∈ pts, e.1 ≠ j) → t.point j = s.point j) ∧
        (∀ i x, (pts.filter fun e => e.1 == i) = [(i, x)] → (values[x.vidx]? = none → t.point i = s.point i) ∧
          (∀ val q, values[x.vidx]? = some (val, q) → (t.point i).held = (s.point i).heldAfter
            ⟨calValue (s.calFactory (64 + v)) (s.calUser (64 + v)) ((Val.ofInt (toSigned 32 val)).mul (decodeVal 8 (fld sb.raw 18 4))),
              calStamp (s.calFactory (64 + v)) (s.calUser (64 + v)) now, s.now, q % 4 != 0 || bit q 11 || conf != fld sb.raw 14 4⟩))) ∧
      (∀ p, p ≠ port → t.port p = s.port p) ∧ t = { s with field := t.field, ltes := t.ltes, parts := t.parts }) ∧
    (∀ x, ∃ t, exec (.svAsdu v smp conf syn values (some x)) s = .next t ∧ t.field.subs.get? v = some { sb with count := sb.count + 1 } ∧
      (∀ val q, values[fld sb.raw 2 1]? = some (val, q) → q % 4 = 0 → bit q 11 = false → conf = fld sb.raw 14 4 → (s.port port).last.get? (2 ^ 40 + v) = none →
        (t.awn (64 + v)).state = ((s.trackState (64 + v) x).awn (64 + v)).state ∧ ((s.awn (64 + v)).en = true → (t.awn (64 + v)).est.isSome = true)) ∧
      (∀ c, c ≠ 64 + v → t.awn c = s.awn c) ∧
      t = { s with field := t.field, ltes := t.ltes, parts := t.parts, meas := t.meas, stook := t.stook, host := t.host, out := t.out })

/-- R385 to R388, R390, R393, R395, R397, R501, R502, R505: measurements. A sample moves the tracker's state and gives an estimate, none where tracking is
disabled; a full-scale one is flagged and counted, with at most one warning a second; without module time nothing is sampled. A gap of a virtual source in
LOCKED starts its flywheel. An eye measurement is kept, and ten low ones in a row set LOW, with at most one warning an hour. A lane that lost alignment, or
stayed LOW for an hour, is charged with a warning, and retired with the third charge. LATCH copies the newest estimate. -/
def Obligations.MeasurementEvents : Prop :=
  (∀ (s : State) (l : List (Nat × Int × Track)), s.time.runs = true → ∃ t, exec (.awnSample l) s = .next t ∧
    (∀ c, (∀ y ∈ l, y.1 ≠ c) → t.awn c = s.awn c) ∧ (∀ c, 12 ≤ c → t.awn c = s.awn c) ∧
    (∀ ch v x, ch < 12 → (l.filter fun y => y.1 == ch) = [(ch, v, x)] →
      ((8388607 ≤ v ∨ v ≤ -8388608) → (t.awn ch).ovr = true ∧ (t.awn ch).ovrSet = some s.opTicks ∧ (t.awn ch).ovrCnt = satAdd (s.awn ch).ovrCnt 1) ∧
      (-8388608 < v → v < 8388607 → (t.awn ch).ovr = (s.awn ch).ovr ∧ (t.awn ch).ovrCnt = (s.awn ch).ovrCnt) ∧
      (t.awn ch).state = ((s.trackState ch x).awn ch).state ∧
      ((s.awn ch).en = false → (t.awn ch).state = 0 ∧ (t.awn ch).est = (s.awn ch).est) ∧
      ((s.awn ch).en = true → (t.awn ch).state ≠ 3 → ∃ e, (t.awn ch).est = some e ∧ e.freq = x.freq ∧
        e.phase = calPhase (s.calFactory ch) (s.calUser ch) x.phase x.freq ∧
        e.stamp = calStamp (s.calFactory ch) (s.calUser ch) (s.now / 256000000 * 256000000))) ∧
    (∀ ch v x, l = [(ch, v, x)] → ch < 12 → (s.awn ch).en = false → t.stook.offered = s.stook.offered +
      (if (8388607 ≤ v ∨ v ≤ -8388608) ∧ (∀ w, (s.awn ch).warned = some w → w + 1000 ≤ s.opMs) then 1 else 0)) ∧
    t = { s with meas := t.meas, field := t.field, ltes := t.ltes, stook := t.stook, host := t.host, out := t.out }) ∧
  (∀ (s : State) (l : List (Nat × Int × Track)), s.time.runs = false → exec (.awnSample l) s = .next s) ∧
  (∀ (s : State) (v : Nat), (v < 64 → (s.awn (64 + v)).state = 2 →
      ∃ t, exec (.virtualSourceGap v) s = .next t ∧ (t.awn (64 + v)).state = 3 ∧ (t.awn (64 + v)).lockCnt = satAdd (s.awn (64 + v)).lockCnt 1 ∧
        (t.awn (64 + v)).flySince = s.opTicks ∧ (∀ c, c ≠ 64 + v → t.awn c = s.awn c) ∧ t = { s with meas := t.meas, stook := t.stook, host := t.host, out := t.out }) ∧
    ((64 ≤ v ∨ (s.awn (64 + v)).state ≠ 2) → exec (.virtualSourceGap v) s = .next s)) ∧
  (∀ (s : State) (lane vmin hmin : Nat), (s.alive = true → lane < 48 →
      ∃ t, exec (.laneEyeMeasurement lane vmin hmin) s = .next t ∧ (t.lane lane).vmin = vmin % 65536 ∧ (t.lane lane).hmin = hmin % 65536 ∧
        (t.lane lane).updates = satAdd (s.lane lane).updates 1 ∧
        (t.lane lane).lowRun = (if vmin < 80 ∨ 20 * hmin < 1024 then (s.lane lane).lowRun + 1 else 0) ∧
        (t.lane lane).low = ((s.lane lane).low || decide (10 ≤ (t.lane lane).lowRun)) ∧
        (10 ≤ (t.lane lane).lowRun → (t.lane lane).lowSet = some s.opTicks) ∧
        t.stook.offered = s.stook.offered + (if 10 ≤ (t.lane lane).lowRun ∧ (∀ w, (s.lane lane).warned = some w → w + 3600000 ≤ s.opMs) then 1 else 0) ∧
        (∀ l, l ≠ lane → t.lane l = s.lane l) ∧ t = { s with meas := { s.meas with lanes := t.meas.lanes }, stook := t.stook, host := t.host, out := t.out }) ∧
    ((s.alive = false ∨ 48 ≤ lane) → exec (.laneEyeMeasurement lane vmin hmin) s = .next s)) ∧
  (∀ (s : State) (lane : Nat) (lost : Bool),
    (s.alive = true → lane < 48 → s.disabled 4 lane = false → (lost = true ∨ ((s.lane lane).low = true ∧ (s.lane lane).lowSince + 3600000 ≤ s.opMs)) →
      (s.charged 4 lane < 2 → ∃ t, exec (.laneCharge lane lost) s = .next t ∧ t.units.charges = s.units.charges ++ [(4, lane, s.opMs)] ∧ t.units.recs = s.units.recs ∧
        t.stook.offered = s.stook.offered + 1 ∧ (lost = true → t.meas = s.meas) ∧
        t = { s with units := t.units, meas := { s.meas with lanes := t.meas.lanes }, stook := t.stook, host := t.host, out := t.out }) ∧
      (2 ≤ s.charged 4 lane → s.units.recs.length < 512 → ∃ t, exec (.laneCharge lane lost) s = .next t ∧
        t.units.charges = s.units.charges ++ [(4, lane, s.opMs)] ∧ t.units.recs = s.units.recs ++ [⟨5, 4, lane, 0, s.opMs % 2 ^ 40⟩] ∧
        (lane < 16 → t.twin.retired = s.twin.retired ||| 2 ^ lane) ∧
        (16 ≤ lane → (t.port ((lane - 16) / 4)).retired = (s.port ((lane - 16) / 4)).retired ||| 2 ^ ((lane - 16) % 4)))) ∧
    ((s.alive = false ∨ 48 ≤ lane ∨ s.disabled 4 lane = true ∨
      (lost = false ∧ ((s.lane lane).low = false ∨ s.opMs < (s.lane lane).lowSince + 3600000))) → exec (.laneCharge lane lost) s = .next s)) ∧
  ∀ (s : State) (u : Nat) (x : Estimate), s.serves = true → unitValid 6 u = true → (s.awn u).est = some x →
    ∃ t, exec (.awnCtlLatch u) s = .next t ∧ (t.awn u).latched = some x ∧ (∀ c, c ≠ u → t.awn c = s.awn c) ∧ t = { s with meas := { s.meas with awn := t.meas.awn } }

/-! ### Stook and the store (15) -/

/-- R39, R409, R444, R445, R447 to R450: Stook. The record at the head of the ingress queue takes the next acceptance number and enters the main log,
where the oldest of its severity or less gives way once the log is full, or the side buffer while the log is frozen; one that finds no place is counted;
severities 6 and 7 pull SMB_ALERT# and wait for a summary entry, severities 4 and more set their EVT_SUM bit; summary entries are committed oldest first, and
the last one is recorded; a freeze of 60 s is thawed and recorded. LOG_FREEZE freezes the main log with an empty side buffer and answers the number of records
and the counts of those dropped; LOG_READ answers records of the frozen log, into the reply or an output area; LOG_THAW merges the side buffer. A second
LOG_FREEZE, and LOG_READ and LOG_THAW without a freeze, are refused with BAD_STATE, arguments of LOG_READ that are not right with BAD_ARG. -/
def Obligations.StookAndItsCommands : Prop :=
  ((∀ s : State, s.stook.ingress = [] → exec .stookRecordEntry s = .next s) ∧
  (∀ (s : State) (r r1 : Rec) (rest : List Rec), s.stook.ingress = r :: rest → r1 = { r with acc := s.stook.next, merged := s.stook.frozen.isSome } →
    ∃ t, exec .stookRecordEntry s = .next t ∧ t.stook.ingress = rest ∧ t.stook.next = s.stook.next + 1 ∧
      (s.stook.frozen = none → t.stook.side = s.stook.side ∧ t.stook.missed = s.stook.missed ∧
        (s.stook.log.length < Config.logSize → t.stook.log = s.stook.log ++ [r1] ∧ t.stook.dropped = s.stook.dropped) ∧
        (∀ x, Config.logSize ≤ s.stook.log.length → oldestUpTo s.stook.log r.sev = some x →
          t.stook.log = s.stook.log.filter (fun y => y.acc != x.acc) ++ [r1] ∧ t.stook.dropped = s.stook.dropped) ∧
        (Config.logSize ≤ s.stook.log.length → oldestUpTo s.stook.log r.sev = none →
          t.stook.log = s.stook.log ∧ t.stook.dropped = s.stook.dropped.put r.sev (satAdd (s.stook.dropped.getD r.sev 0) 1) ∧ bit t.host.evtSum 10 = true)) ∧
      (s.stook.frozen.isSome = true → t.stook.log = s.stook.log ∧ t.stook.dropped = s.stook.dropped ∧
        (s.stook.side.length < Config.sideSize → t.stook.side = s.stook.side ++ [r1] ∧ t.stook.missed = s.stook.missed) ∧
        (∀ x, Config.sideSize ≤ s.stook.side.length → oldestUpTo s.stook.side r.sev = some x →
          t.stook.side = s.stook.side.filter (fun y => y.acc != x.acc) ++ [r1] ∧
          t.stook.missed = s.stook.missed.put x.sev (satAdd (s.stook.missed.getD x.sev 0) 1)) ∧
        (Config.sideSize ≤ s.stook.side.length → oldestUpTo s.stook.side r.sev = none →
          t.stook.side = s.stook.side ∧ t.stook.missed = s.stook.missed.put r.sev (satAdd (s.stook.missed.getD r.sev 0) 1) ∧ bit t.host.evtSum 10 = true)) ∧
      t.stook.frozen = s.stook.frozen ∧ t.stook.offered = s.stook.offered ∧
      t.board = (if 6 ≤ r.sev then { s.board with alert := true } else s.board) ∧
      t.stook.toSum = (if 6 ≤ r.sev ∧ r.summary = false ∧ s.otp.sumFull = false then s.stook.toSum ++ [r1] else s.stook.toSum) ∧
      (r.sev = 6 → bit t.host.evtSum 0 = true) ∧ (r.sev = 7 → bit t.host.evtSum 1 = true) ∧ (r.sev = 5 → bit t.host.evtSum 4 = true) ∧
      (r.sev = 4 → bit t.host.evtSum 5 = true) ∧ (∀ k, bit s.host.evtSum k = true → bit t.host.evtSum k = true) ∧ t.host.slots = s.host.slots ∧
      t = { s with stook := t.stook, board := t.board, host := t.host, out := t.out }) ∧
  (∀ s : State, s.stook.toSum = [] → exec .summaryEntryWrite s = .next s) ∧
  (∀ (s : State) (r : Rec) (rest : List Rec), s.stook.toSum = r :: rest →
    (s.otp.sumFull = true → exec .summaryEntryWrite s = .next { s with stook := { s.stook with toSum := [] } }) ∧
    (s.otp.sumFull = false → s.otp.summary.length < 512 →
      ∃ t, exec .summaryEntryWrite s = .next t ∧ t.otp = { s.otp with summary := s.otp.summary ++ [r.summaryBytes], sumFull := decide (s.otp.summary.length = 511) } ∧
        t.stook.toSum = rest ∧ t.stook.log = s.stook.log.map (fun x => if x.acc = r.acc then { x with summary := true } else x) ∧
        t.stook.side = s.stook.side.map (fun x => if x.acc = r.acc then { x with summary := true } else x) ∧
        t.stook.offered = s.stook.offered + (if s.otp.summary.length = 511 then 1 else 0) ∧
        t = { s with stook := t.stook, otp := t.otp, host := t.host, out := t.out })) ∧
  (∀ (s : State) (f : Nat), s.stook.frozen = some f →
    (f + 150000000000 ≤ s.opTicks → ∃ t, exec .logFreezeExpiry s = .next t ∧ t.stook.frozen = none ∧ t.stook.side = [] ∧
      (s.stook.log.length + s.stook.side.length ≤ Config.logSize → t.stook.log = s.stook.log ++ s.stook.side) ∧
      (s.stook.log.length ≤ Config.logSize → t.stook.log.length ≤ Config.logSize) ∧
      t.stook.offered = s.stook.offered + 1 ∧ t = { s with stook := t.stook, host := t.host, out := t.out }) ∧
    (s.opTicks < f + 150000000000 → exec .logFreezeExpiry s = .next s)) ∧
  ∀ s : State, s.stook.frozen = none → exec .logFreezeExpiry s = .next s) ∧
  (∀ (s : State) (n : Nat), s.calls n 0x0501 locked4 false anyForm →
    (s.stook.frozen = none → exec (.logFreeze n) s = .next (({ s with stook := { s.stook with frozen := some s.opTicks, side := [], missed := [] } } : State).finish n stOk
      (natLe 4 s.stook.log.length ++ sevCounters s.stook.dropped))) ∧
    (s.stook.frozen.isSome = true → exec (.logFreeze n) s = .next (s.finish n stState []))) ∧
  (∀ (s : State) (n : Nat), s.calls n 0x0502 locked4 false anyForm →
    (s.stook.frozen = none → exec (.logRead n) s = .next (s.finish n stState [])) ∧
    (∀ (f first want sev off : Nat) (b : Bytes), s.stook.frozen = some f → b = s.payload (s.slot n) → fld b 0 4 = first → fld b 4 4 = want → fld b 8 1 = sev → fld b 16 8 = off →
      (payOk b 24 [(9, 7)] = false ∨ 7 < sev ∨ (off ≠ 0 ∧ s.outputOk off (32 * want) = false) → exec (.logRead n) s = .next (s.finish n stArg [])) ∧
      (payOk b 24 [(9, 7)] = true → sev ≤ 7 → (off = 0 ∨ s.outputOk off (32 * want) = true) →
        ∃ l next d, l = ((((List.range s.stook.log.length).zip s.stook.log).filter fun x => decide (first ≤ x.1 ∧ sev ≤ x.2.sev)).take (if off = 0 then min want 6 else want)) ∧
          next = (match l.getLast? with | some x => x.1 + 1 | none => first) ∧ d = l.flatMap (fun x => x.2.bytes) ∧
          exec (.logRead n) s = .next ((if off = 0 then s else s.winWrite off d).finish n stOk
            (natLe 4 l.length ++ natLe 4 s.stook.log.length ++ natLe 4 next ++ zeros 20 ++ (if off = 0 then d else [])))))) ∧
  ∀ (s : State) (n : Nat), s.calls n 0x0503 locked4 false anyForm →
    (s.stook.frozen = none → exec (.logThaw n) s = .next (s.finish n stState [])) ∧
    (s.stook.frozen.isSome = true → ∃ u : State, exec (.logThaw n) s = .next (u.finish n stOk (natLe 4 s.stook.side.length ++ sevCounters s.stook.missed)) ∧
      u.stook.frozen = none ∧ u.stook.side = [] ∧ (s.stook.log.length ≤ Config.logSize → u.stook.log.length ≤ Config.logSize) ∧
      (s.stook.log.length + s.stook.side.length ≤ Config.logSize →
        u = { s with stook := { s.stook with log := s.stook.log ++ s.stook.side, side := [], frozen := none } }) ∧
      u = { s with stook := u.stook, host := u.host, out := u.out })

/-! ### The host link, its registers and the watcher (14) -/

/-- R351, R400 to R402, R406, R426: the host link. Each of the four resets of R401 leaves the link down, BAR decoding off, USEL, MBX_CTL, MBX_IRQ and
EVT_MASK at reset and D3hot left; commands accepted stay so, those held are accepted when the mailbox takes commands. The link comes up on a good reference
where the root die runs; D3hot needs the link. A window read of backed bytes answers them, one of unbacked bytes answers zeros and is counted; a write stores
its bytes, or is discarded and counted; an access that is not within 64 aligned bytes does nothing. A misaligned BAR0 access is reported as an advisory error,
a read of it answers all ones. -/
def Obligations.HostLinkEvents : Prop :=
  (∀ (s : State) (i : Instr), i ∈ [.functionLevelReset, .hotReset, .hostLinkDown, .perstAssert] →
    ∃ t, exec i s = .next t ∧ t.host = { s.host with
        link := false, bars := false, d3hot := false, uclass := 1, uindex := 0, en := true, cmplIrq := false, evtIrq := false, holdoff := 0, evtMask := 0x7FF
        vecLast := [], vecWait := [], accepted := (if s.host.ready then s.host.accepted ++ s.host.waiting else s.host.accepted)
        waiting := (if s.host.ready then [] else s.host.waiting) } ∧
      t.board = { s.board with perst := s.board.perst || i == .perstAssert } ∧ t = { s with host := t.host, board := t.board }) ∧
  (∀ s : State, (s.glumeRuns = true → s.board.hostRefBad = false → s.host.link = false →
      exec .hostLinkUp s = .next { s with host := { s.host with link := true, bars := true }, board := { s.board with perst := false } }) ∧
    ((s.glumeRuns = false ∨ s.board.hostRefBad = true ∨ s.host.link = true) → exec .hostLinkUp s = .next { s with board := { s.board with perst := false } }) ∧
    (s.host.link = true → exec .d3hotEntry s = .next { s with host := { s.host with d3hot := true } }) ∧
    (s.host.link = false → exec .d3hotEntry s = .next s) ∧
    exec .d3hotExit s = .next { s with host := { s.host with d3hot := false } }) ∧
  (∀ (s : State) (off n : Nat), s.host.link = true → s.glumeRuns = true → n ≠ 0 → off % 64 + n ≤ 64 → off / gib8 < 8 →
    (s.winOk off n = false →
      exec (.windowAccess off n none) s = .next { s with host := { s.host with unbacked := satAdd s.host.unbacked 1 }, out := s.out ++ [⟨13, 1, zeros n⟩] } ∧
      ∀ d : Bytes, d.length = n → exec (.windowAccess off n (some d)) s = .next { s with host := { s.host with unbacked := satAdd s.host.unbacked 1 } }) ∧
    (s.winOk off n = true → (∃ t, exec (.windowAccess off n none) s = .next t ∧
        t.out = s.out ++ [⟨13, b2n ((s.part (off / gib8)).img.poisoned (off % gib8)), memRead (s.part (off / gib8)).img.hbm (off % gib8) n⟩] ∧
        t = { s with hbm := t.hbm, out := t.out }) ∧
      ∀ d : Bytes, d.length = n → ∃ t, exec (.windowAccess off n (some d)) s = .next t ∧
        memRead (t.part (off / gib8)).img.hbm (off % gib8) n = d ∧
        (∀ a, a < off % gib8 ∨ off % gib8 + n ≤ a → memGet (t.part (off / gib8)).img.hbm a = memGet (s.part (off / gib8)).img.hbm a) ∧
        (∀ r, r ≠ off / gib8 → t.part r = s.part r) ∧ t = { s with parts := t.parts, hbm := t.hbm })) ∧
  (∀ (s : State) (off n : Nat) (w : Option Bytes), (s.host.link = false ∨ s.glumeRuns = false ∨ n = 0 ∨ 64 < off % 64 + n ∨ 8 ≤ off / gib8 ∨
      ∃ d, w = some d ∧ d.length ≠ n) → exec (.windowAccess off n w) s = .next s) ∧
  ∀ (s : State) (off width : Nat) (wr : Bool),
    (s.answers = true → width ≤ 64 → barAccess wr off width = false → exec (.bar0MisalignedAccess wr off width) s =
      .next { s with out := s.out ++ [⟨14, off, if wr then [] else List.replicate width 0xFF⟩] }) ∧
    ((s.answers = false ∨ 64 < width ∨ barAccess wr off width = true) → exec (.bar0MisalignedAccess wr off width) s = .next s)

/-- R11, R12, R39, R138, R397, R406, R408, R409, R410, R412: writes of BAR0. Every write of 4 bytes completes, one of 8 is two of 4; without an answer nothing
changes. EVT_SUM and MBX_DONE bits, LOW, DOWN, OVR and HIT are cleared by ones, but for one that hardware set in the same cycle; EVT_MASK, MBX_CTL, MBX_IRQ, USEL
take their bits; a register of the selected unit takes its value, or waits for the next launch on a partition that is RUNNING; a debug register of a module
that is not unlocked, or an AWN_CFG while a partition is RUNNING, is refused with a notice. A read of EVT_SUM releases SMB_ALERT#. -/
def Obligations.RegisterWrites : Prop :=
  (∀ (s : State) (off width v : Nat), (s.answers = false ∨ barAccess true off width = false ∨ (0x10000 ≤ off ∧ off < 0x50000)) →
    exec (.registerWrite off width v) s = .next s) ∧
  (∀ (s : State) (off v : Nat), (∃ t, exec (.registerWrite off 4 v) s = .next t ∧
      t = { s with host := t.host, cores := t.cores, parts := t.parts, meas := t.meas, field := t.field, stook := t.stook, out := t.out }) ∧
    (off % 8 = 0 → ∃ u, exec (.registerWrite off 4 v) s = .next u ∧ exec (.registerWrite off 8 v) s = exec (.registerWrite (off + 4) 4 (v / 4294967296)) u)) ∧
  (∀ (s : State) (v : Nat), s.answers = true → v < 4294967296 →
    (∃ t, exec (.registerWrite 0x3000 4 v) s = .next t ∧
      (∀ k, k < 11 → bit t.host.evtSum k = (bit s.host.evtSum k && !(bit v k && s.host.evtAt.get? k != some s.opTicks))) ∧
      t = { s with host := { s.host with evtSum := t.host.evtSum } }) ∧
    exec (.registerWrite 0x3004 4 v) s = .next { s with host := { s.host with evtMask := v % 2048 } } ∧
    (s.ctl.bootErr = 0 →
      exec (.registerWrite 0x1008 4 v) s = .next { s with host := { s.host with holdoff := v % 65536 } } ∧
      exec (.registerWrite 0x2000 4 v) s = .next { s with host := { s.host with uindex := v % 65536, uclass := v / 16777216 % 256 } } ∧
      (∃ t, exec (.registerWrite 0x1000 4 v) s = .next t ∧ t.host.en = bit v 0 ∧ t.host.cmplIrq = bit v 1 ∧ t.host.evtIrq = bit v 2 ∧
        (s.host.ready = true → bit v 0 = true → t.host.accepted = s.host.accepted ++ s.host.waiting ∧ t.host.waiting = []) ∧
        ((s.host.ready = false ∨ bit v 0 = false) → t.host.accepted = s.host.accepted ∧ t.host.waiting = s.host.waiting) ∧
        t.host.slots = s.host.slots ∧ t = { s with host := t.host } ∧ exec (.mbxCtlWrite v) s = .next t) ∧
      (∀ w, w < 32 → ∃ t, exec (.registerWrite (0x1100 + 4 * w) 4 v) s = .next t ∧
        (∀ n, n ∈ t.host.done ↔ n ∈ s.host.done ∧ ¬(n / 32 = w ∧ bit v (n % 32) = true ∧ s.host.doneAt.get? n ≠ some s.opTicks)) ∧
        t = { s with host := { s.host with done := t.host.done } }))) ∧
  (∀ (s : State) (c r v : Nat), s.answers = true → s.ctl.bootErr = 0 → v < 4294967296 → c < 576 → s.host.uclass = 1 → s.host.uindex = c →
    r ∈ [0x160, 0x164, 0x168] →
    (s.debugOn = true → ∃ t, exec (.registerWrite (0x2400 + r) 4 v) s = .next t ∧
      (t.core c).flt = (if r = 0x160 then { (s.core c).flt with
          brkEn := bit v 0, brkEng := bits v 3 1, brkMode := bit v 4
          brkHit := (s.core c).flt.brkHit && (!bit v 5 || (s.core c).flt.hitAt == some s.opTicks) }
        else if r = 0x164 then { (s.core c).flt with brkTag := v % 65536, brkMask := v / 65536 } else { (s.core c).flt with brkCount := v }) ∧
      t.core c = { s.core c with flt := (t.core c).flt } ∧ (∀ d, d ≠ c → t.core d = s.core d) ∧ t = { s with cores := t.cores }) ∧
    (s.debugOn = false → ∃ t, exec (.registerWrite (0x2400 + r) 4 v) s = .next t ∧ t.stook.offered = s.stook.offered + 1 ∧
      t = { s with stook := t.stook, host := t.host, out := t.out })) ∧
  (∀ (s : State) (u v : Nat), s.answers = true → s.ctl.bootErr = 0 → v < 4294967296 → s.host.uindex = u →
    (u < 48 → s.host.uclass = 4 → ∃ t, exec (.registerWrite (0x2400 + 0x104) 4 v) s = .next t ∧
      t.lane u = { s.lane u with low := if bit v 0 then (s.lane u).low && (s.lane u).lowSet == some s.opTicks else (s.lane u).low } ∧
      (∀ l, l ≠ u → t.lane l = s.lane l) ∧ t = { s with meas := { s.meas with lanes := t.meas.lanes } }) ∧
    (u < 8 → s.host.uclass = 5 → ∃ t, exec (.registerWrite (0x2400 + 0x100) 4 v) s = .next t ∧
      t.port u = { s.port u with down := if bit v 11 then (s.port u).down && (s.port u).downAt == some s.opTicks else (s.port u).down } ∧
      (∀ p, p ≠ u → t.port p = s.port p) ∧ t = { s with field := { s.field with ports := t.field.ports } }) ∧
    (unitValid 6 u = true → s.host.uclass = 6 →
      ((∀ p, p < 8 → (s.part p).st ≠ .running ∧ (s.part p).st ≠ .held) → ∃ t, exec (.registerWrite (0x2400 + 0x100) 4 v) s = .next t ∧
        (t.awn u).nom = bit v 0 ∧ (t.awn u).en = bit v 1 ∧ (t.awn u).state = (if bit v 1 then (s.awn u).state else 0) ∧ (∀ b, b ≠ u → t.awn b = s.awn b) ∧
        t = { s with meas := { s.meas with awn := t.meas.awn } }) ∧
      (∀ p, p < 8 → ((s.part p).st = .running ∨ (s.part p).st = .held) → ∃ t, exec (.registerWrite (0x2400 + 0x100) 4 v) s = .next t ∧
        t.stook.offered = s.stook.offered + 1 ∧ t = { s with stook := t.stook, host := t.host, out := t.out }) ∧
      (∃ t, exec (.registerWrite (0x2400 + 0x104) 4 v) s = .next t ∧
        t.awn u = { s.awn u with ovr := if bit v 2 then (s.awn u).ovr && (s.awn u).ovrSet == some s.opTicks else (s.awn u).ovr } ∧
        (∀ b, b ≠ u → t.awn b = s.awn b) ∧ t = { s with meas := { s.meas with awn := t.meas.awn } }) ∧
      (∃ t, exec (.registerWrite (0x2400 + 0x108) 4 v) s = .next t ∧
        t.awn u = { s.awn u with latched := if bit v 0 = true ∧ (s.awn u).est.isSome = true then (s.awn u).est else (s.awn u).latched } ∧
        (∀ b, b ≠ u → t.awn b = s.awn b) ∧ t = { s with meas := { s.meas with awn := t.meas.awn } })) ∧
    (∀ live : Bool, u < 8 → s.host.uclass = 8 → live = ((s.part u).st == .running || (s.part u).st == .held) →
      (∃ t, exec (.registerWrite (0x2400 + 0x104) 4 v) s = .next t ∧
        (t.part u).ctl = (if live then { (s.part u).ctl with learnP := some (bit v 0) } else { (s.part u).ctl with learn := bit v 0, learnP := none }) ∧
        t.part u = { s.part u with ctl := (t.part u).ctl } ∧ (∀ r, r ≠ u → t.part r = s.part r) ∧ t = { s with parts := t.parts }) ∧
      (s.debugOn = true → ∃ t, exec (.registerWrite (0x2400 + 0x300) 4 v) s = .next t ∧
        (t.part u).ctl = (if live then { (s.part u).ctl with stallP := some (bit v 0) } else { (s.part u).ctl with stall := bit v 0, stallP := none }) ∧
        t.part u = { s.part u with ctl := (t.part u).ctl } ∧ (∀ r, r ≠ u → t.part r = s.part r) ∧ t = { s with parts := t.parts }) ∧
      (s.debugOn = false → ∃ t, exec (.registerWrite (0x2400 + 0x300) 4 v) s = .next t ∧
        t.stook.offered = s.stook.offered + 1 ∧ t = { s with stook := t.stook, host := t.host, out := t.out }) ∧
      (∃ t, exec (.registerWrite (0x2400 + 0x304) 4 v) s = .next t ∧
        (t.part u).ctl = (if live then { (s.part u).ctl with dlbP := some (bit v 0) } else { (s.part u).ctl with dlb := bit v 0, dlbP := none }) ∧
        t.part u = { s.part u with ctl := (t.part u).ctl } ∧ (∀ r, r ≠ u → t.part r = s.part r) ∧ t = { s with parts := t.parts }) ∧
      (∃ t, exec (.registerWrite (0x2400 + 0x380) 4 v) s = .next t ∧
        (t.part u).ck = (if live then { (s.part u).ck with periodP := some (max 100 (min 60000 v)) }
          else { (s.part u).ck with periodMs := max 100 (min 60000 v), periodP := none }) ∧
        t.part u = { s.part u with ck := (t.part u).ck } ∧ (∀ r, r ≠ u → t.part r = s.part r) ∧ t = { s with parts := t.parts }))) ∧
  (∀ (s : State) (v : Nat), s.serves = false → exec (.mbxCtlWrite v) s = .next s) ∧
  ∀ (s : State) (a : Nat),
    exec (.evtSumRead none) s = .next (if s.answers then { s with board := { s.board with alert := false } } else s) ∧
    exec (.evtSumRead (some a)) s = .next (if s.glumeRuns = true ∧ a = 0x60 + s.board.straps % 4 then { s with board := { s.board with alert := false } } else s)

/-- R406, R408, R409, R414, R417, R469: the watcher and the management processor. A slot write takes its bytes; while OWN is 1 it is discarded and counted;
with OWN set the command is accepted if the mailbox takes commands, else held, and one of the owner session takes its count. A vector's held message leaves when
its holdoff has passed. A management restart takes no commands until its end, when every uncommitted one completes with ABORTED; STOP, CHECKPOINT and a
DBG_RESUME that waits for the cores stay. -/
def Obligations.WatcherAndRestart : Prop :=
  (∀ (s : State) (n off : Nat) (d : Bytes), s.serves = true → n < 1024 → off + d.length ≤ 256 → barAccess true (0x10000 + 256 * n + off) d.length = true →
    (slotOwn (s.slot n) = true → exec (.mailboxSlotWrite n off d) s = .next { s with host := { s.host with wdrop := satAdd s.host.wdrop 1 } }) ∧
    (slotOwn (s.slot n) = false → ∀ b : Bytes, b = (s.slot n).take off ++ d ++ (s.slot n).drop (off + d.length) →
      ∃ t, exec (.mailboxSlotWrite n off d) s = .next t ∧ t.slot n = b ∧ (∀ m, m ≠ n → t.slot m = s.slot m) ∧
        (slotOwn b = false → t = { s with host := { s.host with slots := t.host.slots } }) ∧
        (slotOwn b = true → s.host.ready = true → s.host.en = true → t.host.accepted = s.host.accepted ++ s.host.waiting ++ [n] ∧ t.host.waiting = []) ∧
        (slotOwn b = true → (s.host.ready = false ∨ s.host.en = false) → t.host.accepted = s.host.accepted ∧ t.host.waiting = s.host.waiting ++ [n]) ∧
        (∀ k, slotOwn b = true → s.sec.owner = some k → k.num ≠ 0 → slotSession b = k.num →
          t.host.nums.getD n 0 = k.n ∧ t.sec.owner = some { k with n := k.n + 1 }) ∧
        ((∀ k, s.sec.owner = some k → k.num = 0 ∨ slotSession b ≠ k.num) → t.sec = s.sec ∧ t.host.nums = s.host.nums) ∧
        t = { s with host := t.host, sec := t.sec, hbm := t.hbm })) ∧
  (∀ (s : State) (n off : Nat) (d : Bytes), (s.serves = false ∨ 1024 ≤ n ∨ 256 < off + d.length ∨ barAccess true (0x10000 + 256 * n + off) d.length = false) →
    exec (.mailboxSlotWrite n off d) s = .next s) ∧
  (∀ (s : State) (v : Nat),
    (v ∈ s.host.vecWait → (∀ u, s.host.vecLast.get? v = some u → u + s.host.holdoff * 2500 ≤ s.opTicks) → s.host.cmplIrq = true → s.host.link = true →
      ∃ t, exec (.mbxIrqHoldoffExpiry v) s = .next t ∧ t.out = s.out ++ [⟨6, v, []⟩] ∧ t.host.vecWait = s.host.vecWait.filter (fun w => w != v) ∧
        t.host.vecLast = s.host.vecLast.put v s.opTicks ∧
        t = { s with host := { s.host with vecWait := t.host.vecWait, vecLast := t.host.vecLast }, out := t.out }) ∧
    ((v ∉ s.host.vecWait ∨ (∃ u, s.host.vecLast.get? v = some u ∧ s.opTicks < u + s.host.holdoff * 2500) ∨ s.host.cmplIrq = false ∨ s.host.link = false) →
      exec (.mbxIrqHoldoffExpiry v) s = .next s)) ∧
  (∀ s : State, (s.host.ready = true → ∃ t, exec .managementRestart s = .next t ∧
      t.host = { s.host with ready := false, restart := true, restarts := satInc 16 s.host.restarts } ∧
      t.sec.meas.getD 7 (zeros 64) = Config.shake (s.sec.meas.getD 7 (zeros 64) ++ natLe 2 12) 64 ∧ (∀ k, k < 7 → t.sec.meas.getD k (zeros 64) = s.sec.meas.getD k (zeros 64)) ∧
      t = { s with host := t.host, sec := { s.sec with meas := t.sec.meas } }) ∧
    (s.host.ready = false → exec .managementRestart s = .next s) ∧
    (s.host.restart = false → exec .managementRestartEnd s = .next s)) ∧
  (∀ (s : State) (kept : Nat → Bool), s.host.restart = true →
    kept = (fun m => slotCode (s.slot m) == 0x0107 || slotCode (s.slot m) == 0x0109 || s.parts.any fun x => x.2.ctl.resume.contains m) →
    ∃ t, exec .managementRestartEnd s = .next t ∧ t.host.ready = true ∧ t.host.restart = false ∧ bit t.host.evtSum 9 = true ∧
      (∀ m ∈ s.host.accepted, kept m = true → t.slot m = s.slot m ∧ m ∈ t.host.accepted) ∧
      (∀ m ∈ s.host.accepted, kept m = false → slotOwn (t.slot m) = false ∧ fld (t.slot m) 6 1 = stAborted ∧ m ∈ t.host.done ∧ m ∉ t.host.accepted) ∧
      (∀ m ∈ s.host.waiting, m ∉ s.host.accepted → s.host.en = true → m ∈ t.host.accepted) ∧
      (∀ m, m ∉ s.host.accepted → t.slot m = s.slot m) ∧
      (∀ p, p < 8 → (t.part p).ck.replay = none ∧ (t.part p).twin.hslot = none) ∧
      t.twin.slot = none ∧ t.twin.parts = [] ∧ t.twin.pair ≠ 1 ∧
      ((∀ p, (s.part p).ck.replay = none) → (∀ p, (t.part p).st = (s.part p).st) ∧
        t = { s with host := t.host, out := t.out, parts := t.parts, twin := t.twin }))

/-! ### The mailbox (14) -/

/-- R413 to R416, R469: the mailbox, for the commands that have one form. A slot that may not begin, or whose code is another row's, is left alone; a code that
R421 does not list completes with UNSUPPORTED; then come, in order, the header and the TAG, the module state, the owner session, the partition and its state, the
descriptor and its digest, each refused with its own status and no other effect than on the slot, the session's idle time and the count of failed tags. A
completed slot is the host's again: DONE, STATUS, the reply and its length, every other slot as it was. -/
def Obligations.MailboxChecks : Prop :=
  (∀ (s : State) (n st : Nat) (reply : Bytes), reply.length ≤ 224 → st < 256 → slotOwn ((s.finish n st reply).slot n) = false ∧
    bit (fld ((s.finish n st reply).slot n) 0 1) 1 = true ∧ fld ((s.finish n st reply).slot n) 6 1 = st ∧
    fld ((s.finish n st reply).slot n) 10 2 = reply.length ∧ sub ((s.finish n st reply).slot n) 32 reply.length = reply ∧
    slotCode ((s.finish n st reply).slot n) = slotCode (s.slot n) ∧ slotTag ((s.finish n st reply).slot n) = slotTag (s.slot n) ∧
    (∀ m, m ≠ n → (s.finish n st reply).slot m = s.slot m) ∧ n ∉ (s.finish n st reply).host.accepted ∧ n ∈ (s.finish n st reply).host.done ∧
    (∀ m, m ≠ n → (m ∈ (s.finish n st reply).host.accepted ↔ m ∈ s.host.accepted)) ∧
    s.finish n st reply = { s with host := (s.finish n st reply).host, out := (s.finish n st reply).out }) ∧
  (∀ (s : State) (n code : Nat) (c : Nat → Instr) (ms : List Nat), (ownerRow c code ms ∨ openRow c code ms ∨ ∃ ps, partRow c code ms ps) →
    (s.mayBegin n = false → exec (c n) s = .next s) ∧
    (s.mayBegin n = true → codes.contains (slotCode (s.slot n)) = false →
      exec (c n) s = .next (s.finish n (if headerOk (s.slot n) then stUnsupported else stArg) [])) ∧
    (codes.contains (slotCode (s.slot n)) = true → slotCode (s.slot n) ≠ code → exec (c n) s = .next s) ∧
    (s.mayBegin n = true → slotCode (s.slot n) = code → headerOk (s.slot n) = false ∨ s.tagOk n (s.slot n) = false →
      exec (c n) s = .next (s.finish n stArg [])) ∧
    (s.mayBegin n = true → slotCode (s.slot n) = code → headerOk (s.slot n) = true → s.tagOk n (s.slot n) = true → s.mstate ∉ ms →
      exec (c n) s = .next (s.finish n stState [])) ∧
    (s.mayBegin n = true → slotCode (s.slot n) = code → headerOk (s.slot n) = true → s.tagOk n (s.slot n) = true → s.mstate ∈ ms →
      s.authOk n (s.slot n) = false → ¬ openRow c code ms → exec (c n) s = .next (s.tagFailed.finish n stAuth []))) ∧
  (∀ (s : State) (n code : Nat) (c : Nat → Instr) (ms : List Nat) (ps : List PState), partRow c code ms ps → s.mayBegin n = true → slotCode (s.slot n) = code →
    headerOk (s.slot n) = true → s.tagOk n (s.slot n) = true → s.mstate ∈ ms → s.authOk n (s.slot n) = true →
    (fld (s.payload (s.slot n)) 0 1 < 8 → (s.part (fld (s.payload (s.slot n)) 0 1)).st ∉ ps → exec (c n) s = .next (s.asOwner.finish n stState [])) ∧
    (8 ≤ fld (s.payload (s.slot n)) 0 1 → exec (c n) s = .next (s.asOwner.finish n stArg [])) ∧
    (∀ e, fld (s.payload (s.slot n)) 0 1 < 8 → (s.part (fld (s.payload (s.slot n)) 0 1)).st ∈ ps → s.descOk (s.slot n) = some e →
      exec (c n) s = .next (s.asOwner.finish n e []))) ∧
  ∀ (s : State) (n code e : Nat) (c : Nat → Instr) (ms : List Nat), s.mayBegin n = true → slotCode (s.slot n) = code →
    headerOk (s.slot n) = true → s.tagOk n (s.slot n) = true → s.mstate ∈ ms → s.descOk (s.slot n) = some e →
    (ownerRow c code ms → s.authOk n (s.slot n) = true → exec (c n) s = .next (s.asOwner.finish n e [])) ∧
    (openRow c code ms → exec (c n) s = .next (s.finish n e []))

/-- R38, R87, R367, R382, R407, R422, R425, R451, R476, R477, R478, R500, R532, R536: the commands that read. Each completes with OK and answers the
fields named here, or into its output area, and changes nothing but its slot, that area and, with a new quote, the device's count of signatures and the quote
that later chunks are cut from; arguments that are not right, and a chunk that is not there, are refused with BAD_ARG. The sideband answers at the module's
address, with BAD_STATE in another module state and UNSUPPORTED where the policy closes it. -/
def Obligations.ReadingCommands : Prop :=
  (∀ (s : State) (n : Nat), s.calls n 0x0001 locked5 false anyForm →
    exec (.identify n) s = .next (s.finish n stOk (s.identity ++ natLe 4 s.sec.fw.version ++ natLe 1 s.sec.letter ++ zeros 3 ++ fit 64 s.sec.fw.sig))) ∧
  (∀ (s : State) (n : Nat), s.calls n 0x0002 locked5 false anyForm → ∃ r : Bytes, exec (.getState n) s = .next (s.finish n stOk r) ∧
    (s.mstate < 256 → fld r 0 1 = s.mstate) ∧ fld r 1 1 = b2n s.debugOn + 2 * b2n s.sec.owner.isSome + 4 * b2n s.anyOverlay ∧
    fld r 2 2 = b2n s.ctl.fewCores + 2 * b2n (!s.ctl.lostSlices.isEmpty) ∧
    (∀ p, p < 8 → fld r (4 + p) 1 = (s.part p).st.code + 16 * b2n (s.part p).res.created) ∧ fld r 20 4 = s.board.pcycle % 4294967296) ∧
  (∀ (s : State) (n : Nat), s.calls n 0x0602 locked4 false anyForm → ∃ r : Bytes, exec (.powerStatus n) s = .next (s.finish n stOk r) ∧
    fld r 0 4 = s.gran.power % 4294967296 ∧ fld r 10 2 = s.gran.cap % 65536 ∧ fld r 12 2 = s.gran.thermal % 65536 ∧ fld r 14 2 = s.gMax % 65536 ∧
    ∀ p, p < 8 → fld r (32 + 2 * p) 2 = (s.part p).pwr.grant % 65536) ∧
  (∀ (s : State) (n : Nat), s.calls n 0x0202 locked4 false anyForm →
    (payOk (s.payload (s.slot n)) 1 [] = true → fld (s.payload (s.slot n)) 0 1 ≤ 7 →
      exec (.portStatus n) s = .next (s.finish n stOk ((s.portRegs (fld (s.payload (s.slot n)) 0 1)).flatMap (natLe 4)))) ∧
    (payOk (s.payload (s.slot n)) 1 [] = false ∨ 7 < fld (s.payload (s.slot n)) 0 1 → exec (.portStatus n) s = .next (s.finish n stArg []))) ∧
  (∀ (s : State) (n : Nat), s.calls n 0x0211 locked4 false anyForm → ∃ r : Bytes, exec (.timeStatus n) s = .next (s.finish n stOk r) ∧
    (s.time.state < 256 → fld r 0 1 = s.time.state) ∧ (s.time.source < 256 → fld r 1 1 = s.time.source) ∧
    fld r 18 1 = b2n s.time.tenMhz + 2 * b2n s.time.ppsIn ∧ sub r 21 12 = timeBytes s.now) ∧
  (∀ (s : State) (n : Nat), s.calls n 0x0403 locked5 false anyForm → ∃ r : Bytes, exec (.otpStatus n) s = .next (s.finish n stOk r) ∧
    (∀ i, i < 3 → fld r i 1 = s.otp.forceIdx (4 + i) % 256 ∧ fld r (3 + i) 1 = s.otp.spares (4 + i) % 256) ∧ fld r 8 2 = s.units.recs.length % 65536 ∧
    fld r 12 2 = s.otp.summary.length % 65536) ∧
  (∀ (s : State) (n : Nat), s.calls n 0x0704 locked4 false anyForm → ∃ r : Bytes, exec (.twinStatus n) s = .next (s.finish n stOk r) ∧
    (s.twin.pair < 256 → fld r 0 1 = if s.twin.pair = 2 ∧ s.linkUp = false then 3 else s.twin.pair) ∧ fld r 1 1 = popcount 16 s.twin.lanes ∧
    sub r 4 16 = fit 16 s.twin.partner) ∧
  (∀ (s : State) (n a k : Nat), s.calls n 0x0208 [3, 4, 5] false anyForm → fld (s.payload (s.slot n)) 0 4 = a → fld (s.payload (s.slot n)) 4 4 = k →
    (payOk (s.payload (s.slot n)) 16 [] = true → 1 ≤ k → a + k ≤ 65536 → s.outputOk (fld (s.payload (s.slot n)) 8 8) (64 * k) = true →
      exec (.pointRead n) s = .next ((s.winWrite (fld (s.payload (s.slot n)) 8 8) ((List.range k).flatMap fun i => (s.point (a + i)).bytes)).finish n stOk [])) ∧
    ((payOk (s.payload (s.slot n)) 16 [] = false ∨ k = 0 ∨ 65536 < a + k ∨ s.outputOk (fld (s.payload (s.slot n)) 8 8) (64 * k) = false) →
      exec (.pointRead n) s = .next (s.finish n stArg []))) ∧
  (∀ (s : State) (n p f k : Nat), s.calls n 0x0104 [3, 5] true (fun b => fld b 1 1 == 1) →
    s.callsPart n p [.loaded, .armed, .running, .held] → fld (s.payload (s.slot n)) 2 2 = f → fld (s.payload (s.slot n)) 4 2 = k →
    (launchArgs true p (s.payload (s.slot n)) s = true → (s.part p).ck.replay = none →
      exec (.setLaunchRead n) s = .next ((s.asOwner.winWrite (fld (s.payload (s.slot n)) 8 8) ((List.range k).flatMap fun i => (s.lte (f + i)).bytes)).finish n stOk [])) ∧
    (launchArgs true p (s.payload (s.slot n)) s = false → exec (.setLaunchRead n) s = .next (s.asOwner.finish n stArg [])) ∧
    (launchArgs true p (s.payload (s.slot n)) s = true → (s.part p).ck.replay.isSome = true → exec (.setLaunchRead n) s = .next (s.asOwner.finish n stBusy []))) ∧
  (∀ (s : State) (n : Nat), s.calls n 0x0702 [3, 4, 5] true (form 0) →
    (s.unionArgs (s.payload (s.slot n)) 0 = true →
      exec (.unionMapRead n) s = .next ((s.asOwner.winWrite (fld (s.payload (s.slot n)) 8 8) (canonMap s.mapUnits ++ canonMap s.twin.map)).finish n stOk
        (natLe 2 s.mapUnits.length ++ natLe 2 s.twin.map.length ++ natLe 2 0 ++ Config.shake (canonMap (s.twin.map.foldl insUnit s.mapUnits)) 64))) ∧
    (s.unionArgs (s.payload (s.slot n)) 0 = false → exec (.unionMapRead n) s = .next (s.asOwner.finish n stArg []))) ∧
  (∀ (s : State) (n : Nat), s.calls n 0x0302 locked4 false (form 0) →
    exec (.kemSessionOffer n) s = .next (match payOk (s.payload (s.slot n)) 4 [(1, 1)], chunkReply s.offer (fld (s.payload (s.slot n)) 2 2) with
      | true, some r => s.finish n stOk r
      | _, _ => s.finish n stArg [])) ∧
  (∀ (s : State) (n : Nat), s.calls n 0x0301 locked4 false (form 1) →
    exec (.quoteCertificate n) s = .next (match payOk (s.payload (s.slot n)) 4 [(1, 1)], chunkReply certificate (fld (s.payload (s.slot n)) 2 2) with
      | true, some r => s.finish n stOk r
      | _, _ => s.finish n stArg [])) ∧
  (∀ (s : State) (n m i : Nat) (nonce : Bytes), s.calls n 0x0301 locked4 false (form 0) →
    fld (s.payload (s.slot n)) 1 1 = m → sub (s.payload (s.slot n)) 8 32 = nonce → fld (s.payload (s.slot n)) 2 2 = i →
    (payOk (s.payload (s.slot n)) 40 [(4, 4)] = false → exec (.quote n) s = .next (s.finish n stArg [])) ∧
    (payOk (s.payload (s.slot n)) 40 [(4, 4)] = true → i = 0 → ∀ q r, (s.makeQuote m nonce).1 = q → chunkReply q 0 = some r →
      exec (.quote n) s = .next (({ s with sec := { s.sec with signs := s.sec.signs + 1, quote := some (m, nonce, q) } } : State).finish n stOk r)) ∧
    (payOk (s.payload (s.slot n)) 40 [(4, 4)] = true → i ≠ 0 →
      (∀ q r, s.sec.quote = some (m, nonce, q) → chunkReply q i = some r → exec (.quote n) s = .next (s.finish n stOk r)) ∧
      (∀ q, s.sec.quote = some (m, nonce, q) → chunkReply q i = none → exec (.quote n) s = .next (s.finish n stArg [])) ∧
      ((∀ q, s.sec.quote ≠ some (m, nonce, q)) → exec (.quote n) s = .next (s.finish n stArg [])))) ∧
  ∀ (s : State) (addr : Nat) (req b : Bytes) (reply : Nat → Bytes → List Out), b = fit 40 req → reply = (fun st r => s.out ++ [⟨12, 0, natBe 4 0x0000D96B ++ [0x81] ++ natLe 1 st ++ r⟩]) →
    (s.glumeRuns = true → addr = 0x60 + s.board.straps % 4 →
      (s.mstate ∉ [2, 3, 4, 5] → exec (.sidebandQuote addr req) s = .next { s with out := reply stState [] }) ∧
      (s.mstate ∈ [2, 3, 4, 5] → bit (fld s.policy 4 1) 2 = false → exec (.sidebandQuote addr req) s = .next { s with out := reply stUnsupported [] }) ∧
      (s.mstate ∈ [2, 3, 4, 5] → bit (fld s.policy 4 1) 2 = true →
        (∀ r, fld b 0 1 = 1 → chunkReply certificate (fld b 2 2) = some r → exec (.sidebandQuote addr req) s = .next { s with out := reply stOk r }) ∧
        (∀ m nonce q r, fld b 0 1 = 0 → payOk b 40 [(4, 4)] = true → fld b 1 1 = m → sub b 8 32 = nonce → fld b 2 2 = 0 → (s.makeQuote m nonce).1 = q → chunkReply q 0 = some r →
          exec (.sidebandQuote addr req) s = .next { s with sec := { s.sec with signs := s.sec.signs + 1, side := some (m, nonce, q) }, out := reply stOk r }) ∧
        (2 ≤ fld b 0 1 → exec (.sidebandQuote addr req) s = .next { s with out := reply stArg [] }))) ∧
    ((s.glumeRuns = false ∨ addr ≠ 0x60 + s.board.straps % 4) → exec (.sidebandQuote addr req) s = .next s)

/-! ### Partition commands (02, 03, 04, 12, 14) -/

/-- R43, R66, R70, R350, R415, R423, R457: CREATE takes the resources it names, with a place among the healthy cores, its launch entries and keys that Glume
draws, and leaves the partition EMPTY; what is not free is refused with NO_RESOURCES, a partition that is created with BAD_STATE, other arguments with BAD_ARG.
DESTROY gives everything back: the partition, its launch entries and its points read as before any CREATE, its cores are cleared, the commands that wait on
it complete with ABORTED, and no other partition loses a resource, an image or its state. -/
def Obligations.CreateAndDestroy : Prop :=
  (∀ (s : State) (n p : Nat) (b : Bytes), s.calls n 0x0101 [3, 5] true anyForm → s.callsPart n p [.empty] → s.payload (s.slot n) = b →
    ((s.part p).res.created = true → exec (.create n) s = .next (s.asOwner.finish n stState [])) ∧
    ((s.part p).res.created = false → createArgs p b s = false → exec (.create n) s = .next (s.asOwner.finish n stArg [])) ∧
    ((s.part p).res.created = false → (s.part p).ck.replay = none → createArgs p b s = true →
      (∀ r, s.createFits b = true → s.placeFor p (fld b 2 2) = some r → ∃ u : State, exec (.create n) s = .next (u.finish n stOk []) ∧
        u.part p = { res := { created := true, floor := fld b 2 2, slices := fld b 4 4, ports := fld b 8 1, culm := fld b 1 1, lteFirst := fld b 10 2,
                              lteCount := fld b 12 2, place := r.2, rows := r.1, keys := Config.draw s.sec.draws 32 ++ Config.draw (s.sec.draws + 1) 32 } } ∧
        (∀ i, i < fld b 12 2 → u.lte (fld b 10 2 + i) = { owned := true, part := p }) ∧
        (∀ i, i < fld b 10 2 ∨ fld b 10 2 + fld b 12 2 ≤ i → u.lte i = s.lte i) ∧ (∀ q, q ≠ p → u.part q = s.part q) ∧
        u.stook.offered = s.stook.offered + 1 ∧
        u = { s with parts := u.parts, ltes := u.ltes, sec := { s.asOwner.sec with draws := s.sec.draws + 2 }, stook := u.stook, host := u.host, out := u.out }) ∧
      ((s.createFits b = false ∨ s.placeFor p (fld b 2 2) = none) → exec (.create n) s = .next (s.asOwner.finish n stResource [])))) ∧
  ∀ (s : State) (n p : Nat), s.calls n 0x010B [3, 4, 5] true anyForm → s.callsPart n p [.empty, .loaded, .armed, .faulted] →
    (payOk (s.payload (s.slot n)) 1 [] = true → (s.part p).ck.replay = none →
      ∃ u : State, exec (.destroy n) s = .next (u.finish n stOk []) ∧ u.part p = {} ∧ (∀ e ∈ u.ltes, ¬(e.2.owned = true ∧ e.2.part = p)) ∧
        (∀ x ∈ u.field.points, ¬(x.2.owned = true ∧ x.2.part = p)) ∧
        (∀ q, q ≠ p → (u.part q).res = (s.part q).res ∧ (u.part q).img = (s.part q).img ∧ (u.part q).st = (s.part q).st ∧ (u.part q).ctl = (s.part q).ctl ∧
          (u.part q).run = (s.part q).run ∧ (u.part q).ck = (s.part q).ck) ∧
        (∀ c, u.core c = if c ∈ (s.part p).res.place then (s.core c).cleared else s.core c) ∧
        (∀ m ∈ (s.part p).ctl.stop ++ (s.part p).ctl.ckpt ++ (s.part p).ck.slots, s.host.accepted.contains m = true →
          u.host.accepted.contains m = false ∧ fld (u.slot m) 6 1 = stAborted) ∧
        u.otp = s.otp ∧ u.units = s.units ∧ u.gran = s.gran ∧ u.board = s.board ∧ u.meas = s.meas ∧ u.time = s.time) ∧
    (payOk (s.payload (s.slot n)) 1 [] = true → (s.part p).ck.replay.isSome = true → exec (.destroy n) s = .next (s.asOwner.finish n stBusy []))

/-- R53, R57, R58, R74, R90, R96, R97, R371, R423, R475, R541: images, points and launch entries. A segment that is not the last is counted, one out of order ends the
sequence; the last one that opens and passes its checks makes the partition LOADED with STEP_COUNT 0, its seed, an empty journal, its sections in HBM and the
counters of its cores at 0, or becomes the fallback image; one that fails is refused with its status. BIND_POINTS writes its entries at once, or while the
partition is RUNNING or HELD keeps them for the next input cut; SET_LAUNCH writes its entries at once, or keeps them for the next launch; a payload whose digest
does not agree is refused with INTEGRITY, entries that are not right with BAD_ARG, a change of binding while RUNNING with BAD_STATE. -/
def Obligations.ImagesPointsAndEntries : Prop :=
  (∀ (s : State) (n p : Nat) (b : Bytes) (v : ImageView), s.calls n 0x0102 [3, 5] true anyForm → s.callsPart n p [.empty, .faulted] →
    ((s.part p).st = .faulted ∨ (s.part p).res.created = true) → s.payload (s.slot n) = b →
    (segmentArgs p b s = false → exec (.loadProgram n v) s = .next (s.asOwner.finish n stArg [])) ∧
    (segmentArgs p b s = true → (s.part p).ck.replay.isSome = true → exec (.loadProgram n v) s = .next (s.asOwner.finish n stBusy [])) ∧
    (segmentArgs p b s = true → (s.part p).ck.replay = none →
      (segmentNext b (s.part p).img.loading = false → ∃ u : State, exec (.loadProgram n v) s = .next (u.finish n stArg []) ∧
        u.part p = { s.part p with img := { (s.part p).img with loading := 0 } } ∧ (∀ q, q ≠ p → u.part q = s.part q) ∧
        u = { s with parts := u.parts, sec := s.asOwner.sec }) ∧
      (segmentNext b (s.part p).img.loading = true → bit (fld b 1 1) 1 = false → ∃ u : State, exec (.loadProgram n v) s = .next (u.finish n stOk []) ∧
        u.part p = { s.part p with img := { (s.part p).img with loading := fld b 4 4 + 1 } } ∧ (∀ q, q ≠ p → u.part q = s.part q) ∧
        u = { s with parts := u.parts, sec := s.asOwner.sec, hbm := u.hbm }) ∧
      (segmentNext b (s.part p).img.loading = true → bit (fld b 1 1) 1 = true →
        (v.typ ≠ 1 → v.typ ≠ 5 → ∃ u : State, exec (.loadProgram n v) s = .next (u.finish n stIntegrity []) ∧
          u.part p = { s.part p with img := { (s.part p).img with loading := 0 } } ∧ (∀ q, q ≠ p → u.part q = s.part q) ∧ u.cores = s.cores) ∧
        (∀ st, v.typ = 1 ∨ v.typ = 5 → s.imageCheck p v = some st → ∃ u : State, exec (.loadProgram n v) s = .next (u.finish n st []) ∧
          u.part p = { s.part p with img := { (s.part p).img with loading := 0 } } ∧ (∀ q, q ≠ p → u.part q = s.part q) ∧ u.cores = s.cores) ∧
        (v.typ = 1 → s.imageCheck p v = none → s.replaceFor p v.image.floor = none → ∃ u : State, exec (.loadProgram n v) s = .next (u.finish n stResource []) ∧
          u.part p = { s.part p with img := { (s.part p).img with loading := 0 } } ∧ (∀ q, q ≠ p → u.part q = s.part q) ∧ u.cores = s.cores) ∧
        (∀ r, v.typ = 1 → s.imageCheck p v = none → s.replaceFor p v.image.floor = some r → ∃ u : State, exec (.loadProgram n v) s = .next (u.finish n stOk []) ∧
          (u.part p).st = .loaded ∧ (u.part p).img.image = some v.image ∧ (u.part p).img.onFallback = false ∧
          (u.part p).res = { (s.part p).res with rows := r.1, place := r.2 } ∧ (u.part p).ctl.stepCount = 0 ∧
          (u.part p).ctl.seed = v.seed.getD (Config.draw s.sec.draws 32) ∧ u.sec.draws = s.sec.draws + (if v.seed.isNone then 1 else 0) ∧
          (u.part p).ck.journal = [] ∧ (u.part p).ck.journalN = 0 ∧
          (u.part p).ck.chain = Config.shake ([0x4B, 0x39, 0x4A, 0x30] ++ sub v.image.header 32 64) 64 ∧ (u.part p).ck.slotA = {} ∧ (u.part p).ck.slotB = {} ∧
          memRead (u.part p).img.hbm (u.regionOff (u.part p) 7) v.image.constant.length = v.image.constant ∧
          (v.image.mutable_.length ≤ v.image.mutSize →
            memRead (u.part p).img.hbm (u.regionOff (u.part p) 1) v.image.mutable_.length = v.image.mutable_) ∧
          (∀ c, u.core c = if c ∈ r.2 then (s.core c).zeroed else s.core c) ∧
          ((u.part p).cnt.holdCnt = 0 ∧ (u.part p).cnt.holdAnn = 0 ∧ (u.part p).cnt.holdCc = 0) ∧
          (∀ q, q ≠ p → (u.part q).res = (s.part q).res ∧ (u.part q).img = (s.part q).img ∧ (u.part q).st = (s.part q).st ∧ (u.part q).run = (s.part q).run))))) ∧
  (∀ (s : State) (n p : Nat) (b : Bytes) (v : ImageView), s.calls n 0x010A [3, 5] true anyForm →
    s.callsPart n p [.loaded, .armed, .running, .held, .faulted] → (s.part p).ck.replay = none → s.payload (s.slot n) = b → segmentArgs p b s = true →
    (segmentNext b (s.part p).img.loadingF = false → ∃ u : State, exec (.setFallbackImage n v) s = .next (u.finish n stArg []) ∧
      u.part p = { s.part p with img := { (s.part p).img with loadingF := 0 } } ∧ (∀ q, q ≠ p → u.part q = s.part q) ∧
      u = { s with parts := u.parts, sec := s.asOwner.sec }) ∧
    (segmentNext b (s.part p).img.loadingF = true → bit (fld b 1 1) 1 = false → ∃ u : State, exec (.setFallbackImage n v) s = .next (u.finish n stOk []) ∧
      u.part p = { s.part p with img := { (s.part p).img with loadingF := fld b 4 4 + 1 } } ∧ (∀ q, q ≠ p → u.part q = s.part q) ∧
      u = { s with parts := u.parts, sec := s.asOwner.sec, hbm := u.hbm }) ∧
    (segmentNext b (s.part p).img.loadingF = true → bit (fld b 1 1) 1 = true →
      (v.typ = 2 → s.imageCheck p v = none → ∃ u : State, exec (.setFallbackImage n v) s = .next (u.finish n stOk []) ∧
        u.part p = { s.part p with img := { (s.part p).img with fallback := some v.image, loadingF := 0 } } ∧ (∀ q, q ≠ p → u.part q = s.part q) ∧
        u = { s with parts := u.parts, sec := s.asOwner.sec, hbm := u.hbm }) ∧
      (∀ st, (v.typ = 2 ∨ v.typ = 5) → s.imageCheck p v = some st → ∃ u : State, exec (.setFallbackImage n v) s = .next (u.finish n st []) ∧
        u.part p = { s.part p with img := { (s.part p).img with loadingF := 0 } } ∧ (∀ q, q ≠ p → u.part q = s.part q) ∧ u.cores = s.cores) ∧
      (v.typ ≠ 2 → v.typ ≠ 5 → ∃ u : State, exec (.setFallbackImage n v) s = .next (u.finish n stIntegrity []) ∧
        u.part p = { s.part p with img := { (s.part p).img with loadingF := 0 } } ∧ (∀ q, q ≠ p → u.part q = s.part q) ∧ u.cores = s.cores))) ∧
  (∀ (s : State) (n p f k : Nat) (b d : Bytes) (raw : Nat → Bytes) (live : Bool) (ok : Prop), s.calls n 0x0103 [3, 5] true anyForm →
    s.callsPart n p [.loaded, .armed, .running, .held] → (s.part p).ck.replay = none → s.payload (s.slot n) = b → bindArgs p b s = true → fld b 4 4 = f → fld b 8 4 = k →
    s.winRead (fld b 12 8) (64 * k) = d → raw = (fun i => ptRw (sub d (64 * i) 64)) → live = ((s.part p).st == .running || (s.part p).st == .held) →
    ok = ((∀ i, i < k → pointForm (sub d (64 * i) 64) = true) ∧ (∀ i, i < k → ({ raw := raw i } : Point).valid? = true → s.pointOk p { raw := raw i } = true) ∧
      pointsOk (s.boundAfter p f ((List.range k).map raw)) = true) →
    (Config.shake d 32 ≠ sub b 20 32 → ∃ u : State, exec (.bindPoints n) s = .next (u.finish n stIntegrity []) ∧ u = { s with sec := s.asOwner.sec, hbm := u.hbm }) ∧
    (Config.shake d 32 = sub b 20 32 →
      (∀ i, live = true → i < k → guardOnly { raw := raw i } (s.point (f + i)) = false → ∃ u : State, exec (.bindPoints n) s = .next (u.finish n stState []) ∧
        u = { s with sec := s.asOwner.sec, hbm := u.hbm }) ∧
      ((live = true → ∀ i, i < k → guardOnly { raw := raw i } (s.point (f + i)) = true) →
        (¬ ok → ∃ u : State, exec (.bindPoints n) s = .next (u.finish n stArg []) ∧ u = { s with sec := s.asOwner.sec, hbm := u.hbm }) ∧
        (ok → ∃ u : State, exec (.bindPoints n) s = .next (u.finish n stOk []) ∧
          (live = false → ∀ i, i < k → (u.point (f + i)).raw = raw i ∧ (u.point (f + i)).owned = bit (fld (raw i) 0 1) 0 ∧
            (u.point (f + i)).part = p ∧ (u.point (f + i)).hasL = false ∧ (u.point (f + i)).pend = none ∧
            (u.point (f + i)).held = (if guardOnly { raw := raw i } (s.point (f + i)) then (s.point (f + i)).held else [])) ∧
          (live = true → ∀ i, i < k → u.point (f + i) = { s.point (f + i) with pend := some (raw i) }) ∧
          (∀ j, j < f ∨ f + k ≤ j → u.point j = s.point j) ∧ u = { s with field := { s.field with points := u.field.points }, sec := s.asOwner.sec, hbm := u.hbm })))) ∧
  ∀ (s : State) (n p f k : Nat) (b d : Bytes) (g : Image) (es later : List (Nat × Bytes)) (on : Prop), s.calls n 0x0104 [3, 5] true (fun b => fld b 1 1 == 0) →
    s.callsPart n p [.loaded, .armed, .running, .held] → (s.part p).ck.replay = none → s.payload (s.slot n) = b → launchArgs false p b s = true → fld b 2 2 = f →
    fld b 4 2 = k → s.winRead (fld b 8 8) (64 * k) = d → (s.part p).img.image = some g → es = ((List.range k).map fun i => (f + i, sub d (64 * i) 64)) →
    later = ((s.part p).ctl.lteP.filter fun x => decide (x.1 < f ∨ f + k ≤ x.1)) ++ es →
    on = (∃ x ∈ s.ltes, x.2.owned = true ∧ x.2.part = p ∧
      (match later.reverse.find? (fun e => e.1 == x.1) with | some e => bit (fld e.2 0 1) 0 | none => x.2.en) = true) →
    (Config.shake d 32 ≠ sub b 16 32 → ∃ u : State, exec (.setLaunch n) s = .next (u.finish n stIntegrity []) ∧ u = { s with sec := s.asOwner.sec, hbm := u.hbm }) ∧
    (Config.shake d 32 = sub b 16 32 →
      ((∃ i, i < k ∧ lteOk g (sub d (64 * i) 64) = false) → ∃ u : State, exec (.setLaunch n) s = .next (u.finish n stArg []) ∧
        u = { s with sec := s.asOwner.sec, hbm := u.hbm }) ∧
      ((∀ i, i < k → lteOk g (sub d (64 * i) 64) = true) →
        (((s.part p).st = .loaded ∨ (s.part p).st = .armed) → ∃ u : State, exec (.setLaunch n) s = .next (u.finish n stOk []) ∧
          (∀ i, i < k → u.lte (f + i) = { s.lte (f + i) with raw := lteRw (sub d (64 * i) 64), since := s.now, cyc := 0, lastT := none, trigN := none, evt := none }) ∧
          (∀ j, j < f ∨ f + k ≤ j → u.lte j = s.lte j) ∧ (u.part p).ctl.lteP = ((s.part p).ctl.lteP.filter fun x => decide (x.1 < f ∨ f + k ≤ x.1)) ∧
          (∀ q, q ≠ p → u.part q = s.part q) ∧
          u = { s with ltes := u.ltes, parts := u.parts, sec := s.asOwner.sec, stook := u.stook, host := u.host, out := u.out, hbm := u.hbm }) ∧
        (((s.part p).st = .running ∨ (s.part p).st = .held) →
          (¬ on → ∃ u : State, exec (.setLaunch n) s = .next (u.finish n stArg []) ∧ u = { s with sec := s.asOwner.sec, hbm := u.hbm }) ∧
          (on → (s.anyEnabled p = true ∨ (s.part p).run.frame.isSome = true) → ∃ u : State, exec (.setLaunch n) s = .next (u.finish n stOk []) ∧
            u.part p = { s.part p with ctl := { (s.part p).ctl with lteP := later } } ∧ (∀ q, q ≠ p → u.part q = s.part q) ∧
            u = { s with parts := u.parts, sec := s.asOwner.sec, hbm := u.hbm }) ∧
          (on → s.anyEnabled p = false → (s.part p).run.frame = none → ∃ u : State, exec (.setLaunch n) s = .next (u.finish n stOk []) ∧
            (∀ i, i < k → (u.lte (f + i)).raw = lteRw (sub d (64 * i) 64)) ∧ (u.part p).ctl.lteP = [] ∧ (∀ q, q < 8 → (u.part q).st = (s.part q).st)))))

/-- R54, R66, R67, R70 to R73, R106, R141, R332, R333, R334, R342, R489, R507: the commands of a run. ARM admits the partition's P_full to Granary, loads its cores and
wakes its pseudo-channels; START lets triggers act from 100 us later and its cores ramp; STOP and CHECKPOINT act where no frame runs, so that while a frame runs the
command waits; STOP of an ARMED partition unloads it, one of a partition that a break holds acts at once; REPLAY keeps the present state and restores the starting
checkpoint, and its end restores the state that was kept and answers; DBG_RESUME ends the break hold and completes when the cores have resumed. Arguments that
are not right are refused with BAD_ARG, a REPLAY on the slot with BUSY. -/
def Obligations.RunCommands : Prop :=
  (∀ (s : State) (n p code : Nat) (c : Nat → Instr) (ms : List Nat) (ps : List PState), partRow c code ms ps → code ≠ 0x0103 → s.calls n code ms true anyForm → s.callsPart n p ps →
    (payOk (s.payload (s.slot n)) 1 [] = false → exec (c n) s = .next (s.asOwner.finish n stArg [])) ∧
    (payOk (s.payload (s.slot n)) 1 [] = true → (s.part p).ck.replay.isSome = true → exec (c n) s = .next (s.asOwner.finish n stBusy []))) ∧
  (∀ (s : State) (n p : Nat), s.calls n 0x0105 [3, 5] true anyForm → s.callsPart n p [.loaded] → payOk (s.payload (s.slot n)) 1 [] = true →
    (s.part p).ck.replay = none →
    (s.admits p = false → exec (.arm n) s = .next (s.asOwner.finish n stResource [])) ∧
    (s.admits p = true → ∃ u : State, exec (.arm n) s = .next (u.finish n stOk []) ∧ (u.part p).st = .armed ∧
      ((s.part p).pwr.full ≠ 0 → (s.part p).pwr.idle ≤ (s.part p).pwr.full → (∀ q, q < 8 → q ≠ p → (s.part q).pwr.grant = 0) → (u.part p).pwr.grant = (s.part p).pwr.full) ∧
      (u.part p).res = (s.part p).res ∧ (u.part p).img = (s.part p).img ∧ (u.part p).ck = (s.part p).ck ∧ (u.part p).ctl = (s.part p).ctl ∧ (u.part p).run = (s.part p).run ∧
      (∀ (g : Image) (l c : Nat) (x : CoreImg), (s.part p).img.image = some g → (s.part p).res.place[l]? = some c → (∀ m, (s.part p).res.place[m]? = some c → m = l) → g.cores[l]? = some x →
        u.core c = (s.core c).loaded (s.part p).ctl.seed x) ∧
      (∀ c, c ∉ (s.part p).res.place → u.core c = s.core c) ∧
      (∀ x ∈ u.hbm.pcs, bit (s.part p).res.slices x.2.slice = true → x.2.selfref = false) ∧
      (∀ q, q ≠ p → (u.part q).st = (s.part q).st ∧ (u.part q).res = (s.part q).res ∧ (u.part q).img = (s.part q).img ∧ (u.part q).ctl = (s.part q).ctl ∧
        (u.part q).run = (s.part q).run ∧ (u.part q).ck = (s.part q).ck))) ∧
  (∀ (s : State) (n p : Nat), s.calls n 0x0106 [3, 5] true anyForm → s.callsPart n p [.armed] → payOk (s.payload (s.slot n)) 1 [] = true →
    (s.part p).ck.replay = none → ∃ u : State, exec (.start n) s = .next (u.finish n stOk []) ∧
      (u.part p).st = (if (s.part p).twin.tolMode = true ∧ (s.part p).twin.role ≠ 0 then .shadow else .running) ∧
      (u.part p).ctl = { (s.part p).ctl with startAt := s.now + 100000 * 65536, lastLaunch := none } ∧ (u.part p).run = { (s.part p).run with triggers := [] } ∧
      (u.part p).pwr = { (s.part p).pwr with ramp := some 0 } ∧
      (u.part p).ck = { (s.part p).ck with
        lastCkpt := s.now, began := s.opTicks, stage := if (s.part p).twin.tolMode = true ∧ (s.part p).twin.role ≠ 0 then 2 else 0 } ∧
      (u.part p).img = (s.part p).img ∧ (∀ q, q ≠ p → u.part q = s.part q) ∧
      u = { s with parts := u.parts, sec := s.asOwner.sec, stook := u.stook, host := u.host, out := u.out }) ∧
  (∀ (s : State) (n p : Nat) (brk catchUp : Prop), s.calls n 0x0107 [3, 5] true anyForm → payOk (s.payload (s.slot n)) 1 [] = true → (s.part p).ck.replay = none →
    brk = ((s.part p).st = .held ∧ (s.part p).run.byBreak = true) →
    catchUp = ((s.part p).ck.stage = 3 ∧ (s.part p).run.frame = none ∧ ((s.part p).st = .restarting ∨ (s.part p).st = .shadow)) →
    (s.callsPart n p [.armed] → ∃ u : State, exec (.stop n) s = .next (u.finish n stOk []) ∧ (u.part p).st = .loaded ∧ (u.part p).pwr.grant = 0 ∧
      (u.part p).img = (s.part p).img ∧ (u.part p).ctl = (s.part p).ctl ∧ (∀ c, u.core c = if c ∈ (s.part p).res.place then (s.core c).cleared else s.core c)) ∧
    (s.callsPart n p [.running, .held, .restarting, .shadow] →
      (¬ brk → ¬ catchUp → ((s.part p).run.frame.isSome = true ∨ ((s.part p).ck.stage ≠ 0 ∧ (s.part p).ck.stage ≠ 4) ∨ ∃ h ∈ (s.part p).run.holds, h.kind = 7) →
        exec (.stop n) s = .next (s.asOwner.setPart p { s.part p with ctl := { (s.part p).ctl with stop := (s.part p).ctl.stop ++ [n] } })) ∧
      ((brk ∨ catchUp ∨ ((s.part p).run.frame = none ∧ ((s.part p).ck.stage = 0 ∨ (s.part p).ck.stage = 4) ∧ (∀ h ∈ (s.part p).run.holds, h.kind ≠ 7) ∧
          ((s.part p).ctl.ckpt = [] ∨ ((s.part p).ck.copying = none ∧ (s.part p).img.image.isSome = true)))) →
        ∃ t, exec (.stop n) s = .next t ∧ (t.part p).st = .armed ∧ (t.part p).ctl.stop = [] ∧ (t.part p).run.triggers = [] ∧ (t.part p).run.emits = [] ∧
          (t.part p).run.holds = [] ∧ (t.part p).run.frame = none ∧ (t.part p).run.stepRun = false ∧ (t.part p).run.held = false ∧ (t.part p).ck.stage = 0 ∧
          (∀ m ∈ (s.part p).ctl.stop ++ [n], s.host.accepted.contains m = true → m ∉ (s.part p).ctl.resume → (s.part p).twin.hslot ≠ some m →
            slotOwn (t.slot m) = false ∧ fld (t.slot m) 6 1 = stOk) ∧ (∀ q, q ≠ p → t.part q = s.part q)) ∧
      (¬ brk → ¬ catchUp → (s.part p).run.frame = none → ((s.part p).ck.stage = 0 ∨ (s.part p).ck.stage = 4) → (∀ h ∈ (s.part p).run.holds, h.kind ≠ 7) →
        (s.part p).ctl.ckpt ≠ [] → (s.part p).ck.copying.isSome = true →
        exec (.stop n) s = .next (s.asOwner.setPart p { s.part p with ctl := { (s.part p).ctl with stop := (s.part p).ctl.stop ++ [n] } })))) ∧
  (∀ (s : State) (n p : Nat), s.calls n 0x0109 [3, 5] true anyForm → s.callsPart n p [.armed, .running, .held] → payOk (s.payload (s.slot n)) 1 [] = true →
    (s.part p).ck.replay = none →
    ((s.part p).run.frame = none → (s.part p).ck.copying = none → ∃ t, exec (.checkpoint n) s = .next t ∧ (t.part p).ck.copying = some ([], false) ∧
      (t.part p).ck.copy.step = (s.part p).ctl.stepCount ∧ (t.part p).ck.copy.chain = (s.part p).ck.chain ∧ (t.part p).ck.copy.seed = (s.part p).ctl.seed ∧
      (t.part p).ck.slots = (s.part p).ctl.ckpt ++ [n] ∧ (t.part p).ctl = { (s.part p).ctl with ckpt := [] } ∧ (t.part p).img = (s.part p).img ∧
      (t.part p).run = (s.part p).run ∧ (∀ q, q ≠ p → t.part q = s.part q) ∧ t = { s with parts := t.parts, sec := s.asOwner.sec, hbm := t.hbm }) ∧
    (((s.part p).run.frame.isSome = true ∨ (s.part p).ck.copying.isSome = true) → exec (.checkpoint n) s =
      .next (s.asOwner.setPart p { s.part p with ctl := { (s.part p).ctl with ckpt := (s.part p).ctl.ckpt ++ [n] } }))) ∧
  (∀ (s : State) (n p : Nat) (b : Bytes) (v : SealView) (sealed : Bool), s.calls n 0x0108 [3, 4, 5] true anyForm → s.callsPart n p [.armed, .faulted] →
    (s.part p).ck.replay = none → s.payload (s.slot n) = b → replayArgs p b s = true → sealed = bit (fld b 1 1) 0 →
    (sealed = true → v.output = true → exec (.replay n v) s = .next (s.asOwner.finish n stArg [])) ∧
    (sealed = true → v.output = false → v.opens = false → ∃ u : State, exec (.replay n v) s = .next (u.finish n stIntegrity []) ∧ u.parts = s.parts ∧ u.cores = s.cores) ∧
    ((sealed = true → v.output = false ∧ v.opens = true) →
      (s.replayPlan p sealed (fld b 8 8) v = none → exec (.replay n v) s = .next (s.asOwner.finish n stArg [])) ∧
      (∀ plan, s.replayPlan p sealed (fld b 8 8) v = some plan →
        ((s.part p).st = .faulted → s.admits p = false → exec (.replay n v) s = .next (s.asOwner.finish n stResource [])) ∧
        (((s.part p).st = .armed ∨ s.admits p = true) → (sub plan.start.bir 6 138 ≠ sub (s.bir p) 6 138 ∨ (sealed = true ∧ v.chainOk = false)) →
          exec (.replay n v) s = .next (s.asOwner.finish n stIntegrity [])) ∧
        (((s.part p).st = .armed ∨ s.admits p = true) → sub plan.start.bir 6 138 = sub (s.bir p) 6 138 → (sealed = true → v.chainOk = true) →
          ∃ (t : State) (r : Replay), exec (.replay n v) s = .next t ∧ (t.part p).ck.replay = some r ∧ r.slot = n ∧
            r.target = fld b 8 8 ∧ r.saved.step = (s.part p).ctl.stepCount ∧ r.saved.seed = (s.part p).ctl.seed ∧ (t.part p).ck.catchUp = plan.frames ∧ (t.part p).ck.stage = 3 ∧
            (t.part p).ctl.stepCount = plan.start.step ∧ (t.part p).ctl.seed = (if plan.start.seed.isEmpty then (s.part p).ctl.seed else plan.start.seed) ∧
            (t.part p).st = (s.part p).st ∧ t.host.accepted = s.host.accepted ∧ t.host.slots = s.host.slots ∧
            ((s.part p).st = .armed → ∀ q, q ≠ p → t.part q = s.part q))))) ∧
  (∀ (s : State) (p : Nat) (r : Replay) (g : Image) (reached ended : Bool) (content reply : Bytes), (s.part p).ck.replay = some r → (s.part p).img.image = some g →
    reached = (r.caps.all fun c => decide (c.2.2 ≤ ((s.core ((s.part p).res.place.getD c.1 0)).eng.getD c.2.1 {}).issued)) →
    ended = (r.ended || ((s.part p).ck.catchUp.isEmpty && (s.part p).run.frame.isNone)) →
    content = ((s.part p).img.fault.captures.map fun c => c.2.2.2).flatten ++ (s.part p).img.fault.mutOut →
    reply = (((s.part p).img.fault.captures.map fun c => c.2.2.2).flatMap fun c => Config.shake c 32) ++
      (if r.mutSec then Config.shake (s.part p).img.fault.mutOut 32 else []) ++ fit 32 (s.part p).cnt.bir →
    (ended = false → exec (.replayComplete p) s = .next s) ∧
    (ended = true → ∃ t, exec (.replayComplete p) s = .next t ∧ (t.part p).ck.replay = none ∧ (t.part p).ck.stage = 0 ∧ (t.part p).ck.catchUp = [] ∧
      (t.part p).ctl.stepCount = r.saved.step ∧ (t.part p).st = (s.part p).st ∧ t.host.accepted.contains r.slot = false ∧
      (r.aborted = true → fld (t.slot r.slot) 6 1 = stAborted) ∧
      (r.aborted = false → (reached = false ∨ r.ended = false) → fld (t.slot r.slot) 6 1 = stArg) ∧
      (r.aborted = false → reached = true → r.ended = true → r.size < envelopeSize s.recipients.length content.length → content ≠ [] → fld (t.slot r.slot) 6 1 = stResource) ∧
      (r.aborted = false → reached = true → r.ended = true → (envelopeSize s.recipients.length content.length ≤ r.size ∨ content = []) →
        fld (t.slot r.slot) 6 1 = stOk ∧ (reply.length ≤ 224 → sub (t.slot r.slot) 32 reply.length = reply)) ∧
      ((s.part p).st = .armed → content = [] → ∀ q, q ≠ p → t.part q = s.part q))) ∧
  (∀ (s : State) (p : Nat), (s.part p).ck.replay = none → exec (.replayComplete p) s = .next s) ∧
  ∀ (s : State) (n p : Nat) (on other : List Hold), s.calls n 0x0801 [3, 4, 5] false anyForm → s.callsPart n p [.held] → (s.part p).run.byBreak = true →
    on = ((s.part p).run.holds.filter fun h => h.began.isSome) → other = (on.filter fun h => h.kind != 6 && !h.dead s.cc) →
    (s.debugOn = false → exec (.dbgResume n) s = .next (s.finish n stAuth [])) ∧
    (s.debugOn = true → (payOk (s.payload (s.slot n)) 2 [] = false ∨ 1 < fld (s.payload (s.slot n)) 1 1) → exec (.dbgResume n) s = .next (s.finish n stArg [])) ∧
    (s.debugOn = true → payOk (s.payload (s.slot n)) 2 [] = true → fld (s.payload (s.slot n)) 1 1 ≤ 1 →
      (other = [] → ∃ u : State, exec (.dbgResume n) s = .next (u.finish n stOk []) ∧
        (u.part p).st = .running ∧ (u.part p).run.held = false ∧ (u.part p).run.holds = (s.part p).run.holds.filter (fun h => h.began.isNone) ∧
        (u.part p).cnt.holdCnt = satAdd (s.part p).cnt.holdCnt 1 ∧
        (∀ c ∈ (s.part p).res.place, fld (s.payload (s.slot n)) 1 1 = 0 → (u.core c).flt.brkEn = false) ∧ (∀ q, q ≠ p → u.part q = s.part q)) ∧
      (other ≠ [] → ∃ t, exec (.dbgResume n) s = .next t ∧ (t.part p).st = .held ∧ (t.part p).run.held = true ∧ (t.part p).ctl.resume = (s.part p).ctl.resume ++ [n] ∧
        (∀ h ∈ (t.part p).run.holds, h.kind = 6 → h.began.isSome = true → h.dead s.cc = true) ∧
        (∀ c ∈ (s.part p).res.place, fld (s.payload (s.slot n)) 1 1 = 0 → (t.core c).flt.brkEn = false) ∧ (∀ q, q ≠ p → t.part q = s.part q) ∧
        t = { s with parts := t.parts, cores := t.cores }))

/-! ### Field, time and store commands (12, 03, 13, 15, 17) -/

/-- R83, R85, R86, R356, R360, R362, R367, R382, R390, R394, R396, R425, R464, R469, R491: the commands that configure. PORT_CONFIG keeps its bytes, and a
change of mode takes the lanes down and what the port held, unless a partition that is not to be disturbed holds the port; SA_INSTALL takes a key whose seal
holds under the owner session, SA_ACTIVATE makes it the transmit key, at the frame boundary of a partition that runs, and SA_CLEAR removes it; DEST_SET,
SV_SUBSCRIBE and EMIT_BASE keep their fields; TIME_CONFIG applies at once; TIME_SET steps module time where nothing runs and nothing locks; CAL_SET replaces
a user record and extends M5; SET_CAP sets the cap that the idle draws fit. Arguments that are not right are refused with BAD_ARG. -/
def Obligations.ConfigurationCommands : Prop :=
  (∀ (s : State) (n p : Nat) (b : Bytes) (moved addr fixed : Bool), s.calls n 0x0201 [3, 4, 5] true anyForm → s.payload (s.slot n) = b → fld b 0 1 = p →
    moved = ((s.port p).mode != fld b 2 1) →
    addr = (sub ((s.port p).subCfg (fld b 1 1)) 8 6 != sub b 8 6 || sub ((s.port p).subCfg (fld b 1 1)) 16 32 != sub b 16 32) →
    fixed = (match s.portOwner p with | some r => portFixed (s.part r).st | none => false) →
    (portConfigOk b = false → exec (.portConfig n) s = .next (s.asOwner.finish n stArg [])) ∧
    (portConfigOk b = true → fixed = true → (moved = true ∨ addr = true) → exec (.portConfig n) s = .next (s.asOwner.finish n stState [])) ∧
    (portConfigOk b = true → moved = false → (fixed = false ∨ addr = false) → ∃ u : State, exec (.portConfig n) s = .next (u.finish n stOk []) ∧
      u.port p = { s.port p with cfg := (s.port p).cfg.put (fld b 1 1) (fit 64 b) } ∧ (∀ q, q ≠ p → u.port q = s.port q) ∧
      u = { s with field := { s.field with ports := u.field.ports }, sec := s.asOwner.sec }) ∧
    (portConfigOk b = true → moved = true → fixed = false → ∃ u : State, exec (.portConfig n) s = .next (u.finish n stOk []) ∧
      (u.port p).mode = fld b 2 1 ∧ (u.port p).lanes = 0 ∧ (u.port p).last = [] ∧ (u.port p).cfg = Tbl.put [] (fld b 1 1) (fit 64 b) ∧
      ((s.port p).lanes ≠ 0 → (u.port p).down = true) ∧ (∀ q, q ≠ p → u.port q = s.port q) ∧
      (∀ i, (s.point i).output = false → (s.point i).port = p → (s.point i).src ≠ 2 → (u.point i).held = []) ∧
      u = { s with field := u.field, time := u.time, free := u.free, sec := s.asOwner.sec, stook := u.stook, host := u.host, out := u.out })) ∧
  (∀ (s : State) (n i : Nat) (b sak : Bytes) (k : Session) (a : Assoc), s.calls n 0x0203 [3, 4, 5] true anyForm → s.payload (s.slot n) = b → fld b 0 1 = i →
    s.sec.owner = some k → a = (s.field.assocs.get? i).getD (newAssoc b) →
    ((saInstallArgs b = false ∨ (s.field.assocs.get? i).isNone ≠ bit (fld b 3 1) 0) → exec (.saInstall n sak) s = .next (s.asOwner.finish n stArg [])) ∧
    (saInstallArgs b = true → (s.field.assocs.get? i).isNone = bit (fld b 3 1) 0 →
      (s.field.assocs.get? i = none → s.channelRoom (newAssoc b) = false → exec (.saInstall n sak) s = .next (s.asOwner.finish n stResource [])) ∧
      ((s.field.assocs.get? i = none → s.channelRoom (newAssoc b) = true) →
        (Config.gcm (sub k.keys 32 32) (natLe 8 (s.host.nums.getD n 0) ++ zeros 4) (sub b 0 32) sak ≠ sub b 32 48 →
          exec (.saInstall n sak) s = .next (s.asOwner.finish n stIntegrity [])) ∧
        (Config.gcm (sub k.keys 32 32) (natLe 8 (s.host.nums.getD n 0) ++ zeros 4) (sub b 0 32) sak = sub b 32 48 →
          ∃ u : State, exec (.saInstall n sak) s = .next (u.finish n stOk []) ∧
          u.field.assocs.get? i = some { a with
            saks := a.saks.put (fld b 2 1) sak, pns := a.pns.del (fld b 2 1), warned := setDel a.warned (fld b 2 1), rxPn := a.rxPn.put (fld b 2 1) 1 } ∧
          (∀ j, j ≠ i → u.field.assocs.get? j = s.field.assocs.get? j) ∧ u = { s with field := { s.field with assocs := u.field.assocs }, sec := s.asOwner.sec })))) ∧
  (∀ (s : State) (n i an : Nat) (b : Bytes), s.payload (s.slot n) = b → fld b 0 1 = i → fld b 1 1 = an →
    (s.calls n 0x0204 [3, 4, 5] true anyForm →
      ((payOk b 2 [] = false ∨ s.field.assocs.get? i = none ∨ ∃ a, s.field.assocs.get? i = some a ∧ (a.transmit = false ∨ a.saks.get? an = none)) →
        exec (.saActivate n) s = .next (s.asOwner.finish n stArg [])) ∧
      (∀ (a : Assoc) (sak : Bytes) (live : Bool), payOk b 2 [] = true → s.field.assocs.get? i = some a → a.transmit = true → a.saks.get? an = some sak →
        live = (match s.portOwner a.port with | some p => (s.part p).st == .running || (s.part p).st == .held | none => false) →
        ∃ u : State, exec (.saActivate n) s = .next (u.finish n stOk []) ∧
          u.field.assocs.get? i = some (if live then { a with anPend := some an } else { a with an := some an, anPend := none }) ∧
          (∀ j, j ≠ i → u.field.assocs.get? j = s.field.assocs.get? j) ∧ u = { s with field := { s.field with assocs := u.field.assocs }, sec := s.asOwner.sec })) ∧
    (s.calls n 0x0205 [3, 4, 5] true anyForm →
      ((payOk b 2 [] = false ∨ s.field.assocs.get? i = none ∨ (an = 255 ∧ s.assocNamed i = true) ∨
          ∃ a, s.field.assocs.get? i = some a ∧ an ≠ 255 ∧ (a.saks.get? an = none ∨ (a.transmit = true ∧ a.an = some an))) →
        exec (.saClear n) s = .next (s.asOwner.finish n stArg [])) ∧
      (∀ a, payOk b 2 [] = true → s.field.assocs.get? i = some a → an = 255 → s.assocNamed i = false → ∃ u : State, exec (.saClear n) s = .next (u.finish n stOk []) ∧
        u.field.assocs.get? i = none ∧ (∀ j, j ≠ i → u.field.assocs.get? j = s.field.assocs.get? j) ∧
        u = { s with field := { s.field with assocs := u.field.assocs }, sec := s.asOwner.sec }) ∧
      (∀ a sak, payOk b 2 [] = true → s.field.assocs.get? i = some a → an ≠ 255 → a.saks.get? an = some sak → (a.transmit = false ∨ a.an ≠ some an) →
        ∃ u : State, exec (.saClear n) s = .next (u.finish n stOk []) ∧
          u.field.assocs.get? i = some { a with
            saks := a.saks.del an, pns := a.pns.del an, rxPn := a.rxPn.del an, anPend := if a.anPend = some an then none else a.anPend } ∧
          (∀ j, j ≠ i → u.field.assocs.get? j = s.field.assocs.get? j) ∧ u = { s with field := { s.field with assocs := u.field.assocs }, sec := s.asOwner.sec }))) ∧
  (∀ (s : State) (n : Nat) (b : Bytes), s.payload (s.slot n) = b →
    (∀ ok : Prop, s.calls n 0x0206 [3, 4, 5] true anyForm → ok = (payOk b 35 [] = true ∧ fld b 0 2 ≤ 4095 ∧ fld b 2 1 ≤ 3 ∧ fld b 3 1 < 32 ∧
        (bit (fld b 2 1) 0 = true ∨ s.destUsed (s.field.dests.getD (fld b 0 2) []) = false)) →
      (ok → exec (.destSet n) s = .next (({ s.asOwner with field := { s.field with dests := s.field.dests.put (fld b 0 2) (fit 35 b) } } : State).finish n stOk [])) ∧
      (¬ ok → exec (.destSet n) s = .next (s.asOwner.finish n stArg []))) ∧
    (s.calls n 0x0207 [3, 4, 5] true anyForm → (svArgs b = false → exec (.svSubscribe n) s = .next (s.asOwner.finish n stArg [])) ∧
      (svArgs b = true → ∃ u : State, exec (.svSubscribe n) s = .next (u.finish n stOk []) ∧
        u.field.subs.get? (fld b 0 1) = some { raw := fit 92 b } ∧ (∀ v, v ≠ fld b 0 1 → u.field.subs.get? v = s.field.subs.get? v) ∧
        (∀ p, (u.port p).last.get? (2 ^ 40 + fld b 0 1) = none) ∧
        (u.awn (64 + fld b 0 1)).nom = (fld b 3 1 == 1) ∧ (u.awn (64 + fld b 0 1)).state = 0 ∧ (u.awn (64 + fld b 0 1)).est = none ∧
        (∀ c, c ≠ 64 + fld b 0 1 → u.awn c = s.awn c) ∧ u.field.points = s.field.points ∧
        u = { s with field := u.field, meas := { s.meas with awn := u.meas.awn }, sec := s.asOwner.sec })) ∧
    (∀ p, s.calls n 0x0209 [3, 4, 5] true anyForm →
      (s.callsPart n p [.loaded, .armed] → payOk b 16 [(1, 7)] = true →
        exec (.emitBase n) s = .next ((s.asOwner.setPart p { s.part p with cnt := { (s.part p).cnt with emit := fld b 8 8 } }).finish n stOk [])) ∧
      (s.callsPart n p [.loaded, .armed] → payOk b 16 [(1, 7)] = false → exec (.emitBase n) s = .next (s.asOwner.finish n stArg [])) ∧
      (s.callsPart n p [.empty, .running, .held, .restarting, .faulted, .shadow] → exec (.emitBase n) s = .next (s.asOwner.finish n stState []))) ∧
    (s.calls n 0x0210 [3, 4, 5] true anyForm → (timeConfigOk b = false → exec (.timeConfig n) s = .next (s.asOwner.finish n stArg [])) ∧
      (timeConfigOk b = true → ∃ u : State, exec (.timeConfig n) s = .next (u.finish n stOk []) ∧ u.time.cfg = fit 10 b ∧ u.time.ports = [] ∧
        u.time.ppsLocked = false ∧ u.time.source = 0 ∧ u.time.count = s.time.count ∧ u.time.known = s.time.known ∧
        u = { s with time := u.time, free := u.free, sec := s.asOwner.sec, stook := u.stook, host := u.host, out := u.out })) ∧
    (s.calls n 0x0212 [3, 4, 5] true anyForm →
      ((s.time.state = 1 ∨ s.time.state = 2 ∨ s.mayStep = false) → exec (.timeSet n) s = .next (s.asOwner.finish n stState (natLe 1 s.time.state))) ∧
      (s.time.state ≠ 1 → s.time.state ≠ 2 → s.mayStep = true →
        ((payOk b 12 [] = false ∨ 1000000000 ≤ fld b 2 4) → exec (.timeSet n) s = .next (s.asOwner.finish n stArg [])) ∧
        (payOk b 12 [] = true → fld b 2 4 < 1000000000 →
          ∃ u : State, exec (.timeSet n) s = .next (u.finish n stOk []) ∧ u.now = fld b 6 6 * Config.tSec + fld b 2 4 * 65536 ∧ u.time.known = true ∧ u.time.ppsSec = none ∧
          u.field.points = s.field.points ∧
          u = { s with time := u.time, field := u.field, ltes := u.ltes, meas := u.meas, free := u.free, sec := s.asOwner.sec, stook := u.stook, host := u.host, out := u.out }))) ∧
    (s.calls n 0x0402 [3, 4, 5] true anyForm →
      ((payOk b 20 [(2, 2)] = false ∨ calIndexes.contains (fld b 0 2) = false ∨ calOk (fld b 0 2) (sub b 4 16) = false) →
        exec (.calSet n) s = .next (s.asOwner.finish n stArg [])) ∧
      (payOk b 20 [(2, 2)] = true → calIndexes.contains (fld b 0 2) = true → calOk (fld b 0 2) (sub b 4 16) = true →
        ∃ u : State, exec (.calSet n) s = .next (u.finish n stOk []) ∧ u.calUser (fld b 0 2) = sub b 4 16 ∧
        (∀ i, i ≠ fld b 0 2 → u.calUser i = s.calUser i) ∧
        u.sec.meas.getD 5 [] = Config.shake (s.sec.meas.getD 5 (zeros 64) ++ natLe 2 8 ++ Config.shake (calContent u.meas.user) 64) 64 ∧
        u = { s with meas := { s.meas with user := u.meas.user }, sec := { s.asOwner.sec with meas := u.sec.meas } })) ∧
    (s.calls n 0x0601 [3, 4, 5] true anyForm →
      ((payOk b 8 [(2, 6)] = false ∨ fld b 0 2 < 6000 ∨ s.capMax < fld b 0 2) → exec (.setCap n) s = .next (s.asOwner.finish n stArg [])) ∧
      (payOk b 8 [(2, 6)] = true → 6000 ≤ fld b 0 2 → fld b 0 2 ≤ s.capMax →
        (({ s with gran := { s.gran with cap := fld b 0 2 } } : State).gMax < (s.granted.map fun p => (s.part p).pwr.idle + 100).sum →
          exec (.setCap n) s = .next (s.asOwner.finish n stResource [])) ∧
        ((s.granted.map fun p => (s.part p).pwr.idle + 100).sum ≤ ({ s with gran := { s.gran with cap := fld b 0 2 } } : State).gMax →
          ∃ (u : State) (r : Bytes), exec (.setCap n) s = .next (u.finish n stOk r) ∧ fld r 0 2 = fld b 0 2 ∧
          u.gran = { s.gran with cap := fld b 0 2 } ∧
          (∀ p, (u.part p).st = (s.part p).st ∧ (u.part p).run = (s.part p).run ∧ (u.part p).ctl = (s.part p).ctl ∧ (u.part p).img = (s.part p).img) ∧
          u = { s with gran := u.gran, parts := u.parts, sec := s.asOwner.sec, stook := u.stook, host := u.host, out := u.out }))))

/-! ### Trust (16) -/

/-- R459, R461, R464 to R468, R470, R479 to R483: keys, sessions, debug unlock and zeroisation. A segment that is not an object's last is kept, one out of order ends
the object; a signed object that names the owner, this module and the right nonce makes a session the owner session (and LOCKED is left), the record the
pending key, or the policy the working copy, and one whose signature, signer, serial or nonce fails is AUTH_FAILED; a session is derived from the encapsulated
secret; it ends when closed or idle; a debug unlock destroys every partition, lasts its time, and ends with every partition destroyed again; ZEROISE clears
keys, sessions, working copies and scratchpads, completes what is in flight and enters ZEROISED. -/
def Obligations.TrustCommands : Prop :=
  (∀ (s : State) (n i : Nat) (b : Bytes) (ok : Bool), s.calls n 0x0010 locked4 false (s.authRow i) → s.payload (s.slot n) = b →
    ∀ c : Instr, ((i = 1 ∧ c = .authOwnerSession n ok) ∨ (i = 2 ∧ c = .authOwnerRecord n ok) ∨ (i = 3 ∧ c = .authOwnerPolicy n ok)) →
    (fld b 0 1 ≠ 0 → exec c s = .next (s.finish n stArg [])) ∧
    (fld b 0 1 = 0 → (segArgs b = false ∨ s.segOrder authKey b = false) →
      exec c s = .next (({ s with sec := { s.sec with segs := s.sec.segs.del authKey } } : State).finish n stArg [])) ∧
    (fld b 0 1 = 0 → segArgs b = true → s.segOrder authKey b = true → segLast b = false →
      exec c s = .next (({ s with sec := { s.sec with segs := s.sec.segs.put authKey ⟨fld b 2 2 + 1, s.segData authKey b⟩ } } : State).finish n stOk [])) ∧
    (fld b 0 1 = 0 → segArgs b = true → s.segOrder authKey b = true → segLast b = true → objKind (s.segData authKey b) ≠ i → ∃ u : State,
      exec c s = .next (u.finish n stAuth []) ∧ u.sec.owner = s.sec.owner ∧ u.sec.sess = s.sec.sess ∧ u.sec.pend = s.sec.pend ∧ u.otp = s.otp ∧ u.ctl = s.ctl)) ∧
  (∀ (s : State) (n : Nat) (b o : Bytes) (ok : Bool), s.calls n 0x0010 locked4 false (s.authRow 1) → s.payload (s.slot n) = b → fld b 0 1 = 0 →
    segArgs b = true → s.segOrder authKey b = true → segLast b = true → s.segData authKey b = o → objKind o = 1 →
    (objForm o 0 = false → ∃ u : State, exec (.authOwnerSession n ok) s = .next (u.finish n stArg []) ∧ u.sec.owner = s.sec.owner ∧ u.sec.sess = s.sec.sess ∧ u.ctl = s.ctl) ∧
    (objForm o 0 = true → (ok = false ∨ sub o 8 16 ≠ Config.serial ∨ s.byOwner o = false ∨ (∀ k ∈ s.sec.sess, k.num ≠ objArg o) ∨
        ∃ k, (s.sec.sess.find? fun x => x.num == objArg o) = some k ∧ sub o 24 32 ≠ k.bind) →
      ∃ u : State, exec (.authOwnerSession n ok) s = .next (u.finish n stAuth []) ∧ u.sec.owner = s.sec.owner ∧ u.sec.sess = s.sec.sess ∧ u.ctl = s.ctl) ∧
    (∀ k, objForm o 0 = true → ok = true → sub o 8 16 = Config.serial → s.byOwner o = true → (s.sec.sess.find? fun x => x.num == objArg o) = some k → sub o 24 32 = k.bind →
      ∃ u : State, exec (.authOwnerSession n ok) s = .next (u.finish n stOk []) ∧
      u.sec = { s.sec with owner := some { k with n := 0, last := s.opMs }, sess := s.sec.sess.filter fun y => y.num != k.num, segs := s.sec.segs.del authKey } ∧
      u.ctl = { s.ctl with mstate := if s.ctl.mstate = 2 ∨ s.ctl.mstate = 3 then (if s.ctl.fewCores = true ∨ s.ctl.lostSlices ≠ [] then 5 else 3) else s.ctl.mstate } ∧
      u = { s with sec := u.sec, ctl := u.ctl, stook := u.stook, host := u.host, out := u.out })) ∧
  (∀ (s : State) (n : Nat) (b o : Bytes) (ok signer : Bool), s.calls n 0x0010 locked4 false (s.authRow 2) → s.payload (s.slot n) = b → fld b 0 1 = 0 → segArgs b = true →
    s.segOrder authKey b = true → segLast b = true → s.segData authKey b = o → objKind o = 2 →
    signer = (if s.sec.ownerSlot = none then decide (128 ≤ objSigner o) && s.sec.vendorOk (objSigner o - 128) else s.byOwner o) →
    (s.ownerAgain o = true → exec (.authOwnerRecord n ok) s =
      .next (({ s with sec := { s.sec with ownerLost := false, segs := s.sec.segs.del authKey } } : State).finish n stOk [])) ∧
    (s.ownerAgain o = false → objForm o 3520 = false → ∃ u : State, exec (.authOwnerRecord n ok) s = .next (u.finish n stArg []) ∧ u.sec.pend = s.sec.pend) ∧
    (s.ownerAgain o = false → objForm o 3520 = true → (ok = false ∨ sub o 8 16 ≠ Config.serial ∨ sub o 24 32 ≠ zeros 32 ∨ signer = false) →
      ∃ u : State, exec (.authOwnerRecord n ok) s = .next (u.finish n stAuth []) ∧ u.sec.pend = s.sec.pend ∧ u.sec.owners = s.sec.owners ∧ u.sec.owner = s.sec.owner) ∧
    (s.ownerAgain o = false → objForm o 3520 = true → ok = true → sub o 8 16 = Config.serial → sub o 24 32 = zeros 32 → signer = true →
      (8 ≤ s.sec.owners.length → ∃ u : State, exec (.authOwnerRecord n ok) s = .next (u.finish n stResource []) ∧ u.sec.pend = s.sec.pend) ∧
      (s.sec.owners.length < 8 → objArg o ≠ s.sec.owners.length → ∃ u : State, exec (.authOwnerRecord n ok) s = .next (u.finish n stArg []) ∧ u.sec.pend = s.sec.pend) ∧
      (s.sec.owners.length < 8 → objArg o = s.sec.owners.length → ∃ u : State, exec (.authOwnerRecord n ok) s = .next (u.finish n stOk []) ∧
        u.sec.pend = some ⟨if s.sec.ownerSlot = none then 0 else 1, 0, Config.shake (sub o 64 1952) 64, Config.shake (sub o 2016 1568) 64⟩ ∧
        u.sec.owner = none ∧ u.sec.sess = [] ∧ u.sec.owners = s.sec.owners ∧ u.sec.ownerLost = false ∧
        u.stook.offered = s.stook.offered + 1 ∧ u = { s with sec := u.sec, stook := u.stook, host := u.host, out := u.out }))) ∧
  (∀ (s : State) (n : Nat) (b o : Bytes) (ok : Bool), s.calls n 0x0010 locked4 false (s.authRow 3) → s.payload (s.slot n) = b → fld b 0 1 = 0 → segArgs b = true →
    s.segOrder authKey b = true → segLast b = true → s.segData authKey b = o → objKind o = 3 →
    (objForm o 64 = false → ∃ u : State, exec (.authOwnerPolicy n ok) s = .next (u.finish n stArg []) ∧ u.otp = s.otp) ∧
    (objForm o 64 = true → (ok = false ∨ sub o 8 16 ≠ Config.serial ∨ sub o 24 32 ≠ zeros 32 ∨ s.byOwner o = false) →
      ∃ u : State, exec (.authOwnerPolicy n ok) s = .next (u.finish n stAuth []) ∧ u.otp = s.otp) ∧
    (objForm o 64 = true → ok = true → sub o 8 16 = Config.serial → sub o 24 32 = zeros 32 → s.byOwner o = true →
      ((objArg o ≠ 0 ∨ policyOk (sub o 64 64) = false ∨ fld (sub o 64 64) 16 4 ≤ fld s.policy 16 4 ∨ fld (sub o 64 64) 0 4 < fld s.policy 0 4) →
        ∃ u : State, exec (.authOwnerPolicy n ok) s = .next (u.finish n stArg []) ∧ u.otp = s.otp) ∧
      (objArg o = 0 → policyOk (sub o 64 64) = true → fld s.policy 16 4 < fld (sub o 64 64) 16 4 → fld s.policy 0 4 ≤ fld (sub o 64 64) 0 4 →
        ∃ u : State, exec (.authOwnerPolicy n ok) s = .next (u.finish n stOk []) ∧ u.policy = sub o 64 64 ∧ u.stook.offered = s.stook.offered + 1 ∧
        u = { s with otp := { s.otp with work := u.otp.work }, sec := u.sec, stook := u.stook, host := u.host, out := u.out }))) ∧
  (∀ (s : State) (n : Nat) (b o : Bytes) (good : Prop), s.calls n 0x0302 locked4 false (form 1) → s.payload (s.slot n) = b → segArgs b = true →
    s.segOrder 0x030201 b = true → segLast b = true → s.segData 0x030201 b = o →
    good = (o.length = 1696 ∧ fld o 0 4 = 0x4553394B ∧ fld o 4 4 = 0 ∧ fld o 24 40 = 0 ∧ sub o 8 16 = Config.serial) →
    (¬ good → ∃ u : State, exec (.kemSessionEstablish n) s = .next (u.finish n stArg []) ∧ u.sec.sess = s.sec.sess) ∧
    (good → sub o 64 64 ≠ Config.shake s.offer 64 → ∃ u : State, exec (.kemSessionEstablish n) s = .next (u.finish n stIntegrity []) ∧ u.sec.sess = s.sec.sess) ∧
    (good → sub o 64 64 = Config.shake s.offer 64 → ∃ (u : State) (k : Session) (r : Bytes), exec (.kemSessionEstablish n) s = .next (u.finish n stOk r) ∧
      u.sec.sess = s.sec.sess ++ [k] ∧ k.num = s.sec.sessN + 1 ∧
      k.keys = Config.shake ([0x4B, 0x39, 0x53, 0x45, 0x53, 0x53] ++ (List.range 32).map (Config.kemByte s.sec.kemN (sub o 128 1568)) ++
        Config.shake s.offer 64 ++ Config.shake o 64) 96 ∧ r = natLe 4 k.num ++ Config.shake (sub k.keys 64 32) 16 ∧ u.sec.kemN = s.sec.kemN + 1 ∧
      u.sec.owner = s.sec.owner ∧ u = { s with sec := u.sec })) ∧
  (∀ (s : State) (n key : Nat) (b : Bytes) (ok : Bool) (c : Instr) (code : Nat) (ms : List Nat), (c = .kemSessionEstablish n ∧ key = 0x030201 ∧ code = 0x0302 ∧ ms = locked4) ∨
      (c = .debugUnlock n ok ∧ key = 0x030301 ∧ code = 0x0303 ∧ ms = [3, 4, 5]) ∨ (c = .zeroise n ok ∧ key = 0x030401 ∧ code = 0x0304 ∧ ms = locked4) →
    s.calls n code ms false (form 1) → s.payload (s.slot n) = b →
    ((segArgs b = false ∨ s.segOrder key b = false) → exec c s = .next (({ s with sec := { s.sec with segs := s.sec.segs.del key } } : State).finish n stArg [])) ∧
    (segArgs b = true → s.segOrder key b = true → segLast b = false →
      exec c s = .next (({ s with sec := { s.sec with segs := s.sec.segs.put key ⟨fld b 2 2 + 1, s.segData key b⟩ } } : State).finish n stOk []))) ∧
  (∀ (s : State) (n : Nat), s.calls n 0x0302 locked4 false (form 2) →
    (s.authOk n (s.slot n) = true → exec (.kemSessionClose n) s = .next (({ s with sec := { s.sec with owner := none } } : State).finish n stOk [])) ∧
    (s.authOk n (s.slot n) = false → exec (.kemSessionClose n) s = .next (s.tagFailed.finish n stAuth []))) ∧
  (∀ s : State, (∀ k, s.sec.owner = some k →
      exec .sessionIdleTimeout s = .next (if k.last + s.sessionIdleMs ≤ s.opMs then { s with sec := { s.sec with owner := none } } else s)) ∧
    (s.sec.owner = none → exec .sessionIdleTimeout s = .next s)) ∧
  (∀ (s : State) (n : Nat), s.calls n 0x0303 [3, 4, 5] false (form 0) →
    exec (.debugUnlockNonce n) s = .next (({ s with sec := { s.sec with dbgNonce := some s.nonce, draws := s.sec.draws + 1 } } : State).finish n stOk s.nonce)) ∧
  (∀ (s : State) (n : Nat), s.calls n 0x0304 locked4 false (form 0) →
    exec (.zeroiseNonce n) s = .next (({ s with sec := { s.sec with zeroNonce := some s.nonce, draws := s.sec.draws + 1 } } : State).finish n stOk s.nonce)) ∧
  (∀ (s : State) (n : Nat) (b o : Bytes) (ok : Bool) (still good : Prop), s.calls n 0x0303 [3, 4, 5] false (form 1) → s.payload (s.slot n) = b → segArgs b = true →
    s.segOrder 0x030301 b = true → segLast b = true → s.segData 0x030301 b = o →
    still = (∀ p, p < 8 → (s.part p).st ∈ [.empty, .loaded, .armed, .faulted]) →
    good = (ok = true ∧ objKind o = 4 ∧ sub o 8 16 = Config.serial ∧ s.byOwner o = true ∧ s.sec.dbgNonce = some (sub o 24 32)) →
    (¬ still → ∃ u : State, exec (.debugUnlock n ok) s = .next (u.finish n stState []) ∧ u.debugOn = s.debugOn ∧ u.parts = s.parts) ∧
    (still → (bit (fld s.policy 4 1) 0 = false ∨ (objForm o 0 = true ∧ ¬ good)) →
      ∃ u : State, exec (.debugUnlock n ok) s = .next (u.finish n stAuth []) ∧ u.debugOn = s.debugOn ∧ u.parts = s.parts) ∧
    (still → bit (fld s.policy 4 1) 0 = true → objForm o 0 = true → good → (objArg o = 0 ∨ fld s.policy 8 4 < objArg o) →
      ∃ u : State, exec (.debugUnlock n ok) s = .next (u.finish n stArg []) ∧ u.debugOn = s.debugOn ∧ u.parts = s.parts) ∧
    (still → bit (fld s.policy 4 1) 0 = true → objForm o 0 = true → good → 1 ≤ objArg o → objArg o ≤ fld s.policy 8 4 →
      ∃ u : State, exec (.debugUnlock n ok) s = .next (u.finish n stOk []) ∧ u.debugOn = true ∧ u.sec.unlocked = some (s.opMs + 1000 * objArg o) ∧
        u.sec.dbgNonce = none ∧ (∀ p, p < 8 → (u.part p).res.created = false) ∧ (∀ a ∈ u.field.assocs, a.2.saks = []) ∧
        (∀ m ∈ s.host.accepted, m ≠ n → partCode (slotCode (s.slot m)) = true → m ∉ u.host.accepted ∧ fld (u.slot m) 6 1 = stAborted))) ∧
  (∀ (s : State) (n : Nat), s.calls n 0x0303 [3, 4, 5] false (form 2) →
    (s.debugOn = false → exec (.debugRelock n) s = .next (s.finish n stOk [])) ∧
    (s.debugOn = true → ∃ u : State, exec (.debugRelock n) s = .next (u.finish n stOk []) ∧ u.debugOn = false ∧
      (∀ p, p < 8 → (u.part p).res.created = false) ∧ ∀ c ∈ u.cores, c.2.flt.brkEn = false)) ∧
  (∀ s : State, (∀ x, s.sec.unlocked = some x → (s.opMs < x → exec .debugUnlockExpiry s = .next s) ∧
      (x ≤ s.opMs → ∃ t, exec .debugUnlockExpiry s = .next t ∧ t.debugOn = false ∧ (∀ p, p < 8 → (t.part p).res.created = false) ∧
        ∀ c ∈ t.cores, c.2.flt.brkEn = false)) ∧
    (s.sec.unlocked = none → exec .debugUnlockExpiry s = .next s)) ∧
  ∀ (s : State) (n : Nat) (b o : Bytes) (ok : Bool) (good : Prop), s.calls n 0x0304 locked4 false (form 1) → s.payload (s.slot n) = b → segArgs b = true →
    s.segOrder 0x030401 b = true → segLast b = true → s.segData 0x030401 b = o →
    good = (ok = true ∧ objKind o = 5 ∧ sub o 8 16 = Config.serial ∧ s.byOwner o = true ∧ s.sec.zeroNonce = some (sub o 24 32)) →
    (objArg o = 1 → s.ctl.mstate ≠ 4 → ∃ u : State, exec (.zeroise n ok) s = .next (u.finish n stState []) ∧ u.parts = s.parts ∧ u.ctl = s.ctl) ∧
    (((objArg o = 1 ∧ s.ctl.mstate = 4 ∧ bit (fld s.policy 4 1) 1 = false) ∨ ((objArg o ≠ 1 ∨ s.ctl.mstate = 4) ∧ objForm o 0 = true ∧ ¬ good)) →
      ∃ u : State, exec (.zeroise n ok) s = .next (u.finish n stAuth []) ∧ u.parts = s.parts ∧ u.ctl = s.ctl) ∧
    (objArg o ≠ 1 → objForm o 0 = false → ∃ u : State, exec (.zeroise n ok) s = .next (u.finish n stArg []) ∧ u.parts = s.parts ∧ u.ctl = s.ctl) ∧
    (objForm o 0 = true → good → 2 ≤ objArg o → ∃ u : State, exec (.zeroise n ok) s = .next (u.finish n stArg []) ∧ u.parts = s.parts ∧ u.ctl = s.ctl) ∧
    (objForm o 0 = true → good → (objArg o = 0 ∨ (objArg o = 1 ∧ s.ctl.mstate = 4 ∧ bit (fld s.policy 4 1) 1 = true)) →
      ∃ u : State, exec (.zeroise n ok) s = .next (u.finish n stOk []) ∧ u.ctl.mstate = 6 ∧ u.sec.dead = (s.sec.dead || objArg o == 1) ∧ u.sec.owner = none ∧
        u.sec.sess = [] ∧ u.sec.unlocked = none ∧ u.sec.segs = [] ∧ u.otp.work = [] ∧ u.otp.past = [] ∧ u.otp.gens = s.otp.gens ∧ u.otp.summary = s.otp.summary ∧
        u.meas.user = [] ∧ u.units.overlay = [] ∧
        (∀ p, p < 8 → (u.part p).res.created = false) ∧ (∀ c ∈ u.cores, c.2.sp.mem = [] ∧ c.2.keys = []) ∧ (∀ a ∈ u.field.assocs, a.2.saks = []) ∧
        (∀ m ∈ s.host.accepted, m ≠ n → m ∉ u.host.accepted ∧ fld (u.slot m) 6 1 = if m ∈ s.committed then stOk else stAborted))

/-- R422, R431, R433, R434 to R436, R438, R450, R459, R460, R463, R533: SERVICE, firmware and the store. SERVICE is entered where nothing runs, and programs a pending
owner key; it is left for READY or DEGRADED; an image of a valid vendor slot and a version not below the policy's goes into the flash slot that is not
running, and its activation makes it image A and ends the owner session; a commit writes the working copy, or the captured configuration, into the next
generation once; an overlay takes effect for its block. What is not right is refused: BAD_ARG, BAD_STATE, INTEGRITY, NO_RESOURCES or AUTH_FAILED. -/
def Obligations.ServiceAndStoreCommands : Prop :=
  (∀ (s : State) (n : Nat), s.calls n 0x0003 [3, 4, 5] true (form 1) →
    ((∃ p, p < 8 ∧ (s.part p).st ∉ [.empty, .loaded, .armed, .faulted]) → exec (.serviceEnter n) s = .next (s.asOwner.finish n stState [])) ∧
    ((∀ p, p < 8 → (s.part p).st ∈ [.empty, .loaded, .armed, .faulted]) → ∃ u : State, exec (.serviceEnter n) s = .next (u.finish n stOk []) ∧
      u.ctl = { s.ctl with mstate := 4 } ∧ u.sec.pend = none ∧
      u.sec.owners = s.sec.owners ++ (s.sec.pend.map fun k => { k with time := s.opMs % 2 ^ 40 }).toList ∧
      u = { s with ctl := u.ctl, sec := u.sec, stook := u.stook, host := u.host, out := u.out })) ∧
  (∀ (s : State) (n : Nat), s.calls n 0x0003 [3, 4, 5] true (form 0) →
    (s.mstate = 4 → ∃ u : State, exec (.serviceLeave n) s = .next (u.finish n stOk []) ∧
      u.ctl = { s.ctl with mstate := if s.ctl.fewCores = true ∨ s.ctl.lostSlices ≠ [] then 5 else 3 } ∧
      u = { s with ctl := u.ctl, sec := s.asOwner.sec, stook := u.stook, host := u.host, out := u.out }) ∧
    (s.mstate ≠ 4 → exec (.serviceLeave n) s = .next (s.asOwner.finish n stOk []))) ∧
  (∀ (s : State) (n : Nat) (b : Bytes) (img : FwImg) (good : Prop), s.calls n 0x0020 [3, 4, 5] true anyForm → s.payload (s.slot n) = b →
    good = (Config.shake (s.winRead (fld b 0 8) (fld b 8 4)) 32 = sub b 12 32 ∧ img.ok = true ∧ s.sec.vendorOk img.slot = true ∧ fld s.policy 0 4 ≤ img.svn) →
    ((payOk b 44 [] = false ∨ s.intakeOk (fld b 0 8) (fld b 8 4) = false) → exec (.fwStage n img) s = .next (s.asOwner.finish n stArg [])) ∧
    (payOk b 44 [] = true → s.intakeOk (fld b 0 8) (fld b 8 4) = true →
      (¬ good → ∃ u : State, exec (.fwStage n img) s = .next (u.finish n stIntegrity []) ∧ u = { s with sec := s.asOwner.sec, hbm := u.hbm }) ∧
      (good → ∃ u : State, exec (.fwStage n img) s = .next (u.finish n stOk (natLe 4 img.version ++ natLe 4 img.svn ++ [if img.sig == s.sec.fw.sig then 1 else 0])) ∧
        u = { s with
          sec := if s.sec.letter = 0 then { s.asOwner.sec with flashB := img } else { s.asOwner.sec with flashA := img }
          hbm := u.hbm }))) ∧
  (∀ (s : State) (n : Nat) (img : FwImg) (good : Prop), s.calls n 0x0021 [4] true anyForm → img = (if s.sec.letter = 0 then s.sec.flashB else s.sec.flashA) →
    good = (img.ok = true ∧ s.sec.vendorOk img.slot = true ∧ fld (s.otp.inForce 4) 0 4 ≤ img.svn ∧ ∃ y ∈ s.sec.vendorAfter img, y.2.revoked = false) →
    (¬ good → exec (.fwActivate n) s = .next (s.asOwner.finish n stIntegrity [])) ∧
    (good → ∃ u : State, exec (.fwActivate n) s = .next (u.finish n stOk []) ∧ u.sec.fw = img ∧ u.sec.letter = 0 ∧ u.sec.flashA = img ∧
      u.sec.flashB = (if s.sec.letter = 0 then s.sec.flashA else s.sec.flashB) ∧ u.sec.owner = none ∧ u.sec.vendors = s.sec.vendorAfter img ∧
      (∀ p, (u.part p).img = (s.part p).img ∧ (u.part p).st = (s.part p).st ∧ (u.part p).run = (s.part p).run) ∧ u.cores = s.cores ∧ u.ctl = s.ctl ∧ u.otp = s.otp)) ∧
  (∀ (s : State) (n blk cap : Nat) (b w : Bytes) (s1 : State), s.calls n 0x0401 [4] true anyForm → s.payload (s.slot n) = b → fld b 0 1 = blk → fld b 1 1 = cap →
    w = (if cap = 1 then s.captured else s.working blk) →
    s1 = (if cap = 1 then { s.asOwner with otp := { s.otp with work := s.otp.work.put 5 w } } else s.asOwner) →
    ((payOk b 40 [(2, 6)] = false ∨ blk < 4 ∨ 6 < blk ∨ 1 < cap ∨ (cap = 1 ∧ blk ≠ 5)) → exec (.otpCommit n) s = .next (s.asOwner.finish n stArg [])) ∧
    (payOk b 40 [(2, 6)] = true → 4 ≤ blk → blk ≤ 6 → (cap = 0 ∨ (cap = 1 ∧ blk = 5)) →
      (Config.shake w 32 ≠ sub b 8 32 → exec (.otpCommit n) s = .next (s.asOwner.finish n stIntegrity [])) ∧
      (Config.shake w 32 = sub b 8 32 → w = s.otp.inForce blk →
        exec (.otpCommit n) s = .next (s1.finish n stOk (natLe 1 (s.otp.forceIdx blk) ++ natLe 1 (s.otp.spares blk)))) ∧
      (Config.shake w 32 = sub b 8 32 → w ≠ s.otp.inForce blk → s.otp.spares blk = 0 → exec (.otpCommit n) s = .next (s1.finish n stResource [])) ∧
      (Config.shake w 32 = sub b 8 32 → w ≠ s.otp.inForce blk → s.otp.spares blk ≠ 0 → ∃ u : State,
        exec (.otpCommit n) s = .next (u.finish n stOk (natLe 1 (s.otp.generations blk).length ++ natLe 1 (7 - (s.otp.generations blk).length))) ∧
        u.otp.generations blk = s.otp.generations blk ++ [⟨some w, s.opMs⟩] ∧ u.otp.inForce blk = w ∧ u.otp.work = s1.otp.work ∧
        u = { s with otp := u.otp, sec := s.asOwner.sec, stook := u.stook, host := u.host, out := u.out }))) ∧
  ∀ (s : State) (n blk key : Nat) (b o c : Bytes) (ok : Bool) (head good : Prop), s.calls n 0x0404 locked4 false anyForm → s.payload (s.slot n) = b → fld b 0 1 = blk → key = 0x040400 + blk →
    s.segData key b = o → sub o 64 (fld o 32 4) = c →
    head = (fld o 0 4 = 0x564F394B ∧ fld o 4 1 = blk ∧ fld o 5 3 = 0 ∧ fld o 36 28 = 0 ∧ o.length = 64 + fld o 32 4 + 3309) →
    good = ((blk = 7 ∨ s.otp.spares blk = 0) ∧ (blk = 4 → policyOk c = true ∧ fld o 32 4 = 64) ∧ (blk = 5 → fld o 32 4 ≤ 5056) ∧
      (blk = 6 → fld o 32 4 = 16 * calIndexes.length) ∧ (blk = 7 → (overlayUnits c).isSome = true)) →
    ((blk < 4 ∨ 7 < blk) → exec (.overlaySet n ok) s = .next (s.finish n stArg [])) ∧
    (4 ≤ blk → blk ≤ 7 → (segArgs b = false ∨ s.segOrder key b = false) →
      exec (.overlaySet n ok) s = .next (({ s with sec := { s.sec with segs := s.sec.segs.del key } } : State).finish n stArg [])) ∧
    (4 ≤ blk → blk ≤ 7 → segArgs b = true → s.segOrder key b = true → segLast b = false →
      exec (.overlaySet n ok) s = .next (({ s with sec := { s.sec with segs := s.sec.segs.put key ⟨fld b 2 2 + 1, s.segData key b⟩ } } : State).finish n stOk [])) ∧
    (4 ≤ blk → blk ≤ 7 → segArgs b = true → s.segOrder key b = true → segLast b = true →
      (¬ head → ∃ u : State, exec (.overlaySet n ok) s = .next (u.finish n stArg []) ∧ u.otp = s.otp ∧ u.meas = s.meas ∧ u.units = s.units) ∧
      (head → (ok = false ∨ s.sec.ownerLost = true ∨ s.sec.ownerSlot = none) → ∃ u : State, exec (.overlaySet n ok) s = .next (u.finish n stAuth []) ∧
        u.otp = s.otp ∧ u.meas = s.meas ∧ u.units = s.units) ∧
      (head → ok = true → s.sec.ownerLost = false → s.sec.ownerSlot.isSome = true →
        (sub o 16 16 ≠ Config.serial → ∃ u : State, exec (.overlaySet n ok) s = .next (u.finish n stIntegrity []) ∧ u.otp = s.otp ∧ u.meas = s.meas ∧ u.units = s.units) ∧
        (sub o 16 16 = Config.serial → ¬ good → ∃ u : State, exec (.overlaySet n ok) s = .next (u.finish n stArg []) ∧ u.otp = s.otp ∧ u.meas = s.meas ∧ u.units = s.units) ∧
        (sub o 16 16 = Config.serial → good → ∃ u : State, exec (.overlaySet n ok) s = .next (u.finish n stOk []) ∧ u.otp.past.get? blk = some ⟨fld o 8 8, c⟩ ∧
          ((blk = 4 ∨ blk = 5) → u.otp.work.get? blk = some c) ∧ (blk = 6 → u.meas.user = calRecords c) ∧ (blk ≠ 6 → u.meas.user = s.meas.user) ∧
          (∀ us, blk = 7 → overlayUnits c = some us → (∀ x ∈ us, x ∈ u.units.overlay) ∧ (∀ x ∈ s.units.overlay, x ∈ u.units.overlay)) ∧
          (blk ≠ 7 → u.units = s.units) ∧ u.otp.gens = s.otp.gens)))
/-! ### The twin (18) -/

/-- R35, R515, R517 to R528, R531, R534: what arrives on the Rachis link. Lanes align and are lost, crossed cables are refused; a link that comes up in a pair
sends STATE, a lost link ends a pairing in progress or isolates the paired partitions; a record that is not sealed right, or whose counter is not above the last,
is discarded and counted, and one that is good moves the counter on; HELLO makes the pair, draws its keys and sends the map, or ends the pairing with the status
of what failed; a CUT of the lead takes the place of the follower's inputs, or tells it that the lead skipped; digests are compared, and one that does not come
in 1 ms is missing; blocks join into objects, and a whole object gives the follower its seed, the lead's checkpoint and journal, its values, the rebuilt leaf
and the recomputed digest; the partner's map is adopted; STATE completes PAIR and moves what a STATE moves; it leaves again; PAIR ends after 60 s. -/
def Obligations.TwinLinkEvents : Prop :=
  (∀ (s : State) (m : Nat) (crossed : Bool) (up : Twin), up = { s.twin with lanes := (s.twin.lanes ||| m % 65536) &&& (65535 ^^^ (s.twin.retired &&& 65535)) } →
    ((s.alive = false ∨ s.board.laneRefBad = true) → exec (.rachisLinkUp m crossed) s = .next s) ∧
    (s.alive = true → s.board.laneRefBad = false →
      (crossed = true → ∃ t, exec (.rachisLinkUp m crossed) s = .next t ∧ t.stook.offered = s.stook.offered + 1 ∧
        t = { s with stook := t.stook, host := t.host, out := t.out }) ∧
      (crossed = false → (s.linkUp = true ∨ popcount 16 up.lanes < 8 ∨ s.twin.pair ≠ 2) → exec (.rachisLinkUp m crossed) s = .next { s with twin := up }) ∧
      (crossed = false → s.linkUp = false → 8 ≤ popcount 16 up.lanes → s.twin.pair = 2 → ∃ t, exec (.rachisLinkUp m crossed) s = .next t ∧
        t.twin = { up with tx := s.twin.tx + ((List.range 8).filter fun p => (s.part p).twin.role != 0).length } ∧
        t.out.length = s.out.length + ((List.range 8).filter fun p => (s.part p).twin.role != 0).length ∧ t = { s with twin := t.twin, out := t.out }))) ∧
  (∀ (s : State) (m : Nat) (down : Twin), down = { s.twin with lanes := s.twin.lanes &&& (65535 ^^^ (m % 65536)) } →
    ((s.linkUp = false ∨ 8 ≤ popcount 16 down.lanes) → exec (.rachisLinkDown m) s = .next { s with twin := down }) ∧
    (s.linkUp = true → popcount 16 down.lanes < 8 →
      (s.twin.pair = 1 → s.twin.slot = none → exec (.rachisLinkDown m) s = .next { s with twin := { down with pair := 0, slot := none } }) ∧
      (∀ n, s.twin.pair = 1 → s.twin.slot = some n → n ∈ s.host.accepted → ∃ t, exec (.rachisLinkDown m) s = .next t ∧
        t.twin = { down with pair := 0, slot := none } ∧ slotOwn (t.slot n) = false ∧ fld (t.slot n) 6 1 = stResource ∧
        t = { s with twin := t.twin, host := t.host, out := t.out }) ∧
      (s.twin.pair ≠ 1 → ∃ t, exec (.rachisLinkDown m) s = .next t ∧ t.twin = down ∧
        (∀ p, t.part p = if p < 8 ∧ (s.part p).twin.role ≠ 0 then { s.part p with twin := { (s.part p).twin with isolated := true } } else s.part p) ∧
        t = { s with twin := t.twin, parts := t.parts }))) ∧
  (∀ (s : State) (c : Nat) (ok : Bool) (b : Bytes) (i : Instr), i ∈ [.cutFrame c ok b, .digestFrame c ok b false, .digestFrame c ok b true,
      .stateBlock c ok b false, .stateBlock c ok b true, .seedBlock c ok b, .mapBlock c ok b, .ckptBlock c ok b, .journalBlock c ok b, .valuesBlock c ok b,
      .constBlock c ok b, .redigestBlock c ok b] →
    (s.linkUp = false → exec i s = .next s) ∧
    (s.linkUp = true → s.twin.pair ≠ 2 ∨ ok = false ∨ c < s.twin.rx →
      exec i s = .next { s with twin := { s.twin with discarded := satAdd s.twin.discarded 1 } }) ∧
    (s.linkUp = true → s.twin.pair = 2 → ok = true → s.twin.rx ≤ c → (∀ k, blockOk b k = false) → (haulmCheck b [3]).isSome = true →
      (haulmCheck b [4]).isSome = true → exec i s = .next { s with twin := { s.twin with rx := c + 1 } })) ∧
  (∀ (s : State) (b ss his : Bytes) (cert owners classes : Bool), his = sub b (b.length - 16) 16 →
    (s.linkUp = false → exec (.helloBlock b cert owners classes ss) s = .next s) ∧
    (s.linkUp = true → (s.twin.pair ≠ 1 ∨ blockOk b 1 = false) →
      exec (.helloBlock b cert owners classes ss) s = .next { s with twin := { s.twin with discarded := satAdd s.twin.discarded 1 } }) ∧
    (∀ st, s.linkUp = true → s.twin.pair = 1 → blockOk b 1 = true →
      ((st = stIntegrity ∧ (cert = false ∨ his ≠ s.twin.partner)) ∨ (st = stAuth ∧ cert = true ∧ his = s.twin.partner ∧ owners = false) ∨
        (st = stArg ∧ cert = true ∧ his = s.twin.partner ∧ owners = true ∧ classes = false)) →
      (s.twin.slot = none → exec (.helloBlock b cert owners classes ss) s = .next { s with twin := { s.twin with pair := 0, slot := none } }) ∧
      (∀ n, s.twin.slot = some n → n ∈ s.host.accepted → ∃ t, exec (.helloBlock b cert owners classes ss) s = .next t ∧
        t.twin = { s.twin with pair := 0, slot := none } ∧ slotOwn (t.slot n) = false ∧ fld (t.slot n) 6 1 = st ∧
        t = { s with twin := t.twin, host := t.host, out := t.out })) ∧
    (s.linkUp = true → s.twin.pair = 1 → blockOk b 1 = true → cert = true → his = s.twin.partner → owners = true → classes = true →
      ∃ t, exec (.helloBlock b cert owners classes ss) s = .next t ∧
        t.twin = { s.twin with
          pair := 2, slot := none, rx := 0, tx := 1
          keys := Config.shake ([0x4B, 0x39, 0x50, 0x41, 0x49, 0x52] ++ ss ++ (if leNat Config.serial.reverse < leNat his.reverse then
            Config.serial ++ his else his ++ Config.serial)) 64 } ∧
        s.out.length < t.out.length ∧ (s.twin.slot = none → t.host = s.host) ∧
        (∀ n, s.twin.slot = some n → n ∈ s.host.accepted → slotOwn (t.slot n) = false ∧ fld (t.slot n) 6 1 = stOk) ∧
        t = { s with twin := t.twin, host := t.host, out := t.out })) ∧
  (∀ (s : State) (c p e cut : Nat) (b : Bytes), s.paired = true → s.twin.rx ≤ c → haulmCheck b [3] = none → fld b 8 4 = p → fld b 36 2 = e →
    timeOf (sub b 20 12) = cut →
    ((7 < p ∨ s.following p = false ∨ (s.lte e).owned = false ∨ (s.lte e).part ≠ p) →
      exec (.cutFrame c true b) s = .next { s with twin := { s.twin with rx := c + 1 } }) ∧
    (∀ (im : Image) (ts : List Trigger) (g : Trigger) (fits : Trigger → Bool), p ≤ 7 → s.following p = true → (s.lte e).owned = true → (s.lte e).part = p →
      (s.part p).img.image = some im → fits = (fun x => x.entry == e && (x.lead == 0 || (x.lead == 1 && x.cut == cut))) →
      ts = (if (s.part p).run.triggers.any fits then (s.part p).run.triggers else (s.part p).run.triggers ++ [
        { entry := e, at_ := if (s.lte e).trig = 2 then cut else cut + (s.lte e).cutLead * 65536, cut := cut, launch := cut + (s.lte e).cutLead * 65536,
          buf := (s.part p).run.freeBuf, suppressed := false, data := defaultInputs im }]) →
      ts.find? fits = some g → ∃ t, exec (.cutFrame c true b) s = .next t ∧
        (fld b 32 2 = 0 → bit (fld b 6 1) 2 = true → t.part p = { s.part p with run := { (s.part p).run with
          triggers := ts.map fun x => if x == g then { x with lead := if bit (fld b 6 1) 0 then 3 else 2 } else x } }) ∧
        (∀ x : Bytes × Nat, (fld b 32 2 ≠ 0 ∨ bit (fld b 6 1) 2 = false) →
          x = ((List.range (fld b 32 2)).map fun i => sub b (64 + 8 * i) 8).foldl (cutRecord im (s.pointsOf p false)) (g.data, 0) →
          t.part p = { s.part p with
            run := { (s.part p).run with
              triggers := ts.map fun y => if y == g then { g with data := x.1, lead := 1, cut := cut, launch := cut + (s.lte e).cutLead * 65536 } else y
              buf0 := if g.buf = some 0 then x.1 else (s.part p).run.buf0, buf1 := if g.buf = some 1 then x.1 else (s.part p).run.buf1 }
            twin := { (s.part p).twin with cutDiff := satAdd (s.part p).twin.cutDiff x.2 } }) ∧
        ((s.part p).run.triggers.any fits = true → t.ltes = s.ltes) ∧
        ((s.part p).run.triggers.any fits = false → ((s.lte e).trig = 0 → (t.lte e).lastT = some (cut + (s.lte e).cutLead * 65536)) ∧
          ((s.lte e).trig = 1 → (t.lte e).trigN = (s.nextTrigger e).map Prod.snd) ∧ (2 ≤ (s.lte e).trig → (t.lte e).evt = none) ∧ (t.lte e).raw = (s.lte e).raw) ∧
        (∀ i, i ≠ e → t.lte i = s.lte i) ∧ (∀ q, q ≠ p → t.part q = s.part q) ∧
        t = { s with parts := t.parts, ltes := t.ltes, twin := { s.twin with rx := c + 1 } })) ∧
  (∀ (s : State) (c p step : Nat) (b : Bytes) (flt : Bool) (got : List (Nat × Bytes × Bool)), s.paired = true → s.twin.rx ≤ c → haulmCheck b [4] = none →
    fld b 8 4 = p → fld b 40 8 = step → got = (s.part p).twin.partner ++ [(step, sub b 64 32, flt)] →
    ((7 < p ∨ s.twinned p = false) → exec (.digestFrame c true b flt) s = .next { s with twin := { s.twin with rx := c + 1 } }) ∧
    (p ≤ 7 → s.twinned p = true → (∀ m ∈ (s.part p).twin.local_, m.step ≠ step) → ∃ t, exec (.digestFrame c true b flt) s = .next t ∧
      t.part p = { s.part p with twin := { (s.part p).twin with partner := got } } ∧ (∀ q, q ≠ p → t.part q = s.part q) ∧
      t = { s with parts := t.parts, twin := { s.twin with rx := c + 1 } }) ∧
    (∀ (m : TDig) (x : Nat) (d : Bytes) (his mine : Bool) (seen : PTwin), p ≤ 7 → s.twinned p = true → (s.part p).twin.local_.find? (fun x => x.step == step) = some m →
      got.find? (fun x => x.1 == step) = some (x, d, his) → mine = (match (s.part p).twin.lastFlt with | some f => decide (m.cut ≤ f) | none => false) →
      seen = { (s.part p).twin with local_ := (s.part p).twin.local_.filter (·.step != step), partner := got.filter (·.1 != step) } →
      ∃ t, exec (.digestFrame c true b flt) s = .next t ∧ (∀ q, q ≠ p → t.part q = s.part q) ∧
        (seen.tolMode = true → t.part p = { s.part p with twin := seen } ∧ t = { s with parts := t.parts, twin := { s.twin with rx := c + 1 } }) ∧
        (seen.tolMode = false → m.dig = d → t.part p = { s.part p with twin := { seen with
            isMatch := satAdd seen.isMatch 1, runMatch := seen.runMatch + 1
            rejoin := seen.rejoin || ((s.part p).st == .shadow && (s.part p).ck.stage == 4 && decide (16 ≤ seen.runMatch + 1)) } } ∧
          t = { s with parts := t.parts, twin := { s.twin with rx := c + 1 } }) ∧
        (seen.tolMode = false → m.dig ≠ d → his = true → mine = false →
          t.part p = { s.part p with twin := { seen with diverge := satAdd seen.diverge 1, runMatch := 0 } } ∧
          t = { s with parts := t.parts, twin := { s.twin with rx := c + 1 } }) ∧
        (seen.tolMode = false → m.dig ≠ d → (his = false ∨ mine = true) → (t.part p).twin.diverge = satAdd seen.diverge 1 ∧ (t.part p).twin.runMatch = 0 ∧
          (t.part p).twin.isMatch = seen.isMatch ∧ ((∀ h ∈ (s.part p).run.holds, h.kind ≠ 7) → (t.part p).cnt.fCause = 0x21) ∧
          (mine = true → his = false → (t.part p).twin.div = seen.div) ∧
          (mine = his → (t.part p).twin.div = some (step, m.dig, d) ∧ (t.part p).twin.was = seen.role ∧ (t.part p).twin.redMine = none ∧ (t.part p).twin.redHis = none) ∧
          t.stook.offered = s.stook.offered + 1 ∧ (t.part p).st = (s.part p).st))) ∧
  (∀ (s : State) (p : Nat) (late : TDig → Bool), late = (fun d => decide (d.deadline + 1000000 * 65536 ≤ s.now)) →
    ((∀ d ∈ (s.part p).twin.local_, late d = false) → exec (.digestWaitTimeout p) s = .next s) ∧
    ((∃ d ∈ (s.part p).twin.local_, late d = true) → ∃ t, exec (.digestWaitTimeout p) s = .next t ∧
      t.part p = { s.part p with twin := { (s.part p).twin with
        local_ := (s.part p).twin.local_.filter fun d => !late d
        missing := satAdd (s.part p).twin.missing ((s.part p).twin.local_.filter late).length } } ∧
      (∀ q, q ≠ p → t.part q = s.part q) ∧ t = { s with parts := t.parts })) ∧
  (∀ (s : State) (c p k : Nat) (b had : Bytes) (i : Instr), s.paired = true → s.twin.rx ≤ c → blockOk b k = true → blockPart b = p →
    had = (if fld b 16 8 = 0 then [] else (s.part p).twin.rx.getD k []) →
    (k, i) ∈ [(2, .stateBlock c true b false), (2, .stateBlock c true b true), (3, .seedBlock c true b), (4, .mapBlock c true b), (5, .ckptBlock c true b),
      (6, .journalBlock c true b), (7, .valuesBlock c true b), (8, .constBlock c true b), (9, .redigestBlock c true b)] →
    (fld b 16 8 ≠ had.length ∨ (k ∉ [2, 4] ∧ (s.part p).twin.role = 0 ∧ fld b 24 8 ≤ (had ++ b.drop 64).length) → ∃ t, exec i s = .next t ∧
      t.part p = { s.part p with twin := { (s.part p).twin with rx := (s.part p).twin.rx.del k } } ∧ (∀ q, q ≠ p → t.part q = s.part q) ∧
      t = { s with parts := t.parts, twin := { s.twin with rx := c + 1 } }) ∧
    (fld b 16 8 = had.length → (had ++ b.drop 64).length < fld b 24 8 → ∃ t, exec i s = .next t ∧
      t.part p = { s.part p with twin := { (s.part p).twin with rx := (s.part p).twin.rx.put k (had ++ b.drop 64) } } ∧ (∀ q, q ≠ p → t.part q = s.part q) ∧
      t = { s with parts := t.parts, twin := { s.twin with rx := c + 1 } })) ∧
  (∀ (s : State) (c p k : Nat) (b had o : Bytes) (w : Part), s.paired = true → s.twin.rx ≤ c → blockOk b k = true → blockPart b = p →
    had = (if fld b 16 8 = 0 then [] else (s.part p).twin.rx.getD k []) → fld b 16 8 = had.length → had ++ b.drop 64 = o → fld b 24 8 ≤ o.length →
    w = { s.part p with twin := { (s.part p).twin with rx := (s.part p).twin.rx.del k } } →
    (k = 3 → w.twin.role ≠ 0 → ∃ t, exec (.seedBlock c true b) s = .next t ∧
      t.part p = (if w.twin.role = 2 then { w with ctl := { w.ctl with seed := fit 32 o } } else w) ∧
      (∀ d, t.core d = if w.twin.role = 2 ∧ w.st = .armed ∧ d ∈ w.res.place then { s.core d with keys := (List.range 256).map (threshKey (fit 32 o)) } else s.core d) ∧
      (∀ q, q ≠ p → t.part q = s.part q) ∧ t = { s with parts := t.parts, cores := t.cores, twin := { s.twin with rx := c + 1 } }) ∧
    (k = 5 → w.twin.role ≠ 0 → ∃ t, exec (.ckptBlock c true b) s = .next t ∧
      t.part p = (if w.twin.fromLead then { w with twin := { w.twin with rxCkpt := o } } else w) ∧
      (∀ q, q ≠ p → t.part q = s.part q) ∧ t = { s with parts := t.parts, twin := { s.twin with rx := c + 1 } }) ∧
    (k = 6 → w.twin.role ≠ 0 → (w.img.image = none ∨ (w.st ≠ .shadow ∧ w.st ≠ .restarting) ∨ w.ck.stage ≠ 3 ∨ o.length < 64 ∨ fld o 0 4 ≠ 0x454A394B) →
      ∃ t, exec (.journalBlock c true b) s = .next t ∧ t.part p = w ∧ (∀ q, q ≠ p → t.part q = s.part q) ∧
        t = { s with parts := t.parts, twin := { s.twin with rx := c + 1 } }) ∧
    (∀ (g : Image), k = 6 → w.twin.role ≠ 0 → w.img.image = some g → (w.st = .shadow ∨ w.st = .restarting) → w.ck.stage = 3 → fld o 0 4 = 0x454A394B →
      o.length = 64 + (if fld o 4 1 = 0 then (g.inputSlots (zeros g.slotsIn)).length else 0) →
      (fld o 48 8 ≠ w.ck.journalN + 1 → ∃ t, exec (.journalBlock c true b) s = .next t ∧ t.part p = w ∧ (∀ q, q ≠ p → t.part q = s.part q) ∧
        t = { s with parts := t.parts, twin := { s.twin with rx := c + 1 } }) ∧
      (fld o 48 8 = w.ck.journalN + 1 → ∃ (t : State) (j : JEntry), exec (.journalBlock c true b) s = .next t ∧ (t.part p).ck.journal = w.ck.journal ++ [j] ∧
        (t.part p).ck.journalN = w.ck.journalN + 1 ∧ (t.part p).ck.chain = j.chain ∧ j.chain = Config.shake (w.ck.chain ++ Config.shake o 64) 64 ∧
        j.entry = fld o 8 2 ∧ j.ept = fld o 6 1 ∧ j.learn = (fld o 5 1 == 1) ∧ j.cut = timeOf (sub o 24 12) ∧ j.launch = timeOf (sub o 36 12) ∧ j.step = fld o 16 8 ∧
        j.cause = (if fld o 4 1 = 0 then 0 else if fld o 4 1 = 2 then 2 else 1) ∧ j.tensor = (if fld o 4 1 = 0 then g.tensorOf (o.drop 64) else []) ∧
        j.size = o.length ∧ (t.part p).ck.catchUp = (if fld o 4 1 = 0 then w.ck.catchUp ++ [j] else w.ck.catchUp) ∧ (t.part p).ctl = w.ctl ∧ (t.part p).run = w.run ∧
        (t.part p).st = w.st ∧ (∀ q, q ≠ p → t.part q = s.part q) ∧ t.cores = s.cores ∧ t.twin = { s.twin with rx := c + 1 })) ∧
    (∀ (seq : Nat) (hisNew : List (Nat × Bytes × Bool)), k = 7 → w.twin.role ≠ 0 → seq = fld o 0 8 → hisNew = w.twin.hisVals ++ [(seq, o.drop 9, fld o 8 1 == 1)] →
      ((∀ x ∈ w.twin.vals, x.1 ≠ seq) → ∃ t, exec (.valuesBlock c true b) s = .next t ∧ t.part p = { w with twin := { w.twin with hisVals := hisNew } } ∧
        (∀ q, q ≠ p → t.part q = s.part q) ∧ t = { s with parts := t.parts, twin := { s.twin with rx := c + 1 } }) ∧
      (∀ (x y : Nat × Bytes × Bool) (good : Bool) (run : Nat), w.twin.vals.find? (fun x => x.1 == seq) = some x → hisNew.find? (fun x => x.1 == seq) = some y →
        good = (!x.2.2 && !y.2.2 && x.2.1.length == y.2.1.length &&
          (List.range (x.2.1.length / 4)).all fun i => inTolerance w.twin.tolA w.twin.tolR (fld x.2.1 (4 * i) 4) (fld y.2.1 (4 * i) 4)) →
        run = (if good then w.twin.runTol + 1 else 0) →
        ∃ t, exec (.valuesBlock c true b) s = .next t ∧ (t.part p).twin.vals = w.twin.vals.filter (·.1 != seq) ∧ (t.part p).twin.hisVals = hisNew.filter (·.1 != seq) ∧
          (t.part p).twin.runTol = run ∧ (t.part p).twin.tried = w.twin.tried + 1 ∧
          (t.part p).twin.outTol = (if good then w.twin.outTol else satAdd w.twin.outTol 1) ∧
          (t.part p).twin.rejoin = (w.twin.rejoin || (w.st == .shadow && decide (max 1 w.twin.wantTol ≤ run))) ∧ (t.part p).st = w.st ∧
          (w.twin.hslot = none → t.host = s.host) ∧
          (∀ n, w.twin.hslot = some n → run < w.twin.wantTol → 10 * w.twin.wantTol ≤ w.twin.tried + 1 → (t.part p).twin.hslot = none ∧
            slotOwn (t.slot n) = false ∧ fld (t.slot n) 6 1 = stAborted) ∧
          (∀ n, w.twin.hslot = some n → (w.twin.wantTol ≤ run ∨ w.twin.tried + 1 < 10 * w.twin.wantTol) → (t.part p).twin.hslot = some n ∧ t.host = s.host) ∧
          (∀ q, q ≠ p → t.part q = s.part q))) ∧
    (k = 8 → w.twin.role ≠ 0 → (w.st ≠ .restarting ∨ w.ck.leafBad = none) → ∃ t, exec (.constBlock c true b) s = .next t ∧ t.part p = w ∧
      (∀ q, q ≠ p → t.part q = s.part q) ∧ t = { s with parts := t.parts, twin := { s.twin with rx := c + 1 } }) ∧
    (∀ leaf off, k = 8 → w.twin.role ≠ 0 → w.st = .restarting → w.ck.leafBad = some leaf → off = s.regionOff w 7 + leaf * mib →
      ∃ t, exec (.constBlock c true b) s = .next t ∧ memRead (t.part p).img.hbm off (min mib o.length) = o.take mib ∧
        (∀ a, a < off ∨ off + min mib o.length ≤ a → memGet (t.part p).img.hbm a = memGet w.img.hbm a) ∧ (t.part p).ck.leafBad = none ∧
        (t.part p).ctl = w.ctl ∧ (t.part p).st = w.st ∧ (t.part p).twin = w.twin ∧ (∀ q, q ≠ p → t.part q = s.part q) ∧
        t = { s with parts := t.parts, hbm := t.hbm, twin := { s.twin with rx := c + 1 } }) ∧
    (k = 9 → w.twin.role ≠ 0 → (∀ x, w.twin.div = some x → x.1 ≠ blockStep b) → ∃ t, exec (.redigestBlock c true b) s = .next t ∧ t.part p = w ∧
      (∀ q, q ≠ p → t.part q = s.part q) ∧ t = { s with parts := t.parts, twin := { s.twin with rx := c + 1 } }) ∧
    (∀ (mine his : Bytes), k = 9 → w.twin.role ≠ 0 → w.twin.div = some (blockStep b, mine, his) → ∃ t, exec (.redigestBlock c true b) s = .next t ∧
      (∀ q, q ≠ p → t.part q = s.part q) ∧
      (w.twin.redMine = none → t.part p = { w with twin := { w.twin with redHis := some (fit 32 o) } } ∧
        t = { s with parts := t.parts, twin := { s.twin with rx := c + 1 } }) ∧
      (∀ a : Bytes, w.twin.redMine = some a → (t.part p).twin.div = none ∧ (t.part p).twin.redMine = none ∧ (t.part p).twin.redHis = none ∧
        (a = fit 32 o → (t.part p).twin.rejoin = true ∧ (t.part p).twin.was = w.twin.was ∧ (t.part p).ck = w.ck) ∧
        (a ≠ fit 32 o → a = mine → fit 32 o ≠ his → (t.part p).twin.rejoin = true ∧ (t.part p).twin.was = 1 ∧ (t.part p).ck = w.ck) ∧
        (a ≠ fit 32 o → fit 32 o = his → a ≠ mine → (t.part p).twin.fromLead = true ∧ (t.part p).twin.rejoin = false ∧
          (blockStep b, s.opMs) ∈ (t.part p).twin.yields ∧ (t.part p).run.frame = none ∧
          (t.part p).ck.stage = (if 2 ≤ (w.twin.yields.filter fun y => decide (s.opMs ≤ y.2 + hours72) && y.1 == blockStep b).length then 0 else 2)) ∧
        (a ≠ fit 32 o → (a ≠ mine ∨ fit 32 o = his) → (fit 32 o ≠ his ∨ a = mine) → s.stook.offered < t.stook.offered ∧
          (w.twin.was = 1 → (t.part p).twin.rejoin = true ∧ (t.part p).ck = w.ck) ∧ (w.twin.was ≠ 1 → (t.part p).twin.fromLead = true)))) ∧
    (k = 4 → ∃ t, exec (.mapBlock c true b) s = .next t ∧ t.twin.map = mapUnitsOf o ∧ t.twin.rx = c + 1 ∧
      (s.lacking (mapUnitsOf o) = [] → t.part p = w ∧ (∀ q, q ≠ p → t.part q = s.part q) ∧
        t = { s with parts := t.parts, twin := { s.twin with rx := c + 1, map := mapUnitsOf o } }) ∧
      (∀ u ∈ s.lacking (mapUnitsOf o), t.disabled u.1 u.2 = true) ∧ (∀ x y, s.disabled x y = true → t.disabled x y = true)) ∧
    (∀ (x : Nat × Nat × Nat × Nat) (equal : Bool), k = 2 → s.twin.parts.find? (fun x => x.1 == p) = some x →
      (fld o 1 1 = 0 → ∃ t, exec (.stateBlock c true b equal) s = .next t ∧ t.part p = w ∧ (∀ q, q ≠ p → t.part q = s.part q) ∧
        t = { s with parts := t.parts, twin := { s.twin with rx := c + 1 } }) ∧
      (fld o 1 1 ≠ 0 → ∃ t, exec (.stateBlock c true b equal) s = .next t ∧ t.twin.parts = s.twin.parts.filter (fun x => x.1 != p) ∧
        (∀ q, q ≠ p → t.part q = s.part q) ∧
        ((x.2.2.1 + fld o 1 1 ≠ 3 ∨ equal = false) → t.part p = w ∧ t.twin.tx = s.twin.tx ∧ (x.2.1 ∈ s.host.accepted → fld (t.slot x.2.1) 6 1 = stArg)) ∧
        (x.2.2.1 + fld o 1 1 = 3 → equal = true → t.part p = { w with twin := { w.twin with role := x.2.2.1, isolated := false, runMatch := 0 } } ∧
          (x.2.2.1 = 2 → t.twin.tx = s.twin.tx + 1 ∧ s.out.length < t.out.length) ∧ (x.2.2.1 = 1 → s.twin.tx + 2 ≤ t.twin.tx ∧ s.out.length < t.out.length) ∧
          (x.2.1 ∈ s.host.accepted → fld (t.slot x.2.1) 6 1 = stOk)))) ∧
    (∀ (equal same serves : Bool) (his : Nat) (chain : Bytes) (tol : Bool), k = 2 → (∀ x ∈ s.twin.parts, x.1 ≠ p) → same = (sub o 82 32 == fit 32 w.cnt.bir) →
      serves = (w.st == .running || w.st == .held) → his = fld (fit 128 o) 114 8 → chain = sub (fit 128 o) 18 64 →
      tol = (if same && w.twin.hslot.isNone then false else w.twin.tolMode || (serves && fld (fit 128 o) 0 1 == 7 && !same)) →
      ∃ t, exec (.stateBlock c true b equal) s = .next t ∧ (∀ q, q ≠ p → t.part q = s.part q) ∧ (w.twin.role = 0 → t.part p = w) ∧
        (w.twin.role ≠ 0 → (tol = false ∨ serves = false ∨ fld o 0 1 ≠ 3 ∨ ∀ d ∈ w.res.place, s.disabled 1 d = false) → t.part p = { w with
          twin := { w.twin with
            pState := fit 128 o, isolated := false, tolMode := tol
            resync := if w.twin.isolated ∧ w.twin.role = 2 then w.twin.resync || w.ck.chainAt (fld (fit 128 o) 10 8) != some chain else w.twin.resync
            emitP := if w.twin.isolated ∧ w.twin.role = 2 then (if his = w.cnt.emit then w.twin.emitP else some his) else w.twin.emitP }
          cnt := if w.twin.role = 2 ∧ (w.st = .loaded ∨ w.st = .armed) ∧ w.twin.isolated = false then { w.cnt with emit := his } else w.cnt }) ∧
        (w.twin.role ≠ 0 → tol = true → serves = true → fld o 0 1 = 3 → (∃ d ∈ w.res.place, s.disabled 1 d = true) → (∀ h ∈ w.run.holds, h.kind ≠ 7) →
          (t.part p).cnt.fCause = 0x22 ∧ (t.part p).twin.pState = fit 128 o) ∧
        ((w.twin.role = 0 ∨ serves = false ∨ fld o 0 1 ≠ 5 ∨ fld w.twin.pState 0 1 = 5) → t.twin = { s.twin with rx := c + 1 }) ∧
        (∀ g, w.twin.role ≠ 0 → serves = true → fld o 0 1 = 5 → fld w.twin.pState 0 1 ≠ 5 → w.img.image = some g →
          (if w.ck.newest then w.ck.slotB else w.ck.slotA).valid = true → s.out.length < t.out.length ∧ s.twin.tx + 1 < t.twin.tx))) ∧
  (∀ (s : State) (p : Nat), ((s.part p).twin.role = 0 ∨ s.paired = false → exec (.stateBlockSend p) s = .next s) ∧
    ((s.part p).twin.role ≠ 0 → s.paired = true → ∃ t x, exec (.stateBlockSend p) s = .next t ∧ t.out = s.out ++ [x] ∧ x.chan = 8 ∧ t.twin.tx = s.twin.tx + 1 ∧
      t = { s with twin := { s.twin with tx := t.twin.tx }, out := t.out })) ∧
  ∀ (s : State) (past : Nat → Bool), past = (fun t => decide (t + 150000000000 ≤ s.opTicks)) → ∃ t, exec .pairTimeout s = .next t ∧
    t.twin = { s.twin with
      pair := if s.twin.pair = 1 ∧ past s.twin.since = true then 0 else s.twin.pair
      slot := if s.twin.pair = 1 ∧ past s.twin.since = true then none else s.twin.slot
      parts := s.twin.parts.filter fun x => !past x.2.2.2 } ∧
    (∀ n, s.twin.pair = 1 → past s.twin.since = true → s.twin.slot = some n → n ∈ s.host.accepted → slotOwn (t.slot n) = false ∧ fld (t.slot n) 6 1 = stResource) ∧
    (∀ x ∈ s.twin.parts, past x.2.2.2 = true → x.2.1 ∈ s.host.accepted → slotOwn (t.slot x.2.1) = false ∧ fld (t.slot x.2.1) 6 1 = stResource) ∧
    ((s.twin.pair ≠ 1 ∨ past s.twin.since = false) → (∀ x ∈ s.twin.parts, past x.2.2.2 = false) → t = s) ∧
    t = { s with twin := t.twin, host := t.host, out := t.out }

/-- R515, R520, R521, R531, R532, R534: the twin's commands. PAIR sends HELLO or the STATE with the role and waits for the partner; an unpair ends comparison,
and of the modules every pairing, and a HANDOVER or PAIR in progress ends with ABORTED; UNION_MAP op 1 adopts the partner's map; HANDOVER puts a paired ARMED
partition in tolerance mode and waits, and its cancel completes it with ABORTED. What is not right is refused: BAD_ARG, BAD_STATE, NO_RESOURCES. -/
def Obligations.TwinCommands : Prop :=
  (∀ (s : State) (n : Nat) (b : Bytes), s.calls n 0x0701 [3, 5] true (pairForm 0) → s.payload (s.slot n) = b →
    ((pairArgs b = false ∨ 1 < fld b 2 1) → exec (.pairModules n) s = .next (s.asOwner.finish n stArg [])) ∧
    (pairArgs b = true → fld b 2 1 ≤ 1 →
      (s.twin.pair ≠ 0 → exec (.pairModules n) s = .next (s.asOwner.finish n stState [])) ∧
      (s.twin.pair = 0 → s.linkUp = false → exec (.pairModules n) s = .next (s.asOwner.finish n stResource [])) ∧
      (s.twin.pair = 0 → s.linkUp = true → ∃ t, exec (.pairModules n) s = .next t ∧ t.twin.pair = 1 ∧ t.twin.partner = sub b 16 16 ∧ t.twin.slot = some n ∧
        t.twin.since = s.opTicks ∧ t.twin.isolate = (fld b 2 1 == 1) ∧ t.twin.parts = s.twin.parts ∧ s.out.length < t.out.length ∧ t.host = s.host ∧
        t = { s with twin := t.twin, sec := s.asOwner.sec, out := t.out }))) ∧
  (∀ (s : State) (n p role : Nat) (b : Bytes) (good legal : Prop), s.calls n 0x0701 [3, 5] true (pairForm 1) → s.payload (s.slot n) = b → fld b 1 1 = p → fld b 2 1 = role →
    good = (pairArgs b = true ∧ p ≤ 7 ∧ (role = 1 ∨ role = 2) ∧ tolOk (fld b 4 4) = true ∧ tolOk (fld b 8 4) = true) →
    legal = (s.paired = true ∧ (s.part p).twin.role = 0 ∧ (∀ x ∈ s.twin.parts, x.1 ≠ p) ∧
      (s.part p).st ∈ (if role = 1 then [PState.loaded, PState.armed, PState.running, PState.held] else [PState.loaded, PState.armed])) →
    (¬ good → exec (.pairPartition n) s = .next (s.asOwner.finish n stArg [])) ∧
    (good → ¬ legal → exec (.pairPartition n) s = .next (s.asOwner.finish n stState [])) ∧
    (good → legal → ∃ t, exec (.pairPartition n) s = .next t ∧ t.twin = { s.twin with parts := s.twin.parts ++ [(p, n, role, s.opTicks)], tx := s.twin.tx + 1 } ∧
      t.part p = { s.part p with twin := { (s.part p).twin with tolA := fld b 4 4, tolR := fld b 8 4 } } ∧ (∀ q, q ≠ p → t.part q = s.part q) ∧
      t.out.length = s.out.length + 1 ∧ t = { s with twin := t.twin, parts := t.parts, sec := s.asOwner.sec, out := t.out })) ∧
  (∀ (s : State) (n p : Nat) (b : Bytes), s.calls n 0x0701 [3, 5] true (pairForm 2) → s.payload (s.slot n) = b → fld b 1 1 = p →
    ((pairArgs b = false ∨ 7 < p) → exec (.unpairPartition n) s = .next (s.asOwner.finish n stArg [])) ∧
    (pairArgs b = true → p ≤ 7 → ∃ u : State, exec (.unpairPartition n) s = .next (u.finish n stOk []) ∧
      u.part p = { s.part p with twin := { (s.part p).twin with
        role := 0, tolMode := false, isolated := false, local_ := [], partner := [], vals := [], hisVals := [], pState := [], fresh := false, resync := false
        fromLead := false, rx := [], rxCkpt := [], rejoin := false, emitP := none, div := none, redMine := none, redHis := none, hslot := none } } ∧
      ((s.part p).twin.hslot = none → u.host = s.host ∧ u.out = s.out) ∧
      (∀ m, (s.part p).twin.hslot = some m → m ∈ s.host.accepted → slotOwn (u.slot m) = false ∧ fld (u.slot m) 6 1 = stAborted) ∧
      (∀ q, q ≠ p → u.part q = s.part q) ∧ u = { s with parts := u.parts, sec := s.asOwner.sec, host := u.host, out := u.out })) ∧
  (∀ (s : State) (n : Nat) (b : Bytes), s.calls n 0x0701 [3, 5] true (pairForm 3) → s.payload (s.slot n) = b →
    (pairArgs b = false → exec (.unpairModules n) s = .next (s.asOwner.finish n stArg [])) ∧
    (pairArgs b = true → ∃ u : State, exec (.unpairModules n) s = .next (u.finish n stOk []) ∧
      u.twin = { s.twin with pair := 0, keys := [], partner := [], slot := none, parts := [], map := [] } ∧
      (∀ p, p < 8 → (u.part p).twin.role = 0 ∧ (u.part p).twin.tolMode = false ∧ (u.part p).twin.hslot = none ∧ (u.part p).st = (s.part p).st ∧
        (u.part p).run = (s.part p).run) ∧
      (∀ m, m ∈ s.host.accepted → s.twin.slot = some m ∨ (∃ x ∈ s.twin.parts, x.2.1 = m) ∨ (∃ p, p < 8 ∧ (s.part p).twin.hslot = some m) →
        slotOwn (u.slot m) = false ∧ fld (u.slot m) 6 1 = stAborted) ∧
      u = { s with twin := u.twin, parts := u.parts, sec := s.asOwner.sec, host := u.host, out := u.out })) ∧
  (∀ (s : State) (n : Nat) (b : Bytes), s.calls n 0x0702 [3, 4, 5] true (form 1) → s.payload (s.slot n) = b →
    (s.unionArgs b (s.lacking s.twin.map).length = false → exec (.unionMapAdopt n) s = .next (s.asOwner.finish n stArg [])) ∧
    (s.unionArgs b (s.lacking s.twin.map).length = true → s.paired = false → exec (.unionMapAdopt n) s = .next (s.asOwner.finish n stResource [])) ∧
    (s.unionArgs b (s.lacking s.twin.map).length = true → s.paired = true → ∃ (u : State) (r : Bytes), exec (.unionMapAdopt n) s = .next (u.finish n stOk r) ∧
      r = natLe 2 u.mapUnits.length ++ natLe 2 u.twin.map.length ++ natLe 2 (s.lacking s.twin.map).length ++
        Config.shake (canonMap (u.twin.map.foldl insUnit u.mapUnits)) 64 ∧ u.twin.map = s.twin.map ∧
      u.winRead (fld b 8 8) (canonMap u.mapUnits ++ canonMap u.twin.map).length = canonMap u.mapUnits ++ canonMap u.twin.map ∧
      (∀ x ∈ s.lacking s.twin.map, u.disabled x.1 x.2 = true) ∧ (∀ x y, s.disabled x y = true → u.disabled x y = true) ∧
      (s.lacking s.twin.map = [] → u = s.asOwner.winWrite (fld b 8 8) (canonMap s.mapUnits ++ canonMap s.twin.map)))) ∧
  (∀ (s : State) (n p : Nat) (b : Bytes) (l d : Bool) (legal good : Prop), s.calls n 0x0703 [3, 5] true (handoverForm 0) → s.callsPart n p [.armed] → s.payload (s.slot n) = b →
    legal = ((s.part p).twin.role ≠ 0 ∧ (s.part p).twin.hisState = 3 ∧ (s.part p).twin.hslot = none) →
    good = (payOk b 12 [] = true ∧ fld b 2 2 ≠ 0 ∧ tolOk (fld b 4 4) = true ∧ tolOk (fld b 8 4) = true ∧ l = true ∧ d = true) →
    (¬ legal → exec (.handover n l d) s = .next (s.asOwner.finish n stState [])) ∧
    (legal → ¬ good → exec (.handover n l d) s = .next (s.asOwner.finish n stArg [])) ∧
    (legal → good → ∃ t, exec (.handover n l d) s = .next t ∧ t.part p = { s.part p with twin := { (s.part p).twin with
          tolMode := true, tolA := fld b 4 4, tolR := fld b 8 4, wantTol := fld b 2 2, runTol := 0, tried := 0, hslot := some n } } ∧
        (∀ q, q ≠ p → t.part q = s.part q) ∧ t = { s with parts := t.parts, sec := s.asOwner.sec })) ∧
  ∀ (s : State) (n p : Nat) (b : Bytes), s.calls n 0x0703 [3, 5] true (handoverForm 1) → s.payload (s.slot n) = b → fld b 0 1 = p →
    ((7 < p ∨ payOk b 12 [] = false) → exec (.handoverCancel n) s = .next (s.asOwner.finish n stArg [])) ∧
    (p ≤ 7 → payOk b 12 [] = true → (s.part p).twin.hslot = none → exec (.handoverCancel n) s = .next (s.asOwner.finish n stState [])) ∧
    (∀ m, p ≤ 7 → payOk b 12 [] = true → (s.part p).twin.hslot = some m → m ∈ s.host.accepted → m ≠ n → ∃ u : State, exec (.handoverCancel n) s = .next (u.finish n stOk []) ∧
      u.part p = { s.part p with twin := { (s.part p).twin with hslot := none } } ∧ slotOwn (u.slot m) = false ∧ fld (u.slot m) 6 1 = stAborted ∧
      (∀ q, q ≠ p → u.part q = s.part q) ∧ u = { s with parts := u.parts, sec := s.asOwner.sec, host := u.host, out := u.out })
/-! ### Reset and the invariants of every step -/

/-- R3, R20, R41, R75, R407, R408, R424, R464: the module after reset. It is OFF, with no command waiting, no partition, no session, nothing in Stook and no
output; MBX_CTL.EN is 1 and the mailbox is not ready; BAR0 does not answer; every invariant below holds. What the spec gives no reset value for stands at the
value that log entries 4 and 8 name, the model's choice. -/
def Obligations.ResetIsSound : Prop :=
  State.reset.bootSound ∧ State.reset.logSound ∧ State.reset.memSound ∧ State.reset.pending = [] ∧ State.reset.ctl.mstate = 0 ∧ State.reset.out = [] ∧
  State.reset.answers = false ∧ State.reset.host.en = true ∧ State.reset.host.ready = false ∧ State.reset.time.runs = false ∧
  State.reset.sec.owner = none ∧ State.reset.sec.sess = [] ∧ State.reset.stook.log = [] ∧
  (∀ p, p < 8 → State.reset.part p = {}) ∧ (∀ n, State.reset.slot n = zeros 256) ∧ (∀ i, (State.reset.point i).owned = false) ∧
  ∀ c, (State.reset.core c).sp.mem = [] ∧ (State.reset.core c).flt.cause = 0

/-- R41, R42, R38, R424, R426: every step keeps the agreement of boot and module state: the module state is one of the seven, a boot stage runs in BOOT alone, the
straps are two bits, the TAP holds one of its four instructions. -/
def Obligations.StepKeepsBootSound : Prop :=
  ∀ s t : State, s.bootSound → step s = .next t → t.bootSound

/-- R6, R442, R444, R447: every step keeps Stook's ingress queue, side buffer and main log within their sizes. -/
def Obligations.StepKeepsLogSound : Prop :=
  ∀ s t : State, s.logSound → step s = .next t → t.logSound
end

