-- ==== Sys2Proof/Laws/Mem.lean ====
section
/-! SUPPORT. Laws of the keyed tables and of the memories: reading after writing, and that every operation keeps the canonical form. -/

namespace Sys2Proof

/-! ### Tables -/

@[simp] theorem Tbl.getD_put_same {α : Type} (t : Tbl α) (i : Nat) (x d : α) : (t.put i x).getD i d = x := by
  induction t with
  | nil => simp [Tbl.put, Tbl.getD]
  | cons h t ih =>
    simp only [Tbl.put]
    split
    · simp [Tbl.getD]
    · split <;> simp_all [Tbl.getD]

theorem Tbl.getD_put_ne {α : Type} (t : Tbl α) {i j : Nat} (x d : α) (h : j ≠ i) : (t.put i x).getD j d = t.getD j d := by
  induction t with
  | nil => simp [Tbl.put, Tbl.getD, Ne.symm h]
  | cons a t ih =>
    obtain ⟨k, v⟩ := a
    simp only [Tbl.put]
    split
    · simp [Tbl.getD, Ne.symm h]
    · split
      · subst_vars; simp [Tbl.getD, Ne.symm h]
      · simp [Tbl.getD, ih]

theorem Tbl.getD_put {α : Type} (t : Tbl α) (i j : Nat) (x d : α) : (t.put i x).getD j d = if j = i then x else t.getD j d := by
  by_cases h : j = i
  · simp [h]
  · simp [h, Tbl.getD_put_ne]

theorem Tbl.get?_put {α : Type} (t : Tbl α) (i j : Nat) (x : α) : (t.put i x).get? j = if j = i then some x else t.get? j := by
  induction t with
  | nil => by_cases h : j = i <;> simp [Tbl.put, Tbl.get?, h, Ne.symm]
  | cons a t ih =>
    obtain ⟨k, v⟩ := a
    simp only [Tbl.put]
    split
    · by_cases h : j = i <;> simp [Tbl.get?, h, eq_comm (a := i)]
    · split
      · subst_vars; by_cases h : j = k <;> simp [Tbl.get?, h, eq_comm (a := k)]
      · by_cases h : j = i
        · subst h; simp_all [Tbl.get?]
        · simp [Tbl.get?, ih, h]

namespace Machine

/-! ### Parts and cores -/

@[simp] theorem State.part_setPart_same (s : State) (p : Nat) (q : Part) : (s.setPart p q).part p = q := by simp [State.part, State.setPart]
theorem State.part_setPart_ne (s : State) {p r : Nat} (q : Part) (h : r ≠ p) : (s.setPart p q).part r = s.part r := by
  simp [State.part, State.setPart, Tbl.getD_put_ne, h]
@[simp] theorem State.core_setCore_same (s : State) (c : Nat) (k : Core) : (s.setCore c k).core c = k := by simp [State.core, State.setCore]
theorem State.core_setCore_ne (s : State) {c d : Nat} (k : Core) (h : d ≠ c) : (s.setCore c k).core d = s.core d := by
  simp [State.core, State.setCore, Tbl.getD_put_ne, h]
@[simp] theorem State.part_modPart_same (s : State) (p : Nat) (f : Part → Part) : (s.modPart p f).part p = f (s.part p) := by simp [State.modPart]
@[simp] theorem State.core_modCore_same (s : State) (c : Nat) (f : Core → Core) : (s.modCore c f).core c = f (s.core c) := by simp [State.modCore]
@[simp] theorem State.core_setPart (s : State) (p c : Nat) (q : Part) : (s.setPart p q).core c = s.core c := rfl
@[simp] theorem State.part_setCore (s : State) (p c : Nat) (k : Core) : (s.setCore c k).part p = s.part p := rfl

/-! ### Memories -/

theorem memGet_filter_ne (m : List Host.Cell) {a x : Nat} (h : x ≠ a) : memGet (m.filter fun c => c.1 != a) x = memGet m x := by
  induction m with
  | nil => rfl
  | cons c t ih =>
    obtain ⟨k, v⟩ := c
    by_cases hk : k = a
    · subst hk; simp [memGet, Ne.symm h, ih]
    · simp [hk, memGet, ih]

theorem memGet_filter_same (m : List Host.Cell) (a : Nat) : memGet (m.filter fun c => c.1 != a) a = 0 := by
  induction m with
  | nil => rfl
  | cons c t ih =>
    obtain ⟨k, v⟩ := c
    by_cases hk : k = a
    · subst hk; simp [ih]
    · simp [hk, memGet, ih]

theorem memGet_memIns (m : List Host.Cell) (a x : Nat) (b : Byte) (h : ∀ c ∈ m, c.1 ≠ a) : memGet (memIns a b m) x = if x = a then b else memGet m x := by
  induction m with
  | nil => by_cases hx : x = a <;> simp [memIns, memGet, hx, Ne.symm]
  | cons c t ih =>
    obtain ⟨k, v⟩ := c
    have hk : k ≠ a := h _ (List.mem_cons_self ..)
    have ih := ih fun c hc => h c (List.mem_cons_of_mem _ hc)
    simp only [memIns]
    split
    · by_cases hx : x = a
      · subst hx; simp [memGet]
      · simp [memGet, hx, Ne.symm hx]
    · by_cases hx : k = x
      · subst hx; simp [memGet, hk]
      · simp [memGet, hx, ih]

/-- A byte that is written reads back, and every other address reads as before: of any list of cells. -/
theorem memGet_memSet (m : List Host.Cell) (a x : Nat) (b : Byte) : memGet (memSet m a b) x = if x = a then b else memGet m x := by
  have hne : ∀ c ∈ m.filter (fun c => c.1 != a), c.1 ≠ a := fun c hc => by simpa using (List.mem_filter.mp hc).2
  unfold memSet; dsimp only
  split
  · by_cases hx : x = a
    · subst hx; simp [memGet_filter_same, *]
    · simp [hx, memGet_filter_ne m hx]
  · rw [memGet_memIns _ _ _ _ hne]
    by_cases hx : x = a
    · simp [hx]
    · simp [hx, memGet_filter_ne m hx]

/-- A memory in canonical form lists rising addresses and no byte 0. -/
theorem memWf_cons {k : Nat} {v : Byte} {t : List Host.Cell} :
    memWf ((k, v) :: t) = true ↔ v ≠ 0 ∧ (∀ c ∈ t, k < c.1) ∧ memWf t = true := by
  induction t generalizing k v with
  | nil => simp [memWf]
  | cons d u ih =>
    obtain ⟨k', v'⟩ := d
    simp only [memWf, Bool.and_eq_true, decide_eq_true_eq, bne_iff_ne, ne_eq, List.mem_cons, forall_eq_or_imp]
    constructor
    · rintro ⟨⟨hv, hk⟩, hw⟩
      refine ⟨hv, ⟨hk, fun c hc => ?_⟩, hw⟩
      exact Nat.lt_trans hk ((ih.mp hw).2.1 c hc)
    · rintro ⟨hv, ⟨hk, _⟩, hw⟩
      exact ⟨⟨hv, hk⟩, hw⟩

/-- Keeping some cells keeps the canonical form. -/
theorem memWf_filter (m : List Host.Cell) (f : Host.Cell → Bool) (h : memWf m = true) : memWf (m.filter f) = true := by
  induction m with
  | nil => rfl
  | cons d t ih =>
    obtain ⟨k, v⟩ := d
    obtain ⟨hv, hk, ht⟩ := memWf_cons.mp h
    simp only [List.filter_cons]
    split
    · exact memWf_cons.mpr ⟨hv, fun c hc => hk c (List.mem_filter.mp hc).1, ih ht⟩
    · exact ih ht

theorem mem_memIns {m : List Host.Cell} {a : Nat} {b : Byte} {c : Host.Cell} (h : c ∈ memIns a b m) : c = (a, b) ∨ c ∈ m := by
  induction m with
  | nil => simpa [memIns] using h
  | cons d t ih =>
    simp only [memIns] at h
    split at h
    · simpa using h
    · rcases List.mem_cons.mp h with rfl | h
      · exact .inr (List.mem_cons_self ..)
      · exact (ih h).imp_right (List.mem_cons_of_mem _)

theorem memIns_wf (m : List Host.Cell) (a : Nat) (b : Byte) (hb : b ≠ 0) (h : memWf m = true) (hn : ∀ c ∈ m, c.1 ≠ a) : memWf (memIns a b m) = true := by
  induction m with
  | nil => simp only [memIns, memWf]; simpa using hb
  | cons d t ih =>
    obtain ⟨k, v⟩ := d
    obtain ⟨hv, hk, ht⟩ := memWf_cons.mp h
    simp only [memIns]
    split
    · rename_i hak
      refine memWf_cons.mpr ⟨hb, fun c hc => ?_, h⟩
      rcases List.mem_cons.mp hc with rfl | hc
      · exact hak
      · exact Nat.lt_trans hak (hk c hc)
    · refine memWf_cons.mpr ⟨hv, fun c hc => ?_, ih ht fun c hc => hn c (List.mem_cons_of_mem _ hc)⟩
      have hka : k ≠ a := hn (k, v) (List.mem_cons_self ..)
      rename_i hak
      rcases mem_memIns hc with rfl | hc
      · exact Nat.lt_of_le_of_ne (Nat.le_of_not_lt hak) hka
      · exact hk c hc

/-- Writing a byte keeps the canonical form. -/
theorem memSet_wf (m : List Host.Cell) (a : Nat) (b : Byte) (h : memWf m = true) : memWf (memSet m a b) = true := by
  unfold memSet; dsimp only
  split
  · exact memWf_filter m _ h
  · exact memIns_wf _ _ _ ‹_› (memWf_filter m _ h) fun c hc => by simpa using (List.mem_filter.mp hc).2

/-- Writing a run of bytes keeps the canonical form. -/
theorem memWrite_wf (m : List Host.Cell) (a : Nat) (d : Bytes) (h : memWf m = true) : memWf (memWrite m a d) = true := by
  induction d generalizing m a with
  | nil => exact h
  | cons b bs ih => exact ih _ _ (memSet_wf m a b h)

/-- Clearing a run keeps the canonical form. -/
theorem memClear_wf (m : List Host.Cell) (a n : Nat) (h : memWf m = true) : memWf (memClear m a n) = true := memWf_filter m _ h

/-- Copying cells keeps the canonical form. -/
theorem memCopy_wf (m : List Host.Cell) (a : Nat) (c : List Host.Cell) (h : memWf m = true) : memWf (memCopy m a c) = true := by
  unfold memCopy
  induction c generalizing m with
  | nil => exact h
  | cons x xs ih => exact ih _ (memSet_wf m _ _ h)

/-- A run that is written leaves every address outside it as it was. -/
theorem memGet_memWrite_out (m : List Host.Cell) (a : Nat) (d : Bytes) (x : Nat) (hx : x < a ∨ a + d.length ≤ x) :
    memGet (memWrite m a d) x = memGet m x := by
  induction d generalizing m a with
  | nil => rfl
  | cons b bs ih =>
    simp only [List.length_cons] at hx
    rw [memWrite, ih _ _ (by omega), memGet_memSet m, if_neg (by omega)]

/-- A run that is written reads back. -/
theorem memGet_memWrite_in (m : List Host.Cell) (a : Nat) (d : Bytes) (i : Nat) (hi : i < d.length) :
    memGet (memWrite m a d) (a + i) = d.getD i 0 := by
  induction d generalizing m a i with
  | nil => simp at hi
  | cons b bs ih =>
    rw [memWrite]
    cases i with
    | zero =>
      rw [memGet_memWrite_out _ _ _ _ (by omega), memGet_memSet m]; simp
    | succ j =>
      have := ih (memSet m a b) (a + 1) j (by simpa using hi)
      simpa [Nat.add_assoc, Nat.add_comm 1 j] using this

/-- A run that is written reads back whole. -/
theorem memRead_memWrite (m : List Host.Cell) (a : Nat) (d : Bytes) : memRead (memWrite m a d) a d.length = d := by
  apply List.ext_getElem
  · simp [memRead]
  · intro i h1 h2
    simp [memRead, memGet_memWrite_in m a d i h2, h2]

@[simp] theorem memRead_length (m : List Host.Cell) (a n : Nat) : (memRead m a n).length = n := by simp [memRead]

end Machine
end Sys2Proof
end

