-- ==== Sys2Proof/Laws/State.lean ====
section
/-! SUPPORT. For every named update of State and every field that it leaves as it was, the lemma that says so. -/

namespace Sys2Proof.Machine
variable (s : State)

@[simp] theorem State.setPart_pending (p : Nat) (q : Part) : (s.setPart p q).pending = s.pending := rfl
@[simp] theorem State.setPart_free (p : Nat) (q : Part) : (s.setPart p q).free = s.free := rfl
@[simp] theorem State.setPart_out (p : Nat) (q : Part) : (s.setPart p q).out = s.out := rfl
@[simp] theorem State.setPart_cc (p : Nat) (q : Part) : (s.setPart p q).cc = s.cc := rfl
@[simp] theorem State.setPart_opTicks (p : Nat) (q : Part) : (s.setPart p q).opTicks = s.opTicks := rfl
@[simp] theorem State.setPart_board (p : Nat) (q : Part) : (s.setPart p q).board = s.board := rfl
@[simp] theorem State.setPart_cores (p : Nat) (q : Part) : (s.setPart p q).cores = s.cores := rfl
@[simp] theorem State.setPart_stook (p : Nat) (q : Part) : (s.setPart p q).stook = s.stook := rfl
@[simp] theorem State.setPart_hbm (p : Nat) (q : Part) : (s.setPart p q).hbm = s.hbm := rfl
@[simp] theorem State.setPart_dies (p : Nat) (q : Part) : (s.setPart p q).dies = s.dies := rfl
@[simp] theorem State.setPart_time (p : Nat) (q : Part) : (s.setPart p q).time = s.time := rfl
@[simp] theorem State.setPart_ltes (p : Nat) (q : Part) : (s.setPart p q).ltes = s.ltes := rfl
@[simp] theorem State.setPart_field (p : Nat) (q : Part) : (s.setPart p q).field = s.field := rfl
@[simp] theorem State.setPart_meas (p : Nat) (q : Part) : (s.setPart p q).meas = s.meas := rfl
@[simp] theorem State.setPart_units (p : Nat) (q : Part) : (s.setPart p q).units = s.units := rfl
@[simp] theorem State.setPart_ctl (p : Nat) (q : Part) : (s.setPart p q).ctl = s.ctl := rfl
@[simp] theorem State.setPart_host (p : Nat) (q : Part) : (s.setPart p q).host = s.host := rfl
@[simp] theorem State.setPart_otp (p : Nat) (q : Part) : (s.setPart p q).otp = s.otp := rfl
@[simp] theorem State.setPart_sec (p : Nat) (q : Part) : (s.setPart p q).sec = s.sec := rfl
@[simp] theorem State.setPart_gran (p : Nat) (q : Part) : (s.setPart p q).gran = s.gran := rfl
@[simp] theorem State.setPart_twin (p : Nat) (q : Part) : (s.setPart p q).twin = s.twin := rfl
@[simp] theorem State.setPart_parts (p : Nat) (q : Part) : (s.setPart p q).parts = s.parts.put p q := rfl

@[simp] theorem State.setCore_pending (c : Nat) (k : Core) : (s.setCore c k).pending = s.pending := rfl
@[simp] theorem State.setCore_free (c : Nat) (k : Core) : (s.setCore c k).free = s.free := rfl
@[simp] theorem State.setCore_out (c : Nat) (k : Core) : (s.setCore c k).out = s.out := rfl
@[simp] theorem State.setCore_cc (c : Nat) (k : Core) : (s.setCore c k).cc = s.cc := rfl
@[simp] theorem State.setCore_opTicks (c : Nat) (k : Core) : (s.setCore c k).opTicks = s.opTicks := rfl
@[simp] theorem State.setCore_board (c : Nat) (k : Core) : (s.setCore c k).board = s.board := rfl
@[simp] theorem State.setCore_parts (c : Nat) (k : Core) : (s.setCore c k).parts = s.parts := rfl
@[simp] theorem State.setCore_stook (c : Nat) (k : Core) : (s.setCore c k).stook = s.stook := rfl
@[simp] theorem State.setCore_hbm (c : Nat) (k : Core) : (s.setCore c k).hbm = s.hbm := rfl
@[simp] theorem State.setCore_dies (c : Nat) (k : Core) : (s.setCore c k).dies = s.dies := rfl
@[simp] theorem State.setCore_time (c : Nat) (k : Core) : (s.setCore c k).time = s.time := rfl
@[simp] theorem State.setCore_ltes (c : Nat) (k : Core) : (s.setCore c k).ltes = s.ltes := rfl
@[simp] theorem State.setCore_field (c : Nat) (k : Core) : (s.setCore c k).field = s.field := rfl
@[simp] theorem State.setCore_meas (c : Nat) (k : Core) : (s.setCore c k).meas = s.meas := rfl
@[simp] theorem State.setCore_units (c : Nat) (k : Core) : (s.setCore c k).units = s.units := rfl
@[simp] theorem State.setCore_ctl (c : Nat) (k : Core) : (s.setCore c k).ctl = s.ctl := rfl
@[simp] theorem State.setCore_host (c : Nat) (k : Core) : (s.setCore c k).host = s.host := rfl
@[simp] theorem State.setCore_otp (c : Nat) (k : Core) : (s.setCore c k).otp = s.otp := rfl
@[simp] theorem State.setCore_sec (c : Nat) (k : Core) : (s.setCore c k).sec = s.sec := rfl
@[simp] theorem State.setCore_gran (c : Nat) (k : Core) : (s.setCore c k).gran = s.gran := rfl
@[simp] theorem State.setCore_twin (c : Nat) (k : Core) : (s.setCore c k).twin = s.twin := rfl
@[simp] theorem State.setCore_cores (c : Nat) (k : Core) : (s.setCore c k).cores = s.cores.put c k := rfl

@[simp] theorem State.modPart_pending (p : Nat) (f : Part → Part) : (s.modPart p f).pending = s.pending := rfl
@[simp] theorem State.modPart_free (p : Nat) (f : Part → Part) : (s.modPart p f).free = s.free := rfl
@[simp] theorem State.modPart_out (p : Nat) (f : Part → Part) : (s.modPart p f).out = s.out := rfl
@[simp] theorem State.modPart_cc (p : Nat) (f : Part → Part) : (s.modPart p f).cc = s.cc := rfl
@[simp] theorem State.modPart_opTicks (p : Nat) (f : Part → Part) : (s.modPart p f).opTicks = s.opTicks := rfl
@[simp] theorem State.modPart_board (p : Nat) (f : Part → Part) : (s.modPart p f).board = s.board := rfl
@[simp] theorem State.modPart_cores (p : Nat) (f : Part → Part) : (s.modPart p f).cores = s.cores := rfl
@[simp] theorem State.modPart_stook (p : Nat) (f : Part → Part) : (s.modPart p f).stook = s.stook := rfl
@[simp] theorem State.modPart_hbm (p : Nat) (f : Part → Part) : (s.modPart p f).hbm = s.hbm := rfl
@[simp] theorem State.modPart_dies (p : Nat) (f : Part → Part) : (s.modPart p f).dies = s.dies := rfl
@[simp] theorem State.modPart_time (p : Nat) (f : Part → Part) : (s.modPart p f).time = s.time := rfl
@[simp] theorem State.modPart_ltes (p : Nat) (f : Part → Part) : (s.modPart p f).ltes = s.ltes := rfl
@[simp] theorem State.modPart_field (p : Nat) (f : Part → Part) : (s.modPart p f).field = s.field := rfl
@[simp] theorem State.modPart_meas (p : Nat) (f : Part → Part) : (s.modPart p f).meas = s.meas := rfl
@[simp] theorem State.modPart_units (p : Nat) (f : Part → Part) : (s.modPart p f).units = s.units := rfl
@[simp] theorem State.modPart_ctl (p : Nat) (f : Part → Part) : (s.modPart p f).ctl = s.ctl := rfl
@[simp] theorem State.modPart_host (p : Nat) (f : Part → Part) : (s.modPart p f).host = s.host := rfl
@[simp] theorem State.modPart_otp (p : Nat) (f : Part → Part) : (s.modPart p f).otp = s.otp := rfl
@[simp] theorem State.modPart_sec (p : Nat) (f : Part → Part) : (s.modPart p f).sec = s.sec := rfl
@[simp] theorem State.modPart_gran (p : Nat) (f : Part → Part) : (s.modPart p f).gran = s.gran := rfl
@[simp] theorem State.modPart_twin (p : Nat) (f : Part → Part) : (s.modPart p f).twin = s.twin := rfl
@[simp] theorem State.modPart_parts (p : Nat) (f : Part → Part) : (s.modPart p f).parts = s.parts.put p (f (s.part p)) := rfl

@[simp] theorem State.modCore_pending (c : Nat) (f : Core → Core) : (s.modCore c f).pending = s.pending := rfl
@[simp] theorem State.modCore_free (c : Nat) (f : Core → Core) : (s.modCore c f).free = s.free := rfl
@[simp] theorem State.modCore_out (c : Nat) (f : Core → Core) : (s.modCore c f).out = s.out := rfl
@[simp] theorem State.modCore_cc (c : Nat) (f : Core → Core) : (s.modCore c f).cc = s.cc := rfl
@[simp] theorem State.modCore_opTicks (c : Nat) (f : Core → Core) : (s.modCore c f).opTicks = s.opTicks := rfl
@[simp] theorem State.modCore_board (c : Nat) (f : Core → Core) : (s.modCore c f).board = s.board := rfl
@[simp] theorem State.modCore_parts (c : Nat) (f : Core → Core) : (s.modCore c f).parts = s.parts := rfl
@[simp] theorem State.modCore_stook (c : Nat) (f : Core → Core) : (s.modCore c f).stook = s.stook := rfl
@[simp] theorem State.modCore_hbm (c : Nat) (f : Core → Core) : (s.modCore c f).hbm = s.hbm := rfl
@[simp] theorem State.modCore_dies (c : Nat) (f : Core → Core) : (s.modCore c f).dies = s.dies := rfl
@[simp] theorem State.modCore_time (c : Nat) (f : Core → Core) : (s.modCore c f).time = s.time := rfl
@[simp] theorem State.modCore_ltes (c : Nat) (f : Core → Core) : (s.modCore c f).ltes = s.ltes := rfl
@[simp] theorem State.modCore_field (c : Nat) (f : Core → Core) : (s.modCore c f).field = s.field := rfl
@[simp] theorem State.modCore_meas (c : Nat) (f : Core → Core) : (s.modCore c f).meas = s.meas := rfl
@[simp] theorem State.modCore_units (c : Nat) (f : Core → Core) : (s.modCore c f).units = s.units := rfl
@[simp] theorem State.modCore_ctl (c : Nat) (f : Core → Core) : (s.modCore c f).ctl = s.ctl := rfl
@[simp] theorem State.modCore_host (c : Nat) (f : Core → Core) : (s.modCore c f).host = s.host := rfl
@[simp] theorem State.modCore_otp (c : Nat) (f : Core → Core) : (s.modCore c f).otp = s.otp := rfl
@[simp] theorem State.modCore_sec (c : Nat) (f : Core → Core) : (s.modCore c f).sec = s.sec := rfl
@[simp] theorem State.modCore_gran (c : Nat) (f : Core → Core) : (s.modCore c f).gran = s.gran := rfl
@[simp] theorem State.modCore_twin (c : Nat) (f : Core → Core) : (s.modCore c f).twin = s.twin := rfl
@[simp] theorem State.modCore_cores (c : Nat) (f : Core → Core) : (s.modCore c f).cores = s.cores.put c (f (s.core c)) := rfl

@[simp] theorem State.modRun_pending (p : Nat) (f : PRun → PRun) : (s.modRun p f).pending = s.pending := rfl
@[simp] theorem State.modRun_free (p : Nat) (f : PRun → PRun) : (s.modRun p f).free = s.free := rfl
@[simp] theorem State.modRun_out (p : Nat) (f : PRun → PRun) : (s.modRun p f).out = s.out := rfl
@[simp] theorem State.modRun_cc (p : Nat) (f : PRun → PRun) : (s.modRun p f).cc = s.cc := rfl
@[simp] theorem State.modRun_opTicks (p : Nat) (f : PRun → PRun) : (s.modRun p f).opTicks = s.opTicks := rfl
@[simp] theorem State.modRun_board (p : Nat) (f : PRun → PRun) : (s.modRun p f).board = s.board := rfl
@[simp] theorem State.modRun_cores (p : Nat) (f : PRun → PRun) : (s.modRun p f).cores = s.cores := rfl
@[simp] theorem State.modRun_stook (p : Nat) (f : PRun → PRun) : (s.modRun p f).stook = s.stook := rfl
@[simp] theorem State.modRun_hbm (p : Nat) (f : PRun → PRun) : (s.modRun p f).hbm = s.hbm := rfl
@[simp] theorem State.modRun_dies (p : Nat) (f : PRun → PRun) : (s.modRun p f).dies = s.dies := rfl
@[simp] theorem State.modRun_time (p : Nat) (f : PRun → PRun) : (s.modRun p f).time = s.time := rfl
@[simp] theorem State.modRun_ltes (p : Nat) (f : PRun → PRun) : (s.modRun p f).ltes = s.ltes := rfl
@[simp] theorem State.modRun_field (p : Nat) (f : PRun → PRun) : (s.modRun p f).field = s.field := rfl
@[simp] theorem State.modRun_meas (p : Nat) (f : PRun → PRun) : (s.modRun p f).meas = s.meas := rfl
@[simp] theorem State.modRun_units (p : Nat) (f : PRun → PRun) : (s.modRun p f).units = s.units := rfl
@[simp] theorem State.modRun_ctl (p : Nat) (f : PRun → PRun) : (s.modRun p f).ctl = s.ctl := rfl
@[simp] theorem State.modRun_host (p : Nat) (f : PRun → PRun) : (s.modRun p f).host = s.host := rfl
@[simp] theorem State.modRun_otp (p : Nat) (f : PRun → PRun) : (s.modRun p f).otp = s.otp := rfl
@[simp] theorem State.modRun_sec (p : Nat) (f : PRun → PRun) : (s.modRun p f).sec = s.sec := rfl
@[simp] theorem State.modRun_gran (p : Nat) (f : PRun → PRun) : (s.modRun p f).gran = s.gran := rfl
@[simp] theorem State.modRun_twin (p : Nat) (f : PRun → PRun) : (s.modRun p f).twin = s.twin := rfl

@[simp] theorem State.modCtl_pending (p : Nat) (f : PCtl → PCtl) : (s.modCtl p f).pending = s.pending := rfl
@[simp] theorem State.modCtl_free (p : Nat) (f : PCtl → PCtl) : (s.modCtl p f).free = s.free := rfl
@[simp] theorem State.modCtl_out (p : Nat) (f : PCtl → PCtl) : (s.modCtl p f).out = s.out := rfl
@[simp] theorem State.modCtl_cc (p : Nat) (f : PCtl → PCtl) : (s.modCtl p f).cc = s.cc := rfl
@[simp] theorem State.modCtl_opTicks (p : Nat) (f : PCtl → PCtl) : (s.modCtl p f).opTicks = s.opTicks := rfl
@[simp] theorem State.modCtl_board (p : Nat) (f : PCtl → PCtl) : (s.modCtl p f).board = s.board := rfl
@[simp] theorem State.modCtl_cores (p : Nat) (f : PCtl → PCtl) : (s.modCtl p f).cores = s.cores := rfl
@[simp] theorem State.modCtl_stook (p : Nat) (f : PCtl → PCtl) : (s.modCtl p f).stook = s.stook := rfl
@[simp] theorem State.modCtl_hbm (p : Nat) (f : PCtl → PCtl) : (s.modCtl p f).hbm = s.hbm := rfl
@[simp] theorem State.modCtl_dies (p : Nat) (f : PCtl → PCtl) : (s.modCtl p f).dies = s.dies := rfl
@[simp] theorem State.modCtl_time (p : Nat) (f : PCtl → PCtl) : (s.modCtl p f).time = s.time := rfl
@[simp] theorem State.modCtl_ltes (p : Nat) (f : PCtl → PCtl) : (s.modCtl p f).ltes = s.ltes := rfl
@[simp] theorem State.modCtl_field (p : Nat) (f : PCtl → PCtl) : (s.modCtl p f).field = s.field := rfl
@[simp] theorem State.modCtl_meas (p : Nat) (f : PCtl → PCtl) : (s.modCtl p f).meas = s.meas := rfl
@[simp] theorem State.modCtl_units (p : Nat) (f : PCtl → PCtl) : (s.modCtl p f).units = s.units := rfl
@[simp] theorem State.modCtl_ctl (p : Nat) (f : PCtl → PCtl) : (s.modCtl p f).ctl = s.ctl := rfl
@[simp] theorem State.modCtl_host (p : Nat) (f : PCtl → PCtl) : (s.modCtl p f).host = s.host := rfl
@[simp] theorem State.modCtl_otp (p : Nat) (f : PCtl → PCtl) : (s.modCtl p f).otp = s.otp := rfl
@[simp] theorem State.modCtl_sec (p : Nat) (f : PCtl → PCtl) : (s.modCtl p f).sec = s.sec := rfl
@[simp] theorem State.modCtl_gran (p : Nat) (f : PCtl → PCtl) : (s.modCtl p f).gran = s.gran := rfl
@[simp] theorem State.modCtl_twin (p : Nat) (f : PCtl → PCtl) : (s.modCtl p f).twin = s.twin := rfl

@[simp] theorem State.modCnt_pending (p : Nat) (f : PCnt → PCnt) : (s.modCnt p f).pending = s.pending := rfl
@[simp] theorem State.modCnt_free (p : Nat) (f : PCnt → PCnt) : (s.modCnt p f).free = s.free := rfl
@[simp] theorem State.modCnt_out (p : Nat) (f : PCnt → PCnt) : (s.modCnt p f).out = s.out := rfl
@[simp] theorem State.modCnt_cc (p : Nat) (f : PCnt → PCnt) : (s.modCnt p f).cc = s.cc := rfl
@[simp] theorem State.modCnt_opTicks (p : Nat) (f : PCnt → PCnt) : (s.modCnt p f).opTicks = s.opTicks := rfl
@[simp] theorem State.modCnt_board (p : Nat) (f : PCnt → PCnt) : (s.modCnt p f).board = s.board := rfl
@[simp] theorem State.modCnt_cores (p : Nat) (f : PCnt → PCnt) : (s.modCnt p f).cores = s.cores := rfl
@[simp] theorem State.modCnt_stook (p : Nat) (f : PCnt → PCnt) : (s.modCnt p f).stook = s.stook := rfl
@[simp] theorem State.modCnt_hbm (p : Nat) (f : PCnt → PCnt) : (s.modCnt p f).hbm = s.hbm := rfl
@[simp] theorem State.modCnt_dies (p : Nat) (f : PCnt → PCnt) : (s.modCnt p f).dies = s.dies := rfl
@[simp] theorem State.modCnt_time (p : Nat) (f : PCnt → PCnt) : (s.modCnt p f).time = s.time := rfl
@[simp] theorem State.modCnt_ltes (p : Nat) (f : PCnt → PCnt) : (s.modCnt p f).ltes = s.ltes := rfl
@[simp] theorem State.modCnt_field (p : Nat) (f : PCnt → PCnt) : (s.modCnt p f).field = s.field := rfl
@[simp] theorem State.modCnt_meas (p : Nat) (f : PCnt → PCnt) : (s.modCnt p f).meas = s.meas := rfl
@[simp] theorem State.modCnt_units (p : Nat) (f : PCnt → PCnt) : (s.modCnt p f).units = s.units := rfl
@[simp] theorem State.modCnt_ctl (p : Nat) (f : PCnt → PCnt) : (s.modCnt p f).ctl = s.ctl := rfl
@[simp] theorem State.modCnt_host (p : Nat) (f : PCnt → PCnt) : (s.modCnt p f).host = s.host := rfl
@[simp] theorem State.modCnt_otp (p : Nat) (f : PCnt → PCnt) : (s.modCnt p f).otp = s.otp := rfl
@[simp] theorem State.modCnt_sec (p : Nat) (f : PCnt → PCnt) : (s.modCnt p f).sec = s.sec := rfl
@[simp] theorem State.modCnt_gran (p : Nat) (f : PCnt → PCnt) : (s.modCnt p f).gran = s.gran := rfl
@[simp] theorem State.modCnt_twin (p : Nat) (f : PCnt → PCnt) : (s.modCnt p f).twin = s.twin := rfl

@[simp] theorem State.modPTwin_pending (p : Nat) (f : PTwin → PTwin) : (s.modPTwin p f).pending = s.pending := rfl
@[simp] theorem State.modPTwin_free (p : Nat) (f : PTwin → PTwin) : (s.modPTwin p f).free = s.free := rfl
@[simp] theorem State.modPTwin_out (p : Nat) (f : PTwin → PTwin) : (s.modPTwin p f).out = s.out := rfl
@[simp] theorem State.modPTwin_cc (p : Nat) (f : PTwin → PTwin) : (s.modPTwin p f).cc = s.cc := rfl
@[simp] theorem State.modPTwin_opTicks (p : Nat) (f : PTwin → PTwin) : (s.modPTwin p f).opTicks = s.opTicks := rfl
@[simp] theorem State.modPTwin_board (p : Nat) (f : PTwin → PTwin) : (s.modPTwin p f).board = s.board := rfl
@[simp] theorem State.modPTwin_cores (p : Nat) (f : PTwin → PTwin) : (s.modPTwin p f).cores = s.cores := rfl
@[simp] theorem State.modPTwin_stook (p : Nat) (f : PTwin → PTwin) : (s.modPTwin p f).stook = s.stook := rfl
@[simp] theorem State.modPTwin_hbm (p : Nat) (f : PTwin → PTwin) : (s.modPTwin p f).hbm = s.hbm := rfl
@[simp] theorem State.modPTwin_dies (p : Nat) (f : PTwin → PTwin) : (s.modPTwin p f).dies = s.dies := rfl
@[simp] theorem State.modPTwin_time (p : Nat) (f : PTwin → PTwin) : (s.modPTwin p f).time = s.time := rfl
@[simp] theorem State.modPTwin_ltes (p : Nat) (f : PTwin → PTwin) : (s.modPTwin p f).ltes = s.ltes := rfl
@[simp] theorem State.modPTwin_field (p : Nat) (f : PTwin → PTwin) : (s.modPTwin p f).field = s.field := rfl
@[simp] theorem State.modPTwin_meas (p : Nat) (f : PTwin → PTwin) : (s.modPTwin p f).meas = s.meas := rfl
@[simp] theorem State.modPTwin_units (p : Nat) (f : PTwin → PTwin) : (s.modPTwin p f).units = s.units := rfl
@[simp] theorem State.modPTwin_ctl (p : Nat) (f : PTwin → PTwin) : (s.modPTwin p f).ctl = s.ctl := rfl
@[simp] theorem State.modPTwin_host (p : Nat) (f : PTwin → PTwin) : (s.modPTwin p f).host = s.host := rfl
@[simp] theorem State.modPTwin_otp (p : Nat) (f : PTwin → PTwin) : (s.modPTwin p f).otp = s.otp := rfl
@[simp] theorem State.modPTwin_sec (p : Nat) (f : PTwin → PTwin) : (s.modPTwin p f).sec = s.sec := rfl
@[simp] theorem State.modPTwin_gran (p : Nat) (f : PTwin → PTwin) : (s.modPTwin p f).gran = s.gran := rfl
@[simp] theorem State.modPTwin_twin (p : Nat) (f : PTwin → PTwin) : (s.modPTwin p f).twin = s.twin := rfl

@[simp] theorem State.modCk_pending (p : Nat) (f : PCkpt → PCkpt) : (s.modCk p f).pending = s.pending := rfl
@[simp] theorem State.modCk_free (p : Nat) (f : PCkpt → PCkpt) : (s.modCk p f).free = s.free := rfl
@[simp] theorem State.modCk_out (p : Nat) (f : PCkpt → PCkpt) : (s.modCk p f).out = s.out := rfl
@[simp] theorem State.modCk_cc (p : Nat) (f : PCkpt → PCkpt) : (s.modCk p f).cc = s.cc := rfl
@[simp] theorem State.modCk_opTicks (p : Nat) (f : PCkpt → PCkpt) : (s.modCk p f).opTicks = s.opTicks := rfl
@[simp] theorem State.modCk_board (p : Nat) (f : PCkpt → PCkpt) : (s.modCk p f).board = s.board := rfl
@[simp] theorem State.modCk_cores (p : Nat) (f : PCkpt → PCkpt) : (s.modCk p f).cores = s.cores := rfl
@[simp] theorem State.modCk_stook (p : Nat) (f : PCkpt → PCkpt) : (s.modCk p f).stook = s.stook := rfl
@[simp] theorem State.modCk_hbm (p : Nat) (f : PCkpt → PCkpt) : (s.modCk p f).hbm = s.hbm := rfl
@[simp] theorem State.modCk_dies (p : Nat) (f : PCkpt → PCkpt) : (s.modCk p f).dies = s.dies := rfl
@[simp] theorem State.modCk_time (p : Nat) (f : PCkpt → PCkpt) : (s.modCk p f).time = s.time := rfl
@[simp] theorem State.modCk_ltes (p : Nat) (f : PCkpt → PCkpt) : (s.modCk p f).ltes = s.ltes := rfl
@[simp] theorem State.modCk_field (p : Nat) (f : PCkpt → PCkpt) : (s.modCk p f).field = s.field := rfl
@[simp] theorem State.modCk_meas (p : Nat) (f : PCkpt → PCkpt) : (s.modCk p f).meas = s.meas := rfl
@[simp] theorem State.modCk_units (p : Nat) (f : PCkpt → PCkpt) : (s.modCk p f).units = s.units := rfl
@[simp] theorem State.modCk_ctl (p : Nat) (f : PCkpt → PCkpt) : (s.modCk p f).ctl = s.ctl := rfl
@[simp] theorem State.modCk_host (p : Nat) (f : PCkpt → PCkpt) : (s.modCk p f).host = s.host := rfl
@[simp] theorem State.modCk_otp (p : Nat) (f : PCkpt → PCkpt) : (s.modCk p f).otp = s.otp := rfl
@[simp] theorem State.modCk_sec (p : Nat) (f : PCkpt → PCkpt) : (s.modCk p f).sec = s.sec := rfl
@[simp] theorem State.modCk_gran (p : Nat) (f : PCkpt → PCkpt) : (s.modCk p f).gran = s.gran := rfl
@[simp] theorem State.modCk_twin (p : Nat) (f : PCkpt → PCkpt) : (s.modCk p f).twin = s.twin := rfl

@[simp] theorem State.modPwr_pending (p : Nat) (f : PPwr → PPwr) : (s.modPwr p f).pending = s.pending := rfl
@[simp] theorem State.modPwr_free (p : Nat) (f : PPwr → PPwr) : (s.modPwr p f).free = s.free := rfl
@[simp] theorem State.modPwr_out (p : Nat) (f : PPwr → PPwr) : (s.modPwr p f).out = s.out := rfl
@[simp] theorem State.modPwr_cc (p : Nat) (f : PPwr → PPwr) : (s.modPwr p f).cc = s.cc := rfl
@[simp] theorem State.modPwr_opTicks (p : Nat) (f : PPwr → PPwr) : (s.modPwr p f).opTicks = s.opTicks := rfl
@[simp] theorem State.modPwr_board (p : Nat) (f : PPwr → PPwr) : (s.modPwr p f).board = s.board := rfl
@[simp] theorem State.modPwr_cores (p : Nat) (f : PPwr → PPwr) : (s.modPwr p f).cores = s.cores := rfl
@[simp] theorem State.modPwr_stook (p : Nat) (f : PPwr → PPwr) : (s.modPwr p f).stook = s.stook := rfl
@[simp] theorem State.modPwr_hbm (p : Nat) (f : PPwr → PPwr) : (s.modPwr p f).hbm = s.hbm := rfl
@[simp] theorem State.modPwr_dies (p : Nat) (f : PPwr → PPwr) : (s.modPwr p f).dies = s.dies := rfl
@[simp] theorem State.modPwr_time (p : Nat) (f : PPwr → PPwr) : (s.modPwr p f).time = s.time := rfl
@[simp] theorem State.modPwr_ltes (p : Nat) (f : PPwr → PPwr) : (s.modPwr p f).ltes = s.ltes := rfl
@[simp] theorem State.modPwr_field (p : Nat) (f : PPwr → PPwr) : (s.modPwr p f).field = s.field := rfl
@[simp] theorem State.modPwr_meas (p : Nat) (f : PPwr → PPwr) : (s.modPwr p f).meas = s.meas := rfl
@[simp] theorem State.modPwr_units (p : Nat) (f : PPwr → PPwr) : (s.modPwr p f).units = s.units := rfl
@[simp] theorem State.modPwr_ctl (p : Nat) (f : PPwr → PPwr) : (s.modPwr p f).ctl = s.ctl := rfl
@[simp] theorem State.modPwr_host (p : Nat) (f : PPwr → PPwr) : (s.modPwr p f).host = s.host := rfl
@[simp] theorem State.modPwr_otp (p : Nat) (f : PPwr → PPwr) : (s.modPwr p f).otp = s.otp := rfl
@[simp] theorem State.modPwr_sec (p : Nat) (f : PPwr → PPwr) : (s.modPwr p f).sec = s.sec := rfl
@[simp] theorem State.modPwr_gran (p : Nat) (f : PPwr → PPwr) : (s.modPwr p f).gran = s.gran := rfl
@[simp] theorem State.modPwr_twin (p : Nat) (f : PPwr → PPwr) : (s.modPwr p f).twin = s.twin := rfl

@[simp] theorem State.modImg_pending (p : Nat) (f : PImg → PImg) : (s.modImg p f).pending = s.pending := rfl
@[simp] theorem State.modImg_free (p : Nat) (f : PImg → PImg) : (s.modImg p f).free = s.free := rfl
@[simp] theorem State.modImg_out (p : Nat) (f : PImg → PImg) : (s.modImg p f).out = s.out := rfl
@[simp] theorem State.modImg_cc (p : Nat) (f : PImg → PImg) : (s.modImg p f).cc = s.cc := rfl
@[simp] theorem State.modImg_opTicks (p : Nat) (f : PImg → PImg) : (s.modImg p f).opTicks = s.opTicks := rfl
@[simp] theorem State.modImg_board (p : Nat) (f : PImg → PImg) : (s.modImg p f).board = s.board := rfl
@[simp] theorem State.modImg_cores (p : Nat) (f : PImg → PImg) : (s.modImg p f).cores = s.cores := rfl
@[simp] theorem State.modImg_stook (p : Nat) (f : PImg → PImg) : (s.modImg p f).stook = s.stook := rfl
@[simp] theorem State.modImg_hbm (p : Nat) (f : PImg → PImg) : (s.modImg p f).hbm = s.hbm := rfl
@[simp] theorem State.modImg_dies (p : Nat) (f : PImg → PImg) : (s.modImg p f).dies = s.dies := rfl
@[simp] theorem State.modImg_time (p : Nat) (f : PImg → PImg) : (s.modImg p f).time = s.time := rfl
@[simp] theorem State.modImg_ltes (p : Nat) (f : PImg → PImg) : (s.modImg p f).ltes = s.ltes := rfl
@[simp] theorem State.modImg_field (p : Nat) (f : PImg → PImg) : (s.modImg p f).field = s.field := rfl
@[simp] theorem State.modImg_meas (p : Nat) (f : PImg → PImg) : (s.modImg p f).meas = s.meas := rfl
@[simp] theorem State.modImg_units (p : Nat) (f : PImg → PImg) : (s.modImg p f).units = s.units := rfl
@[simp] theorem State.modImg_ctl (p : Nat) (f : PImg → PImg) : (s.modImg p f).ctl = s.ctl := rfl
@[simp] theorem State.modImg_host (p : Nat) (f : PImg → PImg) : (s.modImg p f).host = s.host := rfl
@[simp] theorem State.modImg_otp (p : Nat) (f : PImg → PImg) : (s.modImg p f).otp = s.otp := rfl
@[simp] theorem State.modImg_sec (p : Nat) (f : PImg → PImg) : (s.modImg p f).sec = s.sec := rfl
@[simp] theorem State.modImg_gran (p : Nat) (f : PImg → PImg) : (s.modImg p f).gran = s.gran := rfl
@[simp] theorem State.modImg_twin (p : Nat) (f : PImg → PImg) : (s.modImg p f).twin = s.twin := rfl

@[simp] theorem State.modSeq_pending (c : Nat) (f : CoreSeq → CoreSeq) : (s.modSeq c f).pending = s.pending := rfl
@[simp] theorem State.modSeq_free (c : Nat) (f : CoreSeq → CoreSeq) : (s.modSeq c f).free = s.free := rfl
@[simp] theorem State.modSeq_out (c : Nat) (f : CoreSeq → CoreSeq) : (s.modSeq c f).out = s.out := rfl
@[simp] theorem State.modSeq_cc (c : Nat) (f : CoreSeq → CoreSeq) : (s.modSeq c f).cc = s.cc := rfl
@[simp] theorem State.modSeq_opTicks (c : Nat) (f : CoreSeq → CoreSeq) : (s.modSeq c f).opTicks = s.opTicks := rfl
@[simp] theorem State.modSeq_board (c : Nat) (f : CoreSeq → CoreSeq) : (s.modSeq c f).board = s.board := rfl
@[simp] theorem State.modSeq_parts (c : Nat) (f : CoreSeq → CoreSeq) : (s.modSeq c f).parts = s.parts := rfl
@[simp] theorem State.modSeq_stook (c : Nat) (f : CoreSeq → CoreSeq) : (s.modSeq c f).stook = s.stook := rfl
@[simp] theorem State.modSeq_hbm (c : Nat) (f : CoreSeq → CoreSeq) : (s.modSeq c f).hbm = s.hbm := rfl
@[simp] theorem State.modSeq_dies (c : Nat) (f : CoreSeq → CoreSeq) : (s.modSeq c f).dies = s.dies := rfl
@[simp] theorem State.modSeq_time (c : Nat) (f : CoreSeq → CoreSeq) : (s.modSeq c f).time = s.time := rfl
@[simp] theorem State.modSeq_ltes (c : Nat) (f : CoreSeq → CoreSeq) : (s.modSeq c f).ltes = s.ltes := rfl
@[simp] theorem State.modSeq_field (c : Nat) (f : CoreSeq → CoreSeq) : (s.modSeq c f).field = s.field := rfl
@[simp] theorem State.modSeq_meas (c : Nat) (f : CoreSeq → CoreSeq) : (s.modSeq c f).meas = s.meas := rfl
@[simp] theorem State.modSeq_units (c : Nat) (f : CoreSeq → CoreSeq) : (s.modSeq c f).units = s.units := rfl
@[simp] theorem State.modSeq_ctl (c : Nat) (f : CoreSeq → CoreSeq) : (s.modSeq c f).ctl = s.ctl := rfl
@[simp] theorem State.modSeq_host (c : Nat) (f : CoreSeq → CoreSeq) : (s.modSeq c f).host = s.host := rfl
@[simp] theorem State.modSeq_otp (c : Nat) (f : CoreSeq → CoreSeq) : (s.modSeq c f).otp = s.otp := rfl
@[simp] theorem State.modSeq_sec (c : Nat) (f : CoreSeq → CoreSeq) : (s.modSeq c f).sec = s.sec := rfl
@[simp] theorem State.modSeq_gran (c : Nat) (f : CoreSeq → CoreSeq) : (s.modSeq c f).gran = s.gran := rfl
@[simp] theorem State.modSeq_twin (c : Nat) (f : CoreSeq → CoreSeq) : (s.modSeq c f).twin = s.twin := rfl

@[simp] theorem State.modSp_pending (c : Nat) (f : CoreSp → CoreSp) : (s.modSp c f).pending = s.pending := rfl
@[simp] theorem State.modSp_free (c : Nat) (f : CoreSp → CoreSp) : (s.modSp c f).free = s.free := rfl
@[simp] theorem State.modSp_out (c : Nat) (f : CoreSp → CoreSp) : (s.modSp c f).out = s.out := rfl
@[simp] theorem State.modSp_cc (c : Nat) (f : CoreSp → CoreSp) : (s.modSp c f).cc = s.cc := rfl
@[simp] theorem State.modSp_opTicks (c : Nat) (f : CoreSp → CoreSp) : (s.modSp c f).opTicks = s.opTicks := rfl
@[simp] theorem State.modSp_board (c : Nat) (f : CoreSp → CoreSp) : (s.modSp c f).board = s.board := rfl
@[simp] theorem State.modSp_parts (c : Nat) (f : CoreSp → CoreSp) : (s.modSp c f).parts = s.parts := rfl
@[simp] theorem State.modSp_stook (c : Nat) (f : CoreSp → CoreSp) : (s.modSp c f).stook = s.stook := rfl
@[simp] theorem State.modSp_hbm (c : Nat) (f : CoreSp → CoreSp) : (s.modSp c f).hbm = s.hbm := rfl
@[simp] theorem State.modSp_dies (c : Nat) (f : CoreSp → CoreSp) : (s.modSp c f).dies = s.dies := rfl
@[simp] theorem State.modSp_time (c : Nat) (f : CoreSp → CoreSp) : (s.modSp c f).time = s.time := rfl
@[simp] theorem State.modSp_ltes (c : Nat) (f : CoreSp → CoreSp) : (s.modSp c f).ltes = s.ltes := rfl
@[simp] theorem State.modSp_field (c : Nat) (f : CoreSp → CoreSp) : (s.modSp c f).field = s.field := rfl
@[simp] theorem State.modSp_meas (c : Nat) (f : CoreSp → CoreSp) : (s.modSp c f).meas = s.meas := rfl
@[simp] theorem State.modSp_units (c : Nat) (f : CoreSp → CoreSp) : (s.modSp c f).units = s.units := rfl
@[simp] theorem State.modSp_ctl (c : Nat) (f : CoreSp → CoreSp) : (s.modSp c f).ctl = s.ctl := rfl
@[simp] theorem State.modSp_host (c : Nat) (f : CoreSp → CoreSp) : (s.modSp c f).host = s.host := rfl
@[simp] theorem State.modSp_otp (c : Nat) (f : CoreSp → CoreSp) : (s.modSp c f).otp = s.otp := rfl
@[simp] theorem State.modSp_sec (c : Nat) (f : CoreSp → CoreSp) : (s.modSp c f).sec = s.sec := rfl
@[simp] theorem State.modSp_gran (c : Nat) (f : CoreSp → CoreSp) : (s.modSp c f).gran = s.gran := rfl
@[simp] theorem State.modSp_twin (c : Nat) (f : CoreSp → CoreSp) : (s.modSp c f).twin = s.twin := rfl

@[simp] theorem State.modCh_pending (c : Nat) (f : CoreCh → CoreCh) : (s.modCh c f).pending = s.pending := rfl
@[simp] theorem State.modCh_free (c : Nat) (f : CoreCh → CoreCh) : (s.modCh c f).free = s.free := rfl
@[simp] theorem State.modCh_out (c : Nat) (f : CoreCh → CoreCh) : (s.modCh c f).out = s.out := rfl
@[simp] theorem State.modCh_cc (c : Nat) (f : CoreCh → CoreCh) : (s.modCh c f).cc = s.cc := rfl
@[simp] theorem State.modCh_opTicks (c : Nat) (f : CoreCh → CoreCh) : (s.modCh c f).opTicks = s.opTicks := rfl
@[simp] theorem State.modCh_board (c : Nat) (f : CoreCh → CoreCh) : (s.modCh c f).board = s.board := rfl
@[simp] theorem State.modCh_parts (c : Nat) (f : CoreCh → CoreCh) : (s.modCh c f).parts = s.parts := rfl
@[simp] theorem State.modCh_stook (c : Nat) (f : CoreCh → CoreCh) : (s.modCh c f).stook = s.stook := rfl
@[simp] theorem State.modCh_hbm (c : Nat) (f : CoreCh → CoreCh) : (s.modCh c f).hbm = s.hbm := rfl
@[simp] theorem State.modCh_dies (c : Nat) (f : CoreCh → CoreCh) : (s.modCh c f).dies = s.dies := rfl
@[simp] theorem State.modCh_time (c : Nat) (f : CoreCh → CoreCh) : (s.modCh c f).time = s.time := rfl
@[simp] theorem State.modCh_ltes (c : Nat) (f : CoreCh → CoreCh) : (s.modCh c f).ltes = s.ltes := rfl
@[simp] theorem State.modCh_field (c : Nat) (f : CoreCh → CoreCh) : (s.modCh c f).field = s.field := rfl
@[simp] theorem State.modCh_meas (c : Nat) (f : CoreCh → CoreCh) : (s.modCh c f).meas = s.meas := rfl
@[simp] theorem State.modCh_units (c : Nat) (f : CoreCh → CoreCh) : (s.modCh c f).units = s.units := rfl
@[simp] theorem State.modCh_ctl (c : Nat) (f : CoreCh → CoreCh) : (s.modCh c f).ctl = s.ctl := rfl
@[simp] theorem State.modCh_host (c : Nat) (f : CoreCh → CoreCh) : (s.modCh c f).host = s.host := rfl
@[simp] theorem State.modCh_otp (c : Nat) (f : CoreCh → CoreCh) : (s.modCh c f).otp = s.otp := rfl
@[simp] theorem State.modCh_sec (c : Nat) (f : CoreCh → CoreCh) : (s.modCh c f).sec = s.sec := rfl
@[simp] theorem State.modCh_gran (c : Nat) (f : CoreCh → CoreCh) : (s.modCh c f).gran = s.gran := rfl
@[simp] theorem State.modCh_twin (c : Nat) (f : CoreCh → CoreCh) : (s.modCh c f).twin = s.twin := rfl

@[simp] theorem State.bumpFree_pending : (s.bumpFree).pending = s.pending := rfl
@[simp] theorem State.bumpFree_out : (s.bumpFree).out = s.out := rfl
@[simp] theorem State.bumpFree_cc : (s.bumpFree).cc = s.cc := rfl
@[simp] theorem State.bumpFree_opTicks : (s.bumpFree).opTicks = s.opTicks := rfl
@[simp] theorem State.bumpFree_board : (s.bumpFree).board = s.board := rfl
@[simp] theorem State.bumpFree_parts : (s.bumpFree).parts = s.parts := rfl
@[simp] theorem State.bumpFree_cores : (s.bumpFree).cores = s.cores := rfl
@[simp] theorem State.bumpFree_stook : (s.bumpFree).stook = s.stook := rfl
@[simp] theorem State.bumpFree_hbm : (s.bumpFree).hbm = s.hbm := rfl
@[simp] theorem State.bumpFree_dies : (s.bumpFree).dies = s.dies := rfl
@[simp] theorem State.bumpFree_time : (s.bumpFree).time = s.time := rfl
@[simp] theorem State.bumpFree_ltes : (s.bumpFree).ltes = s.ltes := rfl
@[simp] theorem State.bumpFree_field : (s.bumpFree).field = s.field := rfl
@[simp] theorem State.bumpFree_meas : (s.bumpFree).meas = s.meas := rfl
@[simp] theorem State.bumpFree_units : (s.bumpFree).units = s.units := rfl
@[simp] theorem State.bumpFree_ctl : (s.bumpFree).ctl = s.ctl := rfl
@[simp] theorem State.bumpFree_host : (s.bumpFree).host = s.host := rfl
@[simp] theorem State.bumpFree_otp : (s.bumpFree).otp = s.otp := rfl
@[simp] theorem State.bumpFree_sec : (s.bumpFree).sec = s.sec := rfl
@[simp] theorem State.bumpFree_gran : (s.bumpFree).gran = s.gran := rfl
@[simp] theorem State.bumpFree_twin : (s.bumpFree).twin = s.twin := rfl
@[simp] theorem State.bumpFree_free : (s.bumpFree).free = s.free + 1 := rfl

@[simp] theorem State.emit_pending (chan arg : Nat) (d : Bytes) : (s.emit chan arg d).pending = s.pending := rfl
@[simp] theorem State.emit_free (chan arg : Nat) (d : Bytes) : (s.emit chan arg d).free = s.free := rfl
@[simp] theorem State.emit_cc (chan arg : Nat) (d : Bytes) : (s.emit chan arg d).cc = s.cc := rfl
@[simp] theorem State.emit_opTicks (chan arg : Nat) (d : Bytes) : (s.emit chan arg d).opTicks = s.opTicks := rfl
@[simp] theorem State.emit_board (chan arg : Nat) (d : Bytes) : (s.emit chan arg d).board = s.board := rfl
@[simp] theorem State.emit_parts (chan arg : Nat) (d : Bytes) : (s.emit chan arg d).parts = s.parts := rfl
@[simp] theorem State.emit_cores (chan arg : Nat) (d : Bytes) : (s.emit chan arg d).cores = s.cores := rfl
@[simp] theorem State.emit_stook (chan arg : Nat) (d : Bytes) : (s.emit chan arg d).stook = s.stook := rfl
@[simp] theorem State.emit_hbm (chan arg : Nat) (d : Bytes) : (s.emit chan arg d).hbm = s.hbm := rfl
@[simp] theorem State.emit_dies (chan arg : Nat) (d : Bytes) : (s.emit chan arg d).dies = s.dies := rfl
@[simp] theorem State.emit_time (chan arg : Nat) (d : Bytes) : (s.emit chan arg d).time = s.time := rfl
@[simp] theorem State.emit_ltes (chan arg : Nat) (d : Bytes) : (s.emit chan arg d).ltes = s.ltes := rfl
@[simp] theorem State.emit_field (chan arg : Nat) (d : Bytes) : (s.emit chan arg d).field = s.field := rfl
@[simp] theorem State.emit_meas (chan arg : Nat) (d : Bytes) : (s.emit chan arg d).meas = s.meas := rfl
@[simp] theorem State.emit_units (chan arg : Nat) (d : Bytes) : (s.emit chan arg d).units = s.units := rfl
@[simp] theorem State.emit_ctl (chan arg : Nat) (d : Bytes) : (s.emit chan arg d).ctl = s.ctl := rfl
@[simp] theorem State.emit_host (chan arg : Nat) (d : Bytes) : (s.emit chan arg d).host = s.host := rfl
@[simp] theorem State.emit_otp (chan arg : Nat) (d : Bytes) : (s.emit chan arg d).otp = s.otp := rfl
@[simp] theorem State.emit_sec (chan arg : Nat) (d : Bytes) : (s.emit chan arg d).sec = s.sec := rfl
@[simp] theorem State.emit_gran (chan arg : Nat) (d : Bytes) : (s.emit chan arg d).gran = s.gran := rfl
@[simp] theorem State.emit_twin (chan arg : Nat) (d : Bytes) : (s.emit chan arg d).twin = s.twin := rfl
@[simp] theorem State.emit_out (chan arg : Nat) (d : Bytes) : (s.emit chan arg d).out = s.out ++ [⟨chan, arg, d⟩] := rfl

@[simp] theorem State.modHost_pending (f : HostIf → HostIf) : (s.modHost f).pending = s.pending := rfl
@[simp] theorem State.modHost_free (f : HostIf → HostIf) : (s.modHost f).free = s.free := rfl
@[simp] theorem State.modHost_out (f : HostIf → HostIf) : (s.modHost f).out = s.out := rfl
@[simp] theorem State.modHost_cc (f : HostIf → HostIf) : (s.modHost f).cc = s.cc := rfl
@[simp] theorem State.modHost_opTicks (f : HostIf → HostIf) : (s.modHost f).opTicks = s.opTicks := rfl
@[simp] theorem State.modHost_board (f : HostIf → HostIf) : (s.modHost f).board = s.board := rfl
@[simp] theorem State.modHost_parts (f : HostIf → HostIf) : (s.modHost f).parts = s.parts := rfl
@[simp] theorem State.modHost_cores (f : HostIf → HostIf) : (s.modHost f).cores = s.cores := rfl
@[simp] theorem State.modHost_stook (f : HostIf → HostIf) : (s.modHost f).stook = s.stook := rfl
@[simp] theorem State.modHost_hbm (f : HostIf → HostIf) : (s.modHost f).hbm = s.hbm := rfl
@[simp] theorem State.modHost_dies (f : HostIf → HostIf) : (s.modHost f).dies = s.dies := rfl
@[simp] theorem State.modHost_time (f : HostIf → HostIf) : (s.modHost f).time = s.time := rfl
@[simp] theorem State.modHost_ltes (f : HostIf → HostIf) : (s.modHost f).ltes = s.ltes := rfl
@[simp] theorem State.modHost_field (f : HostIf → HostIf) : (s.modHost f).field = s.field := rfl
@[simp] theorem State.modHost_meas (f : HostIf → HostIf) : (s.modHost f).meas = s.meas := rfl
@[simp] theorem State.modHost_units (f : HostIf → HostIf) : (s.modHost f).units = s.units := rfl
@[simp] theorem State.modHost_ctl (f : HostIf → HostIf) : (s.modHost f).ctl = s.ctl := rfl
@[simp] theorem State.modHost_otp (f : HostIf → HostIf) : (s.modHost f).otp = s.otp := rfl
@[simp] theorem State.modHost_sec (f : HostIf → HostIf) : (s.modHost f).sec = s.sec := rfl
@[simp] theorem State.modHost_gran (f : HostIf → HostIf) : (s.modHost f).gran = s.gran := rfl
@[simp] theorem State.modHost_twin (f : HostIf → HostIf) : (s.modHost f).twin = s.twin := rfl
@[simp] theorem State.modHost_host (f : HostIf → HostIf) : (s.modHost f).host = f s.host := rfl

@[simp] theorem State.modSec_pending (f : Sec → Sec) : (s.modSec f).pending = s.pending := rfl
@[simp] theorem State.modSec_free (f : Sec → Sec) : (s.modSec f).free = s.free := rfl
@[simp] theorem State.modSec_out (f : Sec → Sec) : (s.modSec f).out = s.out := rfl
@[simp] theorem State.modSec_cc (f : Sec → Sec) : (s.modSec f).cc = s.cc := rfl
@[simp] theorem State.modSec_opTicks (f : Sec → Sec) : (s.modSec f).opTicks = s.opTicks := rfl
@[simp] theorem State.modSec_board (f : Sec → Sec) : (s.modSec f).board = s.board := rfl
@[simp] theorem State.modSec_parts (f : Sec → Sec) : (s.modSec f).parts = s.parts := rfl
@[simp] theorem State.modSec_cores (f : Sec → Sec) : (s.modSec f).cores = s.cores := rfl
@[simp] theorem State.modSec_stook (f : Sec → Sec) : (s.modSec f).stook = s.stook := rfl
@[simp] theorem State.modSec_hbm (f : Sec → Sec) : (s.modSec f).hbm = s.hbm := rfl
@[simp] theorem State.modSec_dies (f : Sec → Sec) : (s.modSec f).dies = s.dies := rfl
@[simp] theorem State.modSec_time (f : Sec → Sec) : (s.modSec f).time = s.time := rfl
@[simp] theorem State.modSec_ltes (f : Sec → Sec) : (s.modSec f).ltes = s.ltes := rfl
@[simp] theorem State.modSec_field (f : Sec → Sec) : (s.modSec f).field = s.field := rfl
@[simp] theorem State.modSec_meas (f : Sec → Sec) : (s.modSec f).meas = s.meas := rfl
@[simp] theorem State.modSec_units (f : Sec → Sec) : (s.modSec f).units = s.units := rfl
@[simp] theorem State.modSec_ctl (f : Sec → Sec) : (s.modSec f).ctl = s.ctl := rfl
@[simp] theorem State.modSec_host (f : Sec → Sec) : (s.modSec f).host = s.host := rfl
@[simp] theorem State.modSec_otp (f : Sec → Sec) : (s.modSec f).otp = s.otp := rfl
@[simp] theorem State.modSec_gran (f : Sec → Sec) : (s.modSec f).gran = s.gran := rfl
@[simp] theorem State.modSec_twin (f : Sec → Sec) : (s.modSec f).twin = s.twin := rfl
@[simp] theorem State.modSec_sec (f : Sec → Sec) : (s.modSec f).sec = f s.sec := rfl

@[simp] theorem State.modTwin_pending (f : Twin → Twin) : (s.modTwin f).pending = s.pending := rfl
@[simp] theorem State.modTwin_free (f : Twin → Twin) : (s.modTwin f).free = s.free := rfl
@[simp] theorem State.modTwin_out (f : Twin → Twin) : (s.modTwin f).out = s.out := rfl
@[simp] theorem State.modTwin_cc (f : Twin → Twin) : (s.modTwin f).cc = s.cc := rfl
@[simp] theorem State.modTwin_opTicks (f : Twin → Twin) : (s.modTwin f).opTicks = s.opTicks := rfl
@[simp] theorem State.modTwin_board (f : Twin → Twin) : (s.modTwin f).board = s.board := rfl
@[simp] theorem State.modTwin_parts (f : Twin → Twin) : (s.modTwin f).parts = s.parts := rfl
@[simp] theorem State.modTwin_cores (f : Twin → Twin) : (s.modTwin f).cores = s.cores := rfl
@[simp] theorem State.modTwin_stook (f : Twin → Twin) : (s.modTwin f).stook = s.stook := rfl
@[simp] theorem State.modTwin_hbm (f : Twin → Twin) : (s.modTwin f).hbm = s.hbm := rfl
@[simp] theorem State.modTwin_dies (f : Twin → Twin) : (s.modTwin f).dies = s.dies := rfl
@[simp] theorem State.modTwin_time (f : Twin → Twin) : (s.modTwin f).time = s.time := rfl
@[simp] theorem State.modTwin_ltes (f : Twin → Twin) : (s.modTwin f).ltes = s.ltes := rfl
@[simp] theorem State.modTwin_field (f : Twin → Twin) : (s.modTwin f).field = s.field := rfl
@[simp] theorem State.modTwin_meas (f : Twin → Twin) : (s.modTwin f).meas = s.meas := rfl
@[simp] theorem State.modTwin_units (f : Twin → Twin) : (s.modTwin f).units = s.units := rfl
@[simp] theorem State.modTwin_ctl (f : Twin → Twin) : (s.modTwin f).ctl = s.ctl := rfl
@[simp] theorem State.modTwin_host (f : Twin → Twin) : (s.modTwin f).host = s.host := rfl
@[simp] theorem State.modTwin_otp (f : Twin → Twin) : (s.modTwin f).otp = s.otp := rfl
@[simp] theorem State.modTwin_sec (f : Twin → Twin) : (s.modTwin f).sec = s.sec := rfl
@[simp] theorem State.modTwin_gran (f : Twin → Twin) : (s.modTwin f).gran = s.gran := rfl
@[simp] theorem State.modTwin_twin (f : Twin → Twin) : (s.modTwin f).twin = f s.twin := rfl

@[simp] theorem State.modGran_pending (f : Granary → Granary) : (s.modGran f).pending = s.pending := rfl
@[simp] theorem State.modGran_free (f : Granary → Granary) : (s.modGran f).free = s.free := rfl
@[simp] theorem State.modGran_out (f : Granary → Granary) : (s.modGran f).out = s.out := rfl
@[simp] theorem State.modGran_cc (f : Granary → Granary) : (s.modGran f).cc = s.cc := rfl
@[simp] theorem State.modGran_opTicks (f : Granary → Granary) : (s.modGran f).opTicks = s.opTicks := rfl
@[simp] theorem State.modGran_board (f : Granary → Granary) : (s.modGran f).board = s.board := rfl
@[simp] theorem State.modGran_parts (f : Granary → Granary) : (s.modGran f).parts = s.parts := rfl
@[simp] theorem State.modGran_cores (f : Granary → Granary) : (s.modGran f).cores = s.cores := rfl
@[simp] theorem State.modGran_stook (f : Granary → Granary) : (s.modGran f).stook = s.stook := rfl
@[simp] theorem State.modGran_hbm (f : Granary → Granary) : (s.modGran f).hbm = s.hbm := rfl
@[simp] theorem State.modGran_dies (f : Granary → Granary) : (s.modGran f).dies = s.dies := rfl
@[simp] theorem State.modGran_time (f : Granary → Granary) : (s.modGran f).time = s.time := rfl
@[simp] theorem State.modGran_ltes (f : Granary → Granary) : (s.modGran f).ltes = s.ltes := rfl
@[simp] theorem State.modGran_field (f : Granary → Granary) : (s.modGran f).field = s.field := rfl
@[simp] theorem State.modGran_meas (f : Granary → Granary) : (s.modGran f).meas = s.meas := rfl
@[simp] theorem State.modGran_units (f : Granary → Granary) : (s.modGran f).units = s.units := rfl
@[simp] theorem State.modGran_ctl (f : Granary → Granary) : (s.modGran f).ctl = s.ctl := rfl
@[simp] theorem State.modGran_host (f : Granary → Granary) : (s.modGran f).host = s.host := rfl
@[simp] theorem State.modGran_otp (f : Granary → Granary) : (s.modGran f).otp = s.otp := rfl
@[simp] theorem State.modGran_sec (f : Granary → Granary) : (s.modGran f).sec = s.sec := rfl
@[simp] theorem State.modGran_twin (f : Granary → Granary) : (s.modGran f).twin = s.twin := rfl
@[simp] theorem State.modGran_gran (f : Granary → Granary) : (s.modGran f).gran = f s.gran := rfl

@[simp] theorem State.modMeas_pending (f : Measure → Measure) : (s.modMeas f).pending = s.pending := rfl
@[simp] theorem State.modMeas_free (f : Measure → Measure) : (s.modMeas f).free = s.free := rfl
@[simp] theorem State.modMeas_out (f : Measure → Measure) : (s.modMeas f).out = s.out := rfl
@[simp] theorem State.modMeas_cc (f : Measure → Measure) : (s.modMeas f).cc = s.cc := rfl
@[simp] theorem State.modMeas_opTicks (f : Measure → Measure) : (s.modMeas f).opTicks = s.opTicks := rfl
@[simp] theorem State.modMeas_board (f : Measure → Measure) : (s.modMeas f).board = s.board := rfl
@[simp] theorem State.modMeas_parts (f : Measure → Measure) : (s.modMeas f).parts = s.parts := rfl
@[simp] theorem State.modMeas_cores (f : Measure → Measure) : (s.modMeas f).cores = s.cores := rfl
@[simp] theorem State.modMeas_stook (f : Measure → Measure) : (s.modMeas f).stook = s.stook := rfl
@[simp] theorem State.modMeas_hbm (f : Measure → Measure) : (s.modMeas f).hbm = s.hbm := rfl
@[simp] theorem State.modMeas_dies (f : Measure → Measure) : (s.modMeas f).dies = s.dies := rfl
@[simp] theorem State.modMeas_time (f : Measure → Measure) : (s.modMeas f).time = s.time := rfl
@[simp] theorem State.modMeas_ltes (f : Measure → Measure) : (s.modMeas f).ltes = s.ltes := rfl
@[simp] theorem State.modMeas_field (f : Measure → Measure) : (s.modMeas f).field = s.field := rfl
@[simp] theorem State.modMeas_units (f : Measure → Measure) : (s.modMeas f).units = s.units := rfl
@[simp] theorem State.modMeas_ctl (f : Measure → Measure) : (s.modMeas f).ctl = s.ctl := rfl
@[simp] theorem State.modMeas_host (f : Measure → Measure) : (s.modMeas f).host = s.host := rfl
@[simp] theorem State.modMeas_otp (f : Measure → Measure) : (s.modMeas f).otp = s.otp := rfl
@[simp] theorem State.modMeas_sec (f : Measure → Measure) : (s.modMeas f).sec = s.sec := rfl
@[simp] theorem State.modMeas_gran (f : Measure → Measure) : (s.modMeas f).gran = s.gran := rfl
@[simp] theorem State.modMeas_twin (f : Measure → Measure) : (s.modMeas f).twin = s.twin := rfl
@[simp] theorem State.modMeas_meas (f : Measure → Measure) : (s.modMeas f).meas = f s.meas := rfl

@[simp] theorem State.modAwn_pending (i : Nat) (f : Awn → Awn) : (s.modAwn i f).pending = s.pending := rfl
@[simp] theorem State.modAwn_free (i : Nat) (f : Awn → Awn) : (s.modAwn i f).free = s.free := rfl
@[simp] theorem State.modAwn_out (i : Nat) (f : Awn → Awn) : (s.modAwn i f).out = s.out := rfl
@[simp] theorem State.modAwn_cc (i : Nat) (f : Awn → Awn) : (s.modAwn i f).cc = s.cc := rfl
@[simp] theorem State.modAwn_opTicks (i : Nat) (f : Awn → Awn) : (s.modAwn i f).opTicks = s.opTicks := rfl
@[simp] theorem State.modAwn_board (i : Nat) (f : Awn → Awn) : (s.modAwn i f).board = s.board := rfl
@[simp] theorem State.modAwn_parts (i : Nat) (f : Awn → Awn) : (s.modAwn i f).parts = s.parts := rfl
@[simp] theorem State.modAwn_cores (i : Nat) (f : Awn → Awn) : (s.modAwn i f).cores = s.cores := rfl
@[simp] theorem State.modAwn_stook (i : Nat) (f : Awn → Awn) : (s.modAwn i f).stook = s.stook := rfl
@[simp] theorem State.modAwn_hbm (i : Nat) (f : Awn → Awn) : (s.modAwn i f).hbm = s.hbm := rfl
@[simp] theorem State.modAwn_dies (i : Nat) (f : Awn → Awn) : (s.modAwn i f).dies = s.dies := rfl
@[simp] theorem State.modAwn_time (i : Nat) (f : Awn → Awn) : (s.modAwn i f).time = s.time := rfl
@[simp] theorem State.modAwn_ltes (i : Nat) (f : Awn → Awn) : (s.modAwn i f).ltes = s.ltes := rfl
@[simp] theorem State.modAwn_field (i : Nat) (f : Awn → Awn) : (s.modAwn i f).field = s.field := rfl
@[simp] theorem State.modAwn_units (i : Nat) (f : Awn → Awn) : (s.modAwn i f).units = s.units := rfl
@[simp] theorem State.modAwn_ctl (i : Nat) (f : Awn → Awn) : (s.modAwn i f).ctl = s.ctl := rfl
@[simp] theorem State.modAwn_host (i : Nat) (f : Awn → Awn) : (s.modAwn i f).host = s.host := rfl
@[simp] theorem State.modAwn_otp (i : Nat) (f : Awn → Awn) : (s.modAwn i f).otp = s.otp := rfl
@[simp] theorem State.modAwn_sec (i : Nat) (f : Awn → Awn) : (s.modAwn i f).sec = s.sec := rfl
@[simp] theorem State.modAwn_gran (i : Nat) (f : Awn → Awn) : (s.modAwn i f).gran = s.gran := rfl
@[simp] theorem State.modAwn_twin (i : Nat) (f : Awn → Awn) : (s.modAwn i f).twin = s.twin := rfl

@[simp] theorem State.modLane_pending (i : Nat) (f : Lane → Lane) : (s.modLane i f).pending = s.pending := rfl
@[simp] theorem State.modLane_free (i : Nat) (f : Lane → Lane) : (s.modLane i f).free = s.free := rfl
@[simp] theorem State.modLane_out (i : Nat) (f : Lane → Lane) : (s.modLane i f).out = s.out := rfl
@[simp] theorem State.modLane_cc (i : Nat) (f : Lane → Lane) : (s.modLane i f).cc = s.cc := rfl
@[simp] theorem State.modLane_opTicks (i : Nat) (f : Lane → Lane) : (s.modLane i f).opTicks = s.opTicks := rfl
@[simp] theorem State.modLane_board (i : Nat) (f : Lane → Lane) : (s.modLane i f).board = s.board := rfl
@[simp] theorem State.modLane_parts (i : Nat) (f : Lane → Lane) : (s.modLane i f).parts = s.parts := rfl
@[simp] theorem State.modLane_cores (i : Nat) (f : Lane → Lane) : (s.modLane i f).cores = s.cores := rfl
@[simp] theorem State.modLane_stook (i : Nat) (f : Lane → Lane) : (s.modLane i f).stook = s.stook := rfl
@[simp] theorem State.modLane_hbm (i : Nat) (f : Lane → Lane) : (s.modLane i f).hbm = s.hbm := rfl
@[simp] theorem State.modLane_dies (i : Nat) (f : Lane → Lane) : (s.modLane i f).dies = s.dies := rfl
@[simp] theorem State.modLane_time (i : Nat) (f : Lane → Lane) : (s.modLane i f).time = s.time := rfl
@[simp] theorem State.modLane_ltes (i : Nat) (f : Lane → Lane) : (s.modLane i f).ltes = s.ltes := rfl
@[simp] theorem State.modLane_field (i : Nat) (f : Lane → Lane) : (s.modLane i f).field = s.field := rfl
@[simp] theorem State.modLane_units (i : Nat) (f : Lane → Lane) : (s.modLane i f).units = s.units := rfl
@[simp] theorem State.modLane_ctl (i : Nat) (f : Lane → Lane) : (s.modLane i f).ctl = s.ctl := rfl
@[simp] theorem State.modLane_host (i : Nat) (f : Lane → Lane) : (s.modLane i f).host = s.host := rfl
@[simp] theorem State.modLane_otp (i : Nat) (f : Lane → Lane) : (s.modLane i f).otp = s.otp := rfl
@[simp] theorem State.modLane_sec (i : Nat) (f : Lane → Lane) : (s.modLane i f).sec = s.sec := rfl
@[simp] theorem State.modLane_gran (i : Nat) (f : Lane → Lane) : (s.modLane i f).gran = s.gran := rfl
@[simp] theorem State.modLane_twin (i : Nat) (f : Lane → Lane) : (s.modLane i f).twin = s.twin := rfl

@[simp] theorem State.modField_pending (f : Field → Field) : (s.modField f).pending = s.pending := rfl
@[simp] theorem State.modField_free (f : Field → Field) : (s.modField f).free = s.free := rfl
@[simp] theorem State.modField_out (f : Field → Field) : (s.modField f).out = s.out := rfl
@[simp] theorem State.modField_cc (f : Field → Field) : (s.modField f).cc = s.cc := rfl
@[simp] theorem State.modField_opTicks (f : Field → Field) : (s.modField f).opTicks = s.opTicks := rfl
@[simp] theorem State.modField_board (f : Field → Field) : (s.modField f).board = s.board := rfl
@[simp] theorem State.modField_parts (f : Field → Field) : (s.modField f).parts = s.parts := rfl
@[simp] theorem State.modField_cores (f : Field → Field) : (s.modField f).cores = s.cores := rfl
@[simp] theorem State.modField_stook (f : Field → Field) : (s.modField f).stook = s.stook := rfl
@[simp] theorem State.modField_hbm (f : Field → Field) : (s.modField f).hbm = s.hbm := rfl
@[simp] theorem State.modField_dies (f : Field → Field) : (s.modField f).dies = s.dies := rfl
@[simp] theorem State.modField_time (f : Field → Field) : (s.modField f).time = s.time := rfl
@[simp] theorem State.modField_ltes (f : Field → Field) : (s.modField f).ltes = s.ltes := rfl
@[simp] theorem State.modField_meas (f : Field → Field) : (s.modField f).meas = s.meas := rfl
@[simp] theorem State.modField_units (f : Field → Field) : (s.modField f).units = s.units := rfl
@[simp] theorem State.modField_ctl (f : Field → Field) : (s.modField f).ctl = s.ctl := rfl
@[simp] theorem State.modField_host (f : Field → Field) : (s.modField f).host = s.host := rfl
@[simp] theorem State.modField_otp (f : Field → Field) : (s.modField f).otp = s.otp := rfl
@[simp] theorem State.modField_sec (f : Field → Field) : (s.modField f).sec = s.sec := rfl
@[simp] theorem State.modField_gran (f : Field → Field) : (s.modField f).gran = s.gran := rfl
@[simp] theorem State.modField_twin (f : Field → Field) : (s.modField f).twin = s.twin := rfl
@[simp] theorem State.modField_field (f : Field → Field) : (s.modField f).field = f s.field := rfl

@[simp] theorem State.modPort_pending (i : Nat) (f : Port → Port) : (s.modPort i f).pending = s.pending := rfl
@[simp] theorem State.modPort_free (i : Nat) (f : Port → Port) : (s.modPort i f).free = s.free := rfl
@[simp] theorem State.modPort_out (i : Nat) (f : Port → Port) : (s.modPort i f).out = s.out := rfl
@[simp] theorem State.modPort_cc (i : Nat) (f : Port → Port) : (s.modPort i f).cc = s.cc := rfl
@[simp] theorem State.modPort_opTicks (i : Nat) (f : Port → Port) : (s.modPort i f).opTicks = s.opTicks := rfl
@[simp] theorem State.modPort_board (i : Nat) (f : Port → Port) : (s.modPort i f).board = s.board := rfl
@[simp] theorem State.modPort_parts (i : Nat) (f : Port → Port) : (s.modPort i f).parts = s.parts := rfl
@[simp] theorem State.modPort_cores (i : Nat) (f : Port → Port) : (s.modPort i f).cores = s.cores := rfl
@[simp] theorem State.modPort_stook (i : Nat) (f : Port → Port) : (s.modPort i f).stook = s.stook := rfl
@[simp] theorem State.modPort_hbm (i : Nat) (f : Port → Port) : (s.modPort i f).hbm = s.hbm := rfl
@[simp] theorem State.modPort_dies (i : Nat) (f : Port → Port) : (s.modPort i f).dies = s.dies := rfl
@[simp] theorem State.modPort_time (i : Nat) (f : Port → Port) : (s.modPort i f).time = s.time := rfl
@[simp] theorem State.modPort_ltes (i : Nat) (f : Port → Port) : (s.modPort i f).ltes = s.ltes := rfl
@[simp] theorem State.modPort_meas (i : Nat) (f : Port → Port) : (s.modPort i f).meas = s.meas := rfl
@[simp] theorem State.modPort_units (i : Nat) (f : Port → Port) : (s.modPort i f).units = s.units := rfl
@[simp] theorem State.modPort_ctl (i : Nat) (f : Port → Port) : (s.modPort i f).ctl = s.ctl := rfl
@[simp] theorem State.modPort_host (i : Nat) (f : Port → Port) : (s.modPort i f).host = s.host := rfl
@[simp] theorem State.modPort_otp (i : Nat) (f : Port → Port) : (s.modPort i f).otp = s.otp := rfl
@[simp] theorem State.modPort_sec (i : Nat) (f : Port → Port) : (s.modPort i f).sec = s.sec := rfl
@[simp] theorem State.modPort_gran (i : Nat) (f : Port → Port) : (s.modPort i f).gran = s.gran := rfl
@[simp] theorem State.modPort_twin (i : Nat) (f : Port → Port) : (s.modPort i f).twin = s.twin := rfl

@[simp] theorem State.modPoint_pending (i : Nat) (f : Point → Point) : (s.modPoint i f).pending = s.pending := rfl
@[simp] theorem State.modPoint_free (i : Nat) (f : Point → Point) : (s.modPoint i f).free = s.free := rfl
@[simp] theorem State.modPoint_out (i : Nat) (f : Point → Point) : (s.modPoint i f).out = s.out := rfl
@[simp] theorem State.modPoint_cc (i : Nat) (f : Point → Point) : (s.modPoint i f).cc = s.cc := rfl
@[simp] theorem State.modPoint_opTicks (i : Nat) (f : Point → Point) : (s.modPoint i f).opTicks = s.opTicks := rfl
@[simp] theorem State.modPoint_board (i : Nat) (f : Point → Point) : (s.modPoint i f).board = s.board := rfl
@[simp] theorem State.modPoint_parts (i : Nat) (f : Point → Point) : (s.modPoint i f).parts = s.parts := rfl
@[simp] theorem State.modPoint_cores (i : Nat) (f : Point → Point) : (s.modPoint i f).cores = s.cores := rfl
@[simp] theorem State.modPoint_stook (i : Nat) (f : Point → Point) : (s.modPoint i f).stook = s.stook := rfl
@[simp] theorem State.modPoint_hbm (i : Nat) (f : Point → Point) : (s.modPoint i f).hbm = s.hbm := rfl
@[simp] theorem State.modPoint_dies (i : Nat) (f : Point → Point) : (s.modPoint i f).dies = s.dies := rfl
@[simp] theorem State.modPoint_time (i : Nat) (f : Point → Point) : (s.modPoint i f).time = s.time := rfl
@[simp] theorem State.modPoint_ltes (i : Nat) (f : Point → Point) : (s.modPoint i f).ltes = s.ltes := rfl
@[simp] theorem State.modPoint_meas (i : Nat) (f : Point → Point) : (s.modPoint i f).meas = s.meas := rfl
@[simp] theorem State.modPoint_units (i : Nat) (f : Point → Point) : (s.modPoint i f).units = s.units := rfl
@[simp] theorem State.modPoint_ctl (i : Nat) (f : Point → Point) : (s.modPoint i f).ctl = s.ctl := rfl
@[simp] theorem State.modPoint_host (i : Nat) (f : Point → Point) : (s.modPoint i f).host = s.host := rfl
@[simp] theorem State.modPoint_otp (i : Nat) (f : Point → Point) : (s.modPoint i f).otp = s.otp := rfl
@[simp] theorem State.modPoint_sec (i : Nat) (f : Point → Point) : (s.modPoint i f).sec = s.sec := rfl
@[simp] theorem State.modPoint_gran (i : Nat) (f : Point → Point) : (s.modPoint i f).gran = s.gran := rfl
@[simp] theorem State.modPoint_twin (i : Nat) (f : Point → Point) : (s.modPoint i f).twin = s.twin := rfl

@[simp] theorem State.modLte_pending (i : Nat) (f : Lte → Lte) : (s.modLte i f).pending = s.pending := rfl
@[simp] theorem State.modLte_free (i : Nat) (f : Lte → Lte) : (s.modLte i f).free = s.free := rfl
@[simp] theorem State.modLte_out (i : Nat) (f : Lte → Lte) : (s.modLte i f).out = s.out := rfl
@[simp] theorem State.modLte_cc (i : Nat) (f : Lte → Lte) : (s.modLte i f).cc = s.cc := rfl
@[simp] theorem State.modLte_opTicks (i : Nat) (f : Lte → Lte) : (s.modLte i f).opTicks = s.opTicks := rfl
@[simp] theorem State.modLte_board (i : Nat) (f : Lte → Lte) : (s.modLte i f).board = s.board := rfl
@[simp] theorem State.modLte_parts (i : Nat) (f : Lte → Lte) : (s.modLte i f).parts = s.parts := rfl
@[simp] theorem State.modLte_cores (i : Nat) (f : Lte → Lte) : (s.modLte i f).cores = s.cores := rfl
@[simp] theorem State.modLte_stook (i : Nat) (f : Lte → Lte) : (s.modLte i f).stook = s.stook := rfl
@[simp] theorem State.modLte_hbm (i : Nat) (f : Lte → Lte) : (s.modLte i f).hbm = s.hbm := rfl
@[simp] theorem State.modLte_dies (i : Nat) (f : Lte → Lte) : (s.modLte i f).dies = s.dies := rfl
@[simp] theorem State.modLte_time (i : Nat) (f : Lte → Lte) : (s.modLte i f).time = s.time := rfl
@[simp] theorem State.modLte_field (i : Nat) (f : Lte → Lte) : (s.modLte i f).field = s.field := rfl
@[simp] theorem State.modLte_meas (i : Nat) (f : Lte → Lte) : (s.modLte i f).meas = s.meas := rfl
@[simp] theorem State.modLte_units (i : Nat) (f : Lte → Lte) : (s.modLte i f).units = s.units := rfl
@[simp] theorem State.modLte_ctl (i : Nat) (f : Lte → Lte) : (s.modLte i f).ctl = s.ctl := rfl
@[simp] theorem State.modLte_host (i : Nat) (f : Lte → Lte) : (s.modLte i f).host = s.host := rfl
@[simp] theorem State.modLte_otp (i : Nat) (f : Lte → Lte) : (s.modLte i f).otp = s.otp := rfl
@[simp] theorem State.modLte_sec (i : Nat) (f : Lte → Lte) : (s.modLte i f).sec = s.sec := rfl
@[simp] theorem State.modLte_gran (i : Nat) (f : Lte → Lte) : (s.modLte i f).gran = s.gran := rfl
@[simp] theorem State.modLte_twin (i : Nat) (f : Lte → Lte) : (s.modLte i f).twin = s.twin := rfl
@[simp] theorem State.modLte_ltes (i : Nat) (f : Lte → Lte) : (s.modLte i f).ltes = s.ltes.put i (f (s.lte i)) := rfl

@[simp] theorem State.modTime_pending (f : Time → Time) : (s.modTime f).pending = s.pending := rfl
@[simp] theorem State.modTime_free (f : Time → Time) : (s.modTime f).free = s.free := rfl
@[simp] theorem State.modTime_out (f : Time → Time) : (s.modTime f).out = s.out := rfl
@[simp] theorem State.modTime_cc (f : Time → Time) : (s.modTime f).cc = s.cc := rfl
@[simp] theorem State.modTime_opTicks (f : Time → Time) : (s.modTime f).opTicks = s.opTicks := rfl
@[simp] theorem State.modTime_board (f : Time → Time) : (s.modTime f).board = s.board := rfl
@[simp] theorem State.modTime_parts (f : Time → Time) : (s.modTime f).parts = s.parts := rfl
@[simp] theorem State.modTime_cores (f : Time → Time) : (s.modTime f).cores = s.cores := rfl
@[simp] theorem State.modTime_stook (f : Time → Time) : (s.modTime f).stook = s.stook := rfl
@[simp] theorem State.modTime_hbm (f : Time → Time) : (s.modTime f).hbm = s.hbm := rfl
@[simp] theorem State.modTime_dies (f : Time → Time) : (s.modTime f).dies = s.dies := rfl
@[simp] theorem State.modTime_ltes (f : Time → Time) : (s.modTime f).ltes = s.ltes := rfl
@[simp] theorem State.modTime_field (f : Time → Time) : (s.modTime f).field = s.field := rfl
@[simp] theorem State.modTime_meas (f : Time → Time) : (s.modTime f).meas = s.meas := rfl
@[simp] theorem State.modTime_units (f : Time → Time) : (s.modTime f).units = s.units := rfl
@[simp] theorem State.modTime_ctl (f : Time → Time) : (s.modTime f).ctl = s.ctl := rfl
@[simp] theorem State.modTime_host (f : Time → Time) : (s.modTime f).host = s.host := rfl
@[simp] theorem State.modTime_otp (f : Time → Time) : (s.modTime f).otp = s.otp := rfl
@[simp] theorem State.modTime_sec (f : Time → Time) : (s.modTime f).sec = s.sec := rfl
@[simp] theorem State.modTime_gran (f : Time → Time) : (s.modTime f).gran = s.gran := rfl
@[simp] theorem State.modTime_twin (f : Time → Time) : (s.modTime f).twin = s.twin := rfl
@[simp] theorem State.modTime_time (f : Time → Time) : (s.modTime f).time = f s.time := rfl

@[simp] theorem State.modPtp_pending (i : Nat) (f : Ptp → Ptp) : (s.modPtp i f).pending = s.pending := rfl
@[simp] theorem State.modPtp_free (i : Nat) (f : Ptp → Ptp) : (s.modPtp i f).free = s.free := rfl
@[simp] theorem State.modPtp_out (i : Nat) (f : Ptp → Ptp) : (s.modPtp i f).out = s.out := rfl
@[simp] theorem State.modPtp_cc (i : Nat) (f : Ptp → Ptp) : (s.modPtp i f).cc = s.cc := rfl
@[simp] theorem State.modPtp_opTicks (i : Nat) (f : Ptp → Ptp) : (s.modPtp i f).opTicks = s.opTicks := rfl
@[simp] theorem State.modPtp_board (i : Nat) (f : Ptp → Ptp) : (s.modPtp i f).board = s.board := rfl
@[simp] theorem State.modPtp_parts (i : Nat) (f : Ptp → Ptp) : (s.modPtp i f).parts = s.parts := rfl
@[simp] theorem State.modPtp_cores (i : Nat) (f : Ptp → Ptp) : (s.modPtp i f).cores = s.cores := rfl
@[simp] theorem State.modPtp_stook (i : Nat) (f : Ptp → Ptp) : (s.modPtp i f).stook = s.stook := rfl
@[simp] theorem State.modPtp_hbm (i : Nat) (f : Ptp → Ptp) : (s.modPtp i f).hbm = s.hbm := rfl
@[simp] theorem State.modPtp_dies (i : Nat) (f : Ptp → Ptp) : (s.modPtp i f).dies = s.dies := rfl
@[simp] theorem State.modPtp_ltes (i : Nat) (f : Ptp → Ptp) : (s.modPtp i f).ltes = s.ltes := rfl
@[simp] theorem State.modPtp_field (i : Nat) (f : Ptp → Ptp) : (s.modPtp i f).field = s.field := rfl
@[simp] theorem State.modPtp_meas (i : Nat) (f : Ptp → Ptp) : (s.modPtp i f).meas = s.meas := rfl
@[simp] theorem State.modPtp_units (i : Nat) (f : Ptp → Ptp) : (s.modPtp i f).units = s.units := rfl
@[simp] theorem State.modPtp_ctl (i : Nat) (f : Ptp → Ptp) : (s.modPtp i f).ctl = s.ctl := rfl
@[simp] theorem State.modPtp_host (i : Nat) (f : Ptp → Ptp) : (s.modPtp i f).host = s.host := rfl
@[simp] theorem State.modPtp_otp (i : Nat) (f : Ptp → Ptp) : (s.modPtp i f).otp = s.otp := rfl
@[simp] theorem State.modPtp_sec (i : Nat) (f : Ptp → Ptp) : (s.modPtp i f).sec = s.sec := rfl
@[simp] theorem State.modPtp_gran (i : Nat) (f : Ptp → Ptp) : (s.modPtp i f).gran = s.gran := rfl
@[simp] theorem State.modPtp_twin (i : Nat) (f : Ptp → Ptp) : (s.modPtp i f).twin = s.twin := rfl

@[simp] theorem State.modDie_pending (d : Nat) (f : Die → Die) : (s.modDie d f).pending = s.pending := rfl
@[simp] theorem State.modDie_free (d : Nat) (f : Die → Die) : (s.modDie d f).free = s.free := rfl
@[simp] theorem State.modDie_out (d : Nat) (f : Die → Die) : (s.modDie d f).out = s.out := rfl
@[simp] theorem State.modDie_cc (d : Nat) (f : Die → Die) : (s.modDie d f).cc = s.cc := rfl
@[simp] theorem State.modDie_opTicks (d : Nat) (f : Die → Die) : (s.modDie d f).opTicks = s.opTicks := rfl
@[simp] theorem State.modDie_board (d : Nat) (f : Die → Die) : (s.modDie d f).board = s.board := rfl
@[simp] theorem State.modDie_parts (d : Nat) (f : Die → Die) : (s.modDie d f).parts = s.parts := rfl
@[simp] theorem State.modDie_cores (d : Nat) (f : Die → Die) : (s.modDie d f).cores = s.cores := rfl
@[simp] theorem State.modDie_stook (d : Nat) (f : Die → Die) : (s.modDie d f).stook = s.stook := rfl
@[simp] theorem State.modDie_hbm (d : Nat) (f : Die → Die) : (s.modDie d f).hbm = s.hbm := rfl
@[simp] theorem State.modDie_time (d : Nat) (f : Die → Die) : (s.modDie d f).time = s.time := rfl
@[simp] theorem State.modDie_ltes (d : Nat) (f : Die → Die) : (s.modDie d f).ltes = s.ltes := rfl
@[simp] theorem State.modDie_field (d : Nat) (f : Die → Die) : (s.modDie d f).field = s.field := rfl
@[simp] theorem State.modDie_meas (d : Nat) (f : Die → Die) : (s.modDie d f).meas = s.meas := rfl
@[simp] theorem State.modDie_units (d : Nat) (f : Die → Die) : (s.modDie d f).units = s.units := rfl
@[simp] theorem State.modDie_ctl (d : Nat) (f : Die → Die) : (s.modDie d f).ctl = s.ctl := rfl
@[simp] theorem State.modDie_host (d : Nat) (f : Die → Die) : (s.modDie d f).host = s.host := rfl
@[simp] theorem State.modDie_otp (d : Nat) (f : Die → Die) : (s.modDie d f).otp = s.otp := rfl
@[simp] theorem State.modDie_sec (d : Nat) (f : Die → Die) : (s.modDie d f).sec = s.sec := rfl
@[simp] theorem State.modDie_gran (d : Nat) (f : Die → Die) : (s.modDie d f).gran = s.gran := rfl
@[simp] theorem State.modDie_twin (d : Nat) (f : Die → Die) : (s.modDie d f).twin = s.twin := rfl
@[simp] theorem State.modDie_dies (d : Nat) (f : Die → Die) : (s.modDie d f).dies = s.dies.put d (f (s.die d)) := rfl

@[simp] theorem State.modPc_pending (i : Nat) (f : Pc → Pc) : (s.modPc i f).pending = s.pending := rfl
@[simp] theorem State.modPc_free (i : Nat) (f : Pc → Pc) : (s.modPc i f).free = s.free := rfl
@[simp] theorem State.modPc_out (i : Nat) (f : Pc → Pc) : (s.modPc i f).out = s.out := rfl
@[simp] theorem State.modPc_cc (i : Nat) (f : Pc → Pc) : (s.modPc i f).cc = s.cc := rfl
@[simp] theorem State.modPc_opTicks (i : Nat) (f : Pc → Pc) : (s.modPc i f).opTicks = s.opTicks := rfl
@[simp] theorem State.modPc_board (i : Nat) (f : Pc → Pc) : (s.modPc i f).board = s.board := rfl
@[simp] theorem State.modPc_parts (i : Nat) (f : Pc → Pc) : (s.modPc i f).parts = s.parts := rfl
@[simp] theorem State.modPc_cores (i : Nat) (f : Pc → Pc) : (s.modPc i f).cores = s.cores := rfl
@[simp] theorem State.modPc_stook (i : Nat) (f : Pc → Pc) : (s.modPc i f).stook = s.stook := rfl
@[simp] theorem State.modPc_dies (i : Nat) (f : Pc → Pc) : (s.modPc i f).dies = s.dies := rfl
@[simp] theorem State.modPc_time (i : Nat) (f : Pc → Pc) : (s.modPc i f).time = s.time := rfl
@[simp] theorem State.modPc_ltes (i : Nat) (f : Pc → Pc) : (s.modPc i f).ltes = s.ltes := rfl
@[simp] theorem State.modPc_field (i : Nat) (f : Pc → Pc) : (s.modPc i f).field = s.field := rfl
@[simp] theorem State.modPc_meas (i : Nat) (f : Pc → Pc) : (s.modPc i f).meas = s.meas := rfl
@[simp] theorem State.modPc_units (i : Nat) (f : Pc → Pc) : (s.modPc i f).units = s.units := rfl
@[simp] theorem State.modPc_ctl (i : Nat) (f : Pc → Pc) : (s.modPc i f).ctl = s.ctl := rfl
@[simp] theorem State.modPc_host (i : Nat) (f : Pc → Pc) : (s.modPc i f).host = s.host := rfl
@[simp] theorem State.modPc_otp (i : Nat) (f : Pc → Pc) : (s.modPc i f).otp = s.otp := rfl
@[simp] theorem State.modPc_sec (i : Nat) (f : Pc → Pc) : (s.modPc i f).sec = s.sec := rfl
@[simp] theorem State.modPc_gran (i : Nat) (f : Pc → Pc) : (s.modPc i f).gran = s.gran := rfl
@[simp] theorem State.modPc_twin (i : Nat) (f : Pc → Pc) : (s.modPc i f).twin = s.twin := rfl

@[simp] theorem State.modStook_pending (f : Stook → Stook) : (s.modStook f).pending = s.pending := rfl
@[simp] theorem State.modStook_free (f : Stook → Stook) : (s.modStook f).free = s.free := rfl
@[simp] theorem State.modStook_out (f : Stook → Stook) : (s.modStook f).out = s.out := rfl
@[simp] theorem State.modStook_cc (f : Stook → Stook) : (s.modStook f).cc = s.cc := rfl
@[simp] theorem State.modStook_opTicks (f : Stook → Stook) : (s.modStook f).opTicks = s.opTicks := rfl
@[simp] theorem State.modStook_board (f : Stook → Stook) : (s.modStook f).board = s.board := rfl
@[simp] theorem State.modStook_parts (f : Stook → Stook) : (s.modStook f).parts = s.parts := rfl
@[simp] theorem State.modStook_cores (f : Stook → Stook) : (s.modStook f).cores = s.cores := rfl
@[simp] theorem State.modStook_hbm (f : Stook → Stook) : (s.modStook f).hbm = s.hbm := rfl
@[simp] theorem State.modStook_dies (f : Stook → Stook) : (s.modStook f).dies = s.dies := rfl
@[simp] theorem State.modStook_time (f : Stook → Stook) : (s.modStook f).time = s.time := rfl
@[simp] theorem State.modStook_ltes (f : Stook → Stook) : (s.modStook f).ltes = s.ltes := rfl
@[simp] theorem State.modStook_field (f : Stook → Stook) : (s.modStook f).field = s.field := rfl
@[simp] theorem State.modStook_meas (f : Stook → Stook) : (s.modStook f).meas = s.meas := rfl
@[simp] theorem State.modStook_units (f : Stook → Stook) : (s.modStook f).units = s.units := rfl
@[simp] theorem State.modStook_ctl (f : Stook → Stook) : (s.modStook f).ctl = s.ctl := rfl
@[simp] theorem State.modStook_host (f : Stook → Stook) : (s.modStook f).host = s.host := rfl
@[simp] theorem State.modStook_otp (f : Stook → Stook) : (s.modStook f).otp = s.otp := rfl
@[simp] theorem State.modStook_sec (f : Stook → Stook) : (s.modStook f).sec = s.sec := rfl
@[simp] theorem State.modStook_gran (f : Stook → Stook) : (s.modStook f).gran = s.gran := rfl
@[simp] theorem State.modStook_twin (f : Stook → Stook) : (s.modStook f).twin = s.twin := rfl
@[simp] theorem State.modStook_stook (f : Stook → Stook) : (s.modStook f).stook = f s.stook := rfl

@[simp] theorem State.modOtp_pending (f : Otp → Otp) : (s.modOtp f).pending = s.pending := rfl
@[simp] theorem State.modOtp_free (f : Otp → Otp) : (s.modOtp f).free = s.free := rfl
@[simp] theorem State.modOtp_out (f : Otp → Otp) : (s.modOtp f).out = s.out := rfl
@[simp] theorem State.modOtp_cc (f : Otp → Otp) : (s.modOtp f).cc = s.cc := rfl
@[simp] theorem State.modOtp_opTicks (f : Otp → Otp) : (s.modOtp f).opTicks = s.opTicks := rfl
@[simp] theorem State.modOtp_board (f : Otp → Otp) : (s.modOtp f).board = s.board := rfl
@[simp] theorem State.modOtp_parts (f : Otp → Otp) : (s.modOtp f).parts = s.parts := rfl
@[simp] theorem State.modOtp_cores (f : Otp → Otp) : (s.modOtp f).cores = s.cores := rfl
@[simp] theorem State.modOtp_stook (f : Otp → Otp) : (s.modOtp f).stook = s.stook := rfl
@[simp] theorem State.modOtp_hbm (f : Otp → Otp) : (s.modOtp f).hbm = s.hbm := rfl
@[simp] theorem State.modOtp_dies (f : Otp → Otp) : (s.modOtp f).dies = s.dies := rfl
@[simp] theorem State.modOtp_time (f : Otp → Otp) : (s.modOtp f).time = s.time := rfl
@[simp] theorem State.modOtp_ltes (f : Otp → Otp) : (s.modOtp f).ltes = s.ltes := rfl
@[simp] theorem State.modOtp_field (f : Otp → Otp) : (s.modOtp f).field = s.field := rfl
@[simp] theorem State.modOtp_meas (f : Otp → Otp) : (s.modOtp f).meas = s.meas := rfl
@[simp] theorem State.modOtp_units (f : Otp → Otp) : (s.modOtp f).units = s.units := rfl
@[simp] theorem State.modOtp_ctl (f : Otp → Otp) : (s.modOtp f).ctl = s.ctl := rfl
@[simp] theorem State.modOtp_host (f : Otp → Otp) : (s.modOtp f).host = s.host := rfl
@[simp] theorem State.modOtp_sec (f : Otp → Otp) : (s.modOtp f).sec = s.sec := rfl
@[simp] theorem State.modOtp_gran (f : Otp → Otp) : (s.modOtp f).gran = s.gran := rfl
@[simp] theorem State.modOtp_twin (f : Otp → Otp) : (s.modOtp f).twin = s.twin := rfl
@[simp] theorem State.modOtp_otp (f : Otp → Otp) : (s.modOtp f).otp = f s.otp := rfl

@[simp] theorem State.extend_pending (i code : Nat) (d : Bytes) : (s.extend i code d).pending = s.pending := rfl
@[simp] theorem State.extend_free (i code : Nat) (d : Bytes) : (s.extend i code d).free = s.free := rfl
@[simp] theorem State.extend_out (i code : Nat) (d : Bytes) : (s.extend i code d).out = s.out := rfl
@[simp] theorem State.extend_cc (i code : Nat) (d : Bytes) : (s.extend i code d).cc = s.cc := rfl
@[simp] theorem State.extend_opTicks (i code : Nat) (d : Bytes) : (s.extend i code d).opTicks = s.opTicks := rfl
@[simp] theorem State.extend_board (i code : Nat) (d : Bytes) : (s.extend i code d).board = s.board := rfl
@[simp] theorem State.extend_parts (i code : Nat) (d : Bytes) : (s.extend i code d).parts = s.parts := rfl
@[simp] theorem State.extend_cores (i code : Nat) (d : Bytes) : (s.extend i code d).cores = s.cores := rfl
@[simp] theorem State.extend_stook (i code : Nat) (d : Bytes) : (s.extend i code d).stook = s.stook := rfl
@[simp] theorem State.extend_hbm (i code : Nat) (d : Bytes) : (s.extend i code d).hbm = s.hbm := rfl
@[simp] theorem State.extend_dies (i code : Nat) (d : Bytes) : (s.extend i code d).dies = s.dies := rfl
@[simp] theorem State.extend_time (i code : Nat) (d : Bytes) : (s.extend i code d).time = s.time := rfl
@[simp] theorem State.extend_ltes (i code : Nat) (d : Bytes) : (s.extend i code d).ltes = s.ltes := rfl
@[simp] theorem State.extend_field (i code : Nat) (d : Bytes) : (s.extend i code d).field = s.field := rfl
@[simp] theorem State.extend_meas (i code : Nat) (d : Bytes) : (s.extend i code d).meas = s.meas := rfl
@[simp] theorem State.extend_units (i code : Nat) (d : Bytes) : (s.extend i code d).units = s.units := rfl
@[simp] theorem State.extend_ctl (i code : Nat) (d : Bytes) : (s.extend i code d).ctl = s.ctl := rfl
@[simp] theorem State.extend_host (i code : Nat) (d : Bytes) : (s.extend i code d).host = s.host := rfl
@[simp] theorem State.extend_otp (i code : Nat) (d : Bytes) : (s.extend i code d).otp = s.otp := rfl
@[simp] theorem State.extend_gran (i code : Nat) (d : Bytes) : (s.extend i code d).gran = s.gran := rfl
@[simp] theorem State.extend_twin (i code : Nat) (d : Bytes) : (s.extend i code d).twin = s.twin := rfl

@[simp] theorem State.hostReset_pending : (s.hostReset).pending = s.pending := rfl
@[simp] theorem State.hostReset_free : (s.hostReset).free = s.free := rfl
@[simp] theorem State.hostReset_out : (s.hostReset).out = s.out := rfl
@[simp] theorem State.hostReset_cc : (s.hostReset).cc = s.cc := rfl
@[simp] theorem State.hostReset_opTicks : (s.hostReset).opTicks = s.opTicks := rfl
@[simp] theorem State.hostReset_board : (s.hostReset).board = s.board := rfl
@[simp] theorem State.hostReset_parts : (s.hostReset).parts = s.parts := rfl
@[simp] theorem State.hostReset_cores : (s.hostReset).cores = s.cores := rfl
@[simp] theorem State.hostReset_stook : (s.hostReset).stook = s.stook := rfl
@[simp] theorem State.hostReset_hbm : (s.hostReset).hbm = s.hbm := rfl
@[simp] theorem State.hostReset_dies : (s.hostReset).dies = s.dies := rfl
@[simp] theorem State.hostReset_time : (s.hostReset).time = s.time := rfl
@[simp] theorem State.hostReset_ltes : (s.hostReset).ltes = s.ltes := rfl
@[simp] theorem State.hostReset_field : (s.hostReset).field = s.field := rfl
@[simp] theorem State.hostReset_meas : (s.hostReset).meas = s.meas := rfl
@[simp] theorem State.hostReset_units : (s.hostReset).units = s.units := rfl
@[simp] theorem State.hostReset_ctl : (s.hostReset).ctl = s.ctl := rfl
@[simp] theorem State.hostReset_otp : (s.hostReset).otp = s.otp := rfl
@[simp] theorem State.hostReset_sec : (s.hostReset).sec = s.sec := rfl
@[simp] theorem State.hostReset_gran : (s.hostReset).gran = s.gran := rfl
@[simp] theorem State.hostReset_twin : (s.hostReset).twin = s.twin := rfl

end Sys2Proof.Machine
end

