-- ==== Sys2Proof/Laws/Ops.lean ====
section
/-! SUPPORT. For each shared operation the fields of the state that it leaves as they were, and what it does to those it changes. -/

namespace Sys2Proof.Machine
variable (s : State)

@[simp] theorem State.event_pending (k : Nat) : (s.event k).pending = s.pending := by
  unfold State.event; try dsimp only
  repeat' split
  all_goals first | rfl | simp
@[simp] theorem State.event_free (k : Nat) : (s.event k).free = s.free := by
  unfold State.event; try dsimp only
  repeat' split
  all_goals first | rfl | simp
@[simp] theorem State.event_cc (k : Nat) : (s.event k).cc = s.cc := by
  unfold State.event; try dsimp only
  repeat' split
  all_goals first | rfl | simp
@[simp] theorem State.event_opTicks (k : Nat) : (s.event k).opTicks = s.opTicks := by
  unfold State.event; try dsimp only
  repeat' split
  all_goals first | rfl | simp
@[simp] theorem State.event_board (k : Nat) : (s.event k).board = s.board := by
  unfold State.event; try dsimp only
  repeat' split
  all_goals first | rfl | simp
@[simp] theorem State.event_parts (k : Nat) : (s.event k).parts = s.parts := by
  unfold State.event; try dsimp only
  repeat' split
  all_goals first | rfl | simp
@[simp] theorem State.event_cores (k : Nat) : (s.event k).cores = s.cores := by
  unfold State.event; try dsimp only
  repeat' split
  all_goals first | rfl | simp
@[simp] theorem State.event_stook (k : Nat) : (s.event k).stook = s.stook := by
  unfold State.event; try dsimp only
  repeat' split
  all_goals first | rfl | simp
@[simp] theorem State.event_hbm (k : Nat) : (s.event k).hbm = s.hbm := by
  unfold State.event; try dsimp only
  repeat' split
  all_goals first | rfl | simp
@[simp] theorem State.event_dies (k : Nat) : (s.event k).dies = s.dies := by
  unfold State.event; try dsimp only
  repeat' split
  all_goals first | rfl | simp
@[simp] theorem State.event_time (k : Nat) : (s.event k).time = s.time := by
  unfold State.event; try dsimp only
  repeat' split
  all_goals first | rfl | simp
@[simp] theorem State.event_ltes (k : Nat) : (s.event k).ltes = s.ltes := by
  unfold State.event; try dsimp only
  repeat' split
  all_goals first | rfl | simp
@[simp] theorem State.event_field (k : Nat) : (s.event k).field = s.field := by
  unfold State.event; try dsimp only
  repeat' split
  all_goals first | rfl | simp
@[simp] theorem State.event_meas (k : Nat) : (s.event k).meas = s.meas := by
  unfold State.event; try dsimp only
  repeat' split
  all_goals first | rfl | simp
@[simp] theorem State.event_units (k : Nat) : (s.event k).units = s.units := by
  unfold State.event; try dsimp only
  repeat' split
  all_goals first | rfl | simp
@[simp] theorem State.event_ctl (k : Nat) : (s.event k).ctl = s.ctl := by
  unfold State.event; try dsimp only
  repeat' split
  all_goals first | rfl | simp
@[simp] theorem State.event_otp (k : Nat) : (s.event k).otp = s.otp := by
  unfold State.event; try dsimp only
  repeat' split
  all_goals first | rfl | simp
@[simp] theorem State.event_sec (k : Nat) : (s.event k).sec = s.sec := by
  unfold State.event; try dsimp only
  repeat' split
  all_goals first | rfl | simp
@[simp] theorem State.event_gran (k : Nat) : (s.event k).gran = s.gran := by
  unfold State.event; try dsimp only
  repeat' split
  all_goals first | rfl | simp
@[simp] theorem State.event_twin (k : Nat) : (s.event k).twin = s.twin := by
  unfold State.event; try dsimp only
  repeat' split
  all_goals first | rfl | simp

@[simp] theorem State.record_pending (sev code cls idx : Nat) (d : Bytes) : (s.record sev code cls idx d).pending = s.pending := by
  unfold State.record; try dsimp only
  repeat' split
  all_goals first | rfl | simp
@[simp] theorem State.record_free (sev code cls idx : Nat) (d : Bytes) : (s.record sev code cls idx d).free = s.free := by
  unfold State.record; try dsimp only
  repeat' split
  all_goals first | rfl | simp
@[simp] theorem State.record_cc (sev code cls idx : Nat) (d : Bytes) : (s.record sev code cls idx d).cc = s.cc := by
  unfold State.record; try dsimp only
  repeat' split
  all_goals first | rfl | simp
@[simp] theorem State.record_opTicks (sev code cls idx : Nat) (d : Bytes) : (s.record sev code cls idx d).opTicks = s.opTicks := by
  unfold State.record; try dsimp only
  repeat' split
  all_goals first | rfl | simp
@[simp] theorem State.record_board (sev code cls idx : Nat) (d : Bytes) : (s.record sev code cls idx d).board = s.board := by
  unfold State.record; try dsimp only
  repeat' split
  all_goals first | rfl | simp
@[simp] theorem State.record_parts (sev code cls idx : Nat) (d : Bytes) : (s.record sev code cls idx d).parts = s.parts := by
  unfold State.record; try dsimp only
  repeat' split
  all_goals first | rfl | simp
@[simp] theorem State.record_cores (sev code cls idx : Nat) (d : Bytes) : (s.record sev code cls idx d).cores = s.cores := by
  unfold State.record; try dsimp only
  repeat' split
  all_goals first | rfl | simp
@[simp] theorem State.record_hbm (sev code cls idx : Nat) (d : Bytes) : (s.record sev code cls idx d).hbm = s.hbm := by
  unfold State.record; try dsimp only
  repeat' split
  all_goals first | rfl | simp
@[simp] theorem State.record_dies (sev code cls idx : Nat) (d : Bytes) : (s.record sev code cls idx d).dies = s.dies := by
  unfold State.record; try dsimp only
  repeat' split
  all_goals first | rfl | simp
@[simp] theorem State.record_time (sev code cls idx : Nat) (d : Bytes) : (s.record sev code cls idx d).time = s.time := by
  unfold State.record; try dsimp only
  repeat' split
  all_goals first | rfl | simp
@[simp] theorem State.record_ltes (sev code cls idx : Nat) (d : Bytes) : (s.record sev code cls idx d).ltes = s.ltes := by
  unfold State.record; try dsimp only
  repeat' split
  all_goals first | rfl | simp
@[simp] theorem State.record_field (sev code cls idx : Nat) (d : Bytes) : (s.record sev code cls idx d).field = s.field := by
  unfold State.record; try dsimp only
  repeat' split
  all_goals first | rfl | simp
@[simp] theorem State.record_meas (sev code cls idx : Nat) (d : Bytes) : (s.record sev code cls idx d).meas = s.meas := by
  unfold State.record; try dsimp only
  repeat' split
  all_goals first | rfl | simp
@[simp] theorem State.record_units (sev code cls idx : Nat) (d : Bytes) : (s.record sev code cls idx d).units = s.units := by
  unfold State.record; try dsimp only
  repeat' split
  all_goals first | rfl | simp
@[simp] theorem State.record_ctl (sev code cls idx : Nat) (d : Bytes) : (s.record sev code cls idx d).ctl = s.ctl := by
  unfold State.record; try dsimp only
  repeat' split
  all_goals first | rfl | simp
@[simp] theorem State.record_otp (sev code cls idx : Nat) (d : Bytes) : (s.record sev code cls idx d).otp = s.otp := by
  unfold State.record; try dsimp only
  repeat' split
  all_goals first | rfl | simp
@[simp] theorem State.record_sec (sev code cls idx : Nat) (d : Bytes) : (s.record sev code cls idx d).sec = s.sec := by
  unfold State.record; try dsimp only
  repeat' split
  all_goals first | rfl | simp
@[simp] theorem State.record_gran (sev code cls idx : Nat) (d : Bytes) : (s.record sev code cls idx d).gran = s.gran := by
  unfold State.record; try dsimp only
  repeat' split
  all_goals first | rfl | simp
@[simp] theorem State.record_twin (sev code cls idx : Nat) (d : Bytes) : (s.record sev code cls idx d).twin = s.twin := by
  unfold State.record; try dsimp only
  repeat' split
  all_goals first | rfl | simp

@[simp] theorem State.security_pending (ev : Nat) (d : Bytes) : (s.security ev d).pending = s.pending := by
  unfold State.security
  simp
@[simp] theorem State.security_free (ev : Nat) (d : Bytes) : (s.security ev d).free = s.free := by
  unfold State.security
  simp
@[simp] theorem State.security_cc (ev : Nat) (d : Bytes) : (s.security ev d).cc = s.cc := by
  unfold State.security
  simp
@[simp] theorem State.security_opTicks (ev : Nat) (d : Bytes) : (s.security ev d).opTicks = s.opTicks := by
  unfold State.security
  simp
@[simp] theorem State.security_board (ev : Nat) (d : Bytes) : (s.security ev d).board = s.board := by
  unfold State.security
  simp
@[simp] theorem State.security_parts (ev : Nat) (d : Bytes) : (s.security ev d).parts = s.parts := by
  unfold State.security
  simp
@[simp] theorem State.security_cores (ev : Nat) (d : Bytes) : (s.security ev d).cores = s.cores := by
  unfold State.security
  simp
@[simp] theorem State.security_hbm (ev : Nat) (d : Bytes) : (s.security ev d).hbm = s.hbm := by
  unfold State.security
  simp
@[simp] theorem State.security_dies (ev : Nat) (d : Bytes) : (s.security ev d).dies = s.dies := by
  unfold State.security
  simp
@[simp] theorem State.security_time (ev : Nat) (d : Bytes) : (s.security ev d).time = s.time := by
  unfold State.security
  simp
@[simp] theorem State.security_ltes (ev : Nat) (d : Bytes) : (s.security ev d).ltes = s.ltes := by
  unfold State.security
  simp
@[simp] theorem State.security_field (ev : Nat) (d : Bytes) : (s.security ev d).field = s.field := by
  unfold State.security
  simp
@[simp] theorem State.security_meas (ev : Nat) (d : Bytes) : (s.security ev d).meas = s.meas := by
  unfold State.security
  simp
@[simp] theorem State.security_units (ev : Nat) (d : Bytes) : (s.security ev d).units = s.units := by
  unfold State.security
  simp
@[simp] theorem State.security_ctl (ev : Nat) (d : Bytes) : (s.security ev d).ctl = s.ctl := by
  unfold State.security
  simp
@[simp] theorem State.security_otp (ev : Nat) (d : Bytes) : (s.security ev d).otp = s.otp := by
  unfold State.security
  simp
@[simp] theorem State.security_sec (ev : Nat) (d : Bytes) : (s.security ev d).sec = s.sec := by
  unfold State.security
  simp
@[simp] theorem State.security_gran (ev : Nat) (d : Bytes) : (s.security ev d).gran = s.gran := by
  unfold State.security
  simp
@[simp] theorem State.security_twin (ev : Nat) (d : Bytes) : (s.security ev d).twin = s.twin := by
  unfold State.security
  simp

@[simp] theorem State.securityLimited_pending (ev ms : Nat) : (s.securityLimited ev ms).pending = s.pending := by
  unfold State.securityLimited
  repeat' split
  all_goals simp
@[simp] theorem State.securityLimited_free (ev ms : Nat) : (s.securityLimited ev ms).free = s.free := by
  unfold State.securityLimited
  repeat' split
  all_goals simp
@[simp] theorem State.securityLimited_cc (ev ms : Nat) : (s.securityLimited ev ms).cc = s.cc := by
  unfold State.securityLimited
  repeat' split
  all_goals simp
@[simp] theorem State.securityLimited_opTicks (ev ms : Nat) : (s.securityLimited ev ms).opTicks = s.opTicks := by
  unfold State.securityLimited
  repeat' split
  all_goals simp
@[simp] theorem State.securityLimited_board (ev ms : Nat) : (s.securityLimited ev ms).board = s.board := by
  unfold State.securityLimited
  repeat' split
  all_goals simp
@[simp] theorem State.securityLimited_parts (ev ms : Nat) : (s.securityLimited ev ms).parts = s.parts := by
  unfold State.securityLimited
  repeat' split
  all_goals simp
@[simp] theorem State.securityLimited_cores (ev ms : Nat) : (s.securityLimited ev ms).cores = s.cores := by
  unfold State.securityLimited
  repeat' split
  all_goals simp
@[simp] theorem State.securityLimited_hbm (ev ms : Nat) : (s.securityLimited ev ms).hbm = s.hbm := by
  unfold State.securityLimited
  repeat' split
  all_goals simp
@[simp] theorem State.securityLimited_dies (ev ms : Nat) : (s.securityLimited ev ms).dies = s.dies := by
  unfold State.securityLimited
  repeat' split
  all_goals simp
@[simp] theorem State.securityLimited_time (ev ms : Nat) : (s.securityLimited ev ms).time = s.time := by
  unfold State.securityLimited
  repeat' split
  all_goals simp
@[simp] theorem State.securityLimited_ltes (ev ms : Nat) : (s.securityLimited ev ms).ltes = s.ltes := by
  unfold State.securityLimited
  repeat' split
  all_goals simp
@[simp] theorem State.securityLimited_field (ev ms : Nat) : (s.securityLimited ev ms).field = s.field := by
  unfold State.securityLimited
  repeat' split
  all_goals simp
@[simp] theorem State.securityLimited_meas (ev ms : Nat) : (s.securityLimited ev ms).meas = s.meas := by
  unfold State.securityLimited
  repeat' split
  all_goals simp
@[simp] theorem State.securityLimited_units (ev ms : Nat) : (s.securityLimited ev ms).units = s.units := by
  unfold State.securityLimited
  repeat' split
  all_goals simp
@[simp] theorem State.securityLimited_ctl (ev ms : Nat) : (s.securityLimited ev ms).ctl = s.ctl := by
  unfold State.securityLimited
  repeat' split
  all_goals simp
@[simp] theorem State.securityLimited_otp (ev ms : Nat) : (s.securityLimited ev ms).otp = s.otp := by
  unfold State.securityLimited
  repeat' split
  all_goals simp
@[simp] theorem State.securityLimited_gran (ev ms : Nat) : (s.securityLimited ev ms).gran = s.gran := by
  unfold State.securityLimited
  repeat' split
  all_goals simp
@[simp] theorem State.securityLimited_twin (ev ms : Nat) : (s.securityLimited ev ms).twin = s.twin := by
  unfold State.securityLimited
  repeat' split
  all_goals simp

@[simp] theorem State.toModule_pending (m : Nat) : (s.toModule m).pending = s.pending := by
  unfold State.toModule
  split <;> simp
@[simp] theorem State.toModule_free (m : Nat) : (s.toModule m).free = s.free := by
  unfold State.toModule
  split <;> simp
@[simp] theorem State.toModule_cc (m : Nat) : (s.toModule m).cc = s.cc := by
  unfold State.toModule
  split <;> simp
@[simp] theorem State.toModule_opTicks (m : Nat) : (s.toModule m).opTicks = s.opTicks := by
  unfold State.toModule
  split <;> simp
@[simp] theorem State.toModule_board (m : Nat) : (s.toModule m).board = s.board := by
  unfold State.toModule
  split <;> simp
@[simp] theorem State.toModule_parts (m : Nat) : (s.toModule m).parts = s.parts := by
  unfold State.toModule
  split <;> simp
@[simp] theorem State.toModule_cores (m : Nat) : (s.toModule m).cores = s.cores := by
  unfold State.toModule
  split <;> simp
@[simp] theorem State.toModule_hbm (m : Nat) : (s.toModule m).hbm = s.hbm := by
  unfold State.toModule
  split <;> simp
@[simp] theorem State.toModule_dies (m : Nat) : (s.toModule m).dies = s.dies := by
  unfold State.toModule
  split <;> simp
@[simp] theorem State.toModule_time (m : Nat) : (s.toModule m).time = s.time := by
  unfold State.toModule
  split <;> simp
@[simp] theorem State.toModule_ltes (m : Nat) : (s.toModule m).ltes = s.ltes := by
  unfold State.toModule
  split <;> simp
@[simp] theorem State.toModule_field (m : Nat) : (s.toModule m).field = s.field := by
  unfold State.toModule
  split <;> simp
@[simp] theorem State.toModule_meas (m : Nat) : (s.toModule m).meas = s.meas := by
  unfold State.toModule
  split <;> simp
@[simp] theorem State.toModule_units (m : Nat) : (s.toModule m).units = s.units := by
  unfold State.toModule
  split <;> simp
@[simp] theorem State.toModule_otp (m : Nat) : (s.toModule m).otp = s.otp := by
  unfold State.toModule
  split <;> simp
@[simp] theorem State.toModule_sec (m : Nat) : (s.toModule m).sec = s.sec := by
  unfold State.toModule
  split <;> simp
@[simp] theorem State.toModule_gran (m : Nat) : (s.toModule m).gran = s.gran := by
  unfold State.toModule
  split <;> simp
@[simp] theorem State.toModule_twin (m : Nat) : (s.toModule m).twin = s.twin := by
  unfold State.toModule
  split <;> simp

@[simp] theorem State.degrade_pending : (s.degrade).pending = s.pending := by
  unfold State.degrade
  split <;> simp
@[simp] theorem State.degrade_free : (s.degrade).free = s.free := by
  unfold State.degrade
  split <;> simp
@[simp] theorem State.degrade_cc : (s.degrade).cc = s.cc := by
  unfold State.degrade
  split <;> simp
@[simp] theorem State.degrade_opTicks : (s.degrade).opTicks = s.opTicks := by
  unfold State.degrade
  split <;> simp
@[simp] theorem State.degrade_board : (s.degrade).board = s.board := by
  unfold State.degrade
  split <;> simp
@[simp] theorem State.degrade_parts : (s.degrade).parts = s.parts := by
  unfold State.degrade
  split <;> simp
@[simp] theorem State.degrade_cores : (s.degrade).cores = s.cores := by
  unfold State.degrade
  split <;> simp
@[simp] theorem State.degrade_hbm : (s.degrade).hbm = s.hbm := by
  unfold State.degrade
  split <;> simp
@[simp] theorem State.degrade_dies : (s.degrade).dies = s.dies := by
  unfold State.degrade
  split <;> simp
@[simp] theorem State.degrade_time : (s.degrade).time = s.time := by
  unfold State.degrade
  split <;> simp
@[simp] theorem State.degrade_ltes : (s.degrade).ltes = s.ltes := by
  unfold State.degrade
  split <;> simp
@[simp] theorem State.degrade_field : (s.degrade).field = s.field := by
  unfold State.degrade
  split <;> simp
@[simp] theorem State.degrade_meas : (s.degrade).meas = s.meas := by
  unfold State.degrade
  split <;> simp
@[simp] theorem State.degrade_units : (s.degrade).units = s.units := by
  unfold State.degrade
  split <;> simp
@[simp] theorem State.degrade_otp : (s.degrade).otp = s.otp := by
  unfold State.degrade
  split <;> simp
@[simp] theorem State.degrade_sec : (s.degrade).sec = s.sec := by
  unfold State.degrade
  split <;> simp
@[simp] theorem State.degrade_gran : (s.degrade).gran = s.gran := by
  unfold State.degrade
  split <;> simp
@[simp] theorem State.degrade_twin : (s.degrade).twin = s.twin := by
  unfold State.degrade
  split <;> simp

@[simp] theorem State.tagFailed_pending : (s.tagFailed).pending = s.pending := by
  unfold State.tagFailed; try dsimp only
  repeat' split
  all_goals first | rfl | simp
@[simp] theorem State.tagFailed_free : (s.tagFailed).free = s.free := by
  unfold State.tagFailed; try dsimp only
  repeat' split
  all_goals first | rfl | simp
@[simp] theorem State.tagFailed_cc : (s.tagFailed).cc = s.cc := by
  unfold State.tagFailed; try dsimp only
  repeat' split
  all_goals first | rfl | simp
@[simp] theorem State.tagFailed_opTicks : (s.tagFailed).opTicks = s.opTicks := by
  unfold State.tagFailed; try dsimp only
  repeat' split
  all_goals first | rfl | simp
@[simp] theorem State.tagFailed_board : (s.tagFailed).board = s.board := by
  unfold State.tagFailed; try dsimp only
  repeat' split
  all_goals first | rfl | simp
@[simp] theorem State.tagFailed_parts : (s.tagFailed).parts = s.parts := by
  unfold State.tagFailed; try dsimp only
  repeat' split
  all_goals first | rfl | simp
@[simp] theorem State.tagFailed_cores : (s.tagFailed).cores = s.cores := by
  unfold State.tagFailed; try dsimp only
  repeat' split
  all_goals first | rfl | simp
@[simp] theorem State.tagFailed_hbm : (s.tagFailed).hbm = s.hbm := by
  unfold State.tagFailed; try dsimp only
  repeat' split
  all_goals first | rfl | simp
@[simp] theorem State.tagFailed_dies : (s.tagFailed).dies = s.dies := by
  unfold State.tagFailed; try dsimp only
  repeat' split
  all_goals first | rfl | simp
@[simp] theorem State.tagFailed_time : (s.tagFailed).time = s.time := by
  unfold State.tagFailed; try dsimp only
  repeat' split
  all_goals first | rfl | simp
@[simp] theorem State.tagFailed_ltes : (s.tagFailed).ltes = s.ltes := by
  unfold State.tagFailed; try dsimp only
  repeat' split
  all_goals first | rfl | simp
@[simp] theorem State.tagFailed_field : (s.tagFailed).field = s.field := by
  unfold State.tagFailed; try dsimp only
  repeat' split
  all_goals first | rfl | simp
@[simp] theorem State.tagFailed_meas : (s.tagFailed).meas = s.meas := by
  unfold State.tagFailed; try dsimp only
  repeat' split
  all_goals first | rfl | simp
@[simp] theorem State.tagFailed_units : (s.tagFailed).units = s.units := by
  unfold State.tagFailed; try dsimp only
  repeat' split
  all_goals first | rfl | simp
@[simp] theorem State.tagFailed_ctl : (s.tagFailed).ctl = s.ctl := by
  unfold State.tagFailed; try dsimp only
  repeat' split
  all_goals first | rfl | simp
@[simp] theorem State.tagFailed_otp : (s.tagFailed).otp = s.otp := by
  unfold State.tagFailed; try dsimp only
  repeat' split
  all_goals first | rfl | simp
@[simp] theorem State.tagFailed_gran : (s.tagFailed).gran = s.gran := by
  unfold State.tagFailed; try dsimp only
  repeat' split
  all_goals first | rfl | simp
@[simp] theorem State.tagFailed_twin : (s.tagFailed).twin = s.twin := by
  unfold State.tagFailed; try dsimp only
  repeat' split
  all_goals first | rfl | simp

@[simp] theorem State.vector_pending (v : Nat) : (s.vector v).pending = s.pending := by
  unfold State.vector; try dsimp only
  repeat' split
  all_goals first | rfl | simp
@[simp] theorem State.vector_free (v : Nat) : (s.vector v).free = s.free := by
  unfold State.vector; try dsimp only
  repeat' split
  all_goals first | rfl | simp
@[simp] theorem State.vector_cc (v : Nat) : (s.vector v).cc = s.cc := by
  unfold State.vector; try dsimp only
  repeat' split
  all_goals first | rfl | simp
@[simp] theorem State.vector_opTicks (v : Nat) : (s.vector v).opTicks = s.opTicks := by
  unfold State.vector; try dsimp only
  repeat' split
  all_goals first | rfl | simp
@[simp] theorem State.vector_board (v : Nat) : (s.vector v).board = s.board := by
  unfold State.vector; try dsimp only
  repeat' split
  all_goals first | rfl | simp
@[simp] theorem State.vector_parts (v : Nat) : (s.vector v).parts = s.parts := by
  unfold State.vector; try dsimp only
  repeat' split
  all_goals first | rfl | simp
@[simp] theorem State.vector_cores (v : Nat) : (s.vector v).cores = s.cores := by
  unfold State.vector; try dsimp only
  repeat' split
  all_goals first | rfl | simp
@[simp] theorem State.vector_stook (v : Nat) : (s.vector v).stook = s.stook := by
  unfold State.vector; try dsimp only
  repeat' split
  all_goals first | rfl | simp
@[simp] theorem State.vector_hbm (v : Nat) : (s.vector v).hbm = s.hbm := by
  unfold State.vector; try dsimp only
  repeat' split
  all_goals first | rfl | simp
@[simp] theorem State.vector_dies (v : Nat) : (s.vector v).dies = s.dies := by
  unfold State.vector; try dsimp only
  repeat' split
  all_goals first | rfl | simp
@[simp] theorem State.vector_time (v : Nat) : (s.vector v).time = s.time := by
  unfold State.vector; try dsimp only
  repeat' split
  all_goals first | rfl | simp
@[simp] theorem State.vector_ltes (v : Nat) : (s.vector v).ltes = s.ltes := by
  unfold State.vector; try dsimp only
  repeat' split
  all_goals first | rfl | simp
@[simp] theorem State.vector_field (v : Nat) : (s.vector v).field = s.field := by
  unfold State.vector; try dsimp only
  repeat' split
  all_goals first | rfl | simp
@[simp] theorem State.vector_meas (v : Nat) : (s.vector v).meas = s.meas := by
  unfold State.vector; try dsimp only
  repeat' split
  all_goals first | rfl | simp
@[simp] theorem State.vector_units (v : Nat) : (s.vector v).units = s.units := by
  unfold State.vector; try dsimp only
  repeat' split
  all_goals first | rfl | simp
@[simp] theorem State.vector_ctl (v : Nat) : (s.vector v).ctl = s.ctl := by
  unfold State.vector; try dsimp only
  repeat' split
  all_goals first | rfl | simp
@[simp] theorem State.vector_otp (v : Nat) : (s.vector v).otp = s.otp := by
  unfold State.vector; try dsimp only
  repeat' split
  all_goals first | rfl | simp
@[simp] theorem State.vector_sec (v : Nat) : (s.vector v).sec = s.sec := by
  unfold State.vector; try dsimp only
  repeat' split
  all_goals first | rfl | simp
@[simp] theorem State.vector_gran (v : Nat) : (s.vector v).gran = s.gran := by
  unfold State.vector; try dsimp only
  repeat' split
  all_goals first | rfl | simp
@[simp] theorem State.vector_twin (v : Nat) : (s.vector v).twin = s.twin := by
  unfold State.vector; try dsimp only
  repeat' split
  all_goals first | rfl | simp

@[simp] theorem State.finish_pending (n st : Nat) (d : Bytes) : (s.finish n st d).pending = s.pending := by
  unfold State.finish; try dsimp only
  repeat' split
  all_goals first | rfl | simp
@[simp] theorem State.finish_free (n st : Nat) (d : Bytes) : (s.finish n st d).free = s.free := by
  unfold State.finish; try dsimp only
  repeat' split
  all_goals first | rfl | simp
@[simp] theorem State.finish_cc (n st : Nat) (d : Bytes) : (s.finish n st d).cc = s.cc := by
  unfold State.finish; try dsimp only
  repeat' split
  all_goals first | rfl | simp
@[simp] theorem State.finish_opTicks (n st : Nat) (d : Bytes) : (s.finish n st d).opTicks = s.opTicks := by
  unfold State.finish; try dsimp only
  repeat' split
  all_goals first | rfl | simp
@[simp] theorem State.finish_board (n st : Nat) (d : Bytes) : (s.finish n st d).board = s.board := by
  unfold State.finish; try dsimp only
  repeat' split
  all_goals first | rfl | simp
@[simp] theorem State.finish_parts (n st : Nat) (d : Bytes) : (s.finish n st d).parts = s.parts := by
  unfold State.finish; try dsimp only
  repeat' split
  all_goals first | rfl | simp
@[simp] theorem State.finish_cores (n st : Nat) (d : Bytes) : (s.finish n st d).cores = s.cores := by
  unfold State.finish; try dsimp only
  repeat' split
  all_goals first | rfl | simp
@[simp] theorem State.finish_stook (n st : Nat) (d : Bytes) : (s.finish n st d).stook = s.stook := by
  unfold State.finish; try dsimp only
  repeat' split
  all_goals first | rfl | simp
@[simp] theorem State.finish_hbm (n st : Nat) (d : Bytes) : (s.finish n st d).hbm = s.hbm := by
  unfold State.finish; try dsimp only
  repeat' split
  all_goals first | rfl | simp
@[simp] theorem State.finish_dies (n st : Nat) (d : Bytes) : (s.finish n st d).dies = s.dies := by
  unfold State.finish; try dsimp only
  repeat' split
  all_goals first | rfl | simp
@[simp] theorem State.finish_time (n st : Nat) (d : Bytes) : (s.finish n st d).time = s.time := by
  unfold State.finish; try dsimp only
  repeat' split
  all_goals first | rfl | simp
@[simp] theorem State.finish_ltes (n st : Nat) (d : Bytes) : (s.finish n st d).ltes = s.ltes := by
  unfold State.finish; try dsimp only
  repeat' split
  all_goals first | rfl | simp
@[simp] theorem State.finish_field (n st : Nat) (d : Bytes) : (s.finish n st d).field = s.field := by
  unfold State.finish; try dsimp only
  repeat' split
  all_goals first | rfl | simp
@[simp] theorem State.finish_meas (n st : Nat) (d : Bytes) : (s.finish n st d).meas = s.meas := by
  unfold State.finish; try dsimp only
  repeat' split
  all_goals first | rfl | simp
@[simp] theorem State.finish_units (n st : Nat) (d : Bytes) : (s.finish n st d).units = s.units := by
  unfold State.finish; try dsimp only
  repeat' split
  all_goals first | rfl | simp
@[simp] theorem State.finish_ctl (n st : Nat) (d : Bytes) : (s.finish n st d).ctl = s.ctl := by
  unfold State.finish; try dsimp only
  repeat' split
  all_goals first | rfl | simp
@[simp] theorem State.finish_otp (n st : Nat) (d : Bytes) : (s.finish n st d).otp = s.otp := by
  unfold State.finish; try dsimp only
  repeat' split
  all_goals first | rfl | simp
@[simp] theorem State.finish_sec (n st : Nat) (d : Bytes) : (s.finish n st d).sec = s.sec := by
  unfold State.finish; try dsimp only
  repeat' split
  all_goals first | rfl | simp
@[simp] theorem State.finish_gran (n st : Nat) (d : Bytes) : (s.finish n st d).gran = s.gran := by
  unfold State.finish; try dsimp only
  repeat' split
  all_goals first | rfl | simp
@[simp] theorem State.finish_twin (n st : Nat) (d : Bytes) : (s.finish n st d).twin = s.twin := by
  unfold State.finish; try dsimp only
  repeat' split
  all_goals first | rfl | simp

@[simp] theorem State.announce_pending (p kind : Nat) (a : Option (Nat × Nat × Nat)) : (s.announce p kind a).pending = s.pending := rfl
@[simp] theorem State.announce_free (p kind : Nat) (a : Option (Nat × Nat × Nat)) : (s.announce p kind a).free = s.free := rfl
@[simp] theorem State.announce_out (p kind : Nat) (a : Option (Nat × Nat × Nat)) : (s.announce p kind a).out = s.out := rfl
@[simp] theorem State.announce_cc (p kind : Nat) (a : Option (Nat × Nat × Nat)) : (s.announce p kind a).cc = s.cc := rfl
@[simp] theorem State.announce_opTicks (p kind : Nat) (a : Option (Nat × Nat × Nat)) : (s.announce p kind a).opTicks = s.opTicks := rfl
@[simp] theorem State.announce_board (p kind : Nat) (a : Option (Nat × Nat × Nat)) : (s.announce p kind a).board = s.board := rfl
@[simp] theorem State.announce_cores (p kind : Nat) (a : Option (Nat × Nat × Nat)) : (s.announce p kind a).cores = s.cores := rfl
@[simp] theorem State.announce_stook (p kind : Nat) (a : Option (Nat × Nat × Nat)) : (s.announce p kind a).stook = s.stook := rfl
@[simp] theorem State.announce_hbm (p kind : Nat) (a : Option (Nat × Nat × Nat)) : (s.announce p kind a).hbm = s.hbm := rfl
@[simp] theorem State.announce_dies (p kind : Nat) (a : Option (Nat × Nat × Nat)) : (s.announce p kind a).dies = s.dies := rfl
@[simp] theorem State.announce_time (p kind : Nat) (a : Option (Nat × Nat × Nat)) : (s.announce p kind a).time = s.time := rfl
@[simp] theorem State.announce_ltes (p kind : Nat) (a : Option (Nat × Nat × Nat)) : (s.announce p kind a).ltes = s.ltes := rfl
@[simp] theorem State.announce_field (p kind : Nat) (a : Option (Nat × Nat × Nat)) : (s.announce p kind a).field = s.field := rfl
@[simp] theorem State.announce_meas (p kind : Nat) (a : Option (Nat × Nat × Nat)) : (s.announce p kind a).meas = s.meas := rfl
@[simp] theorem State.announce_units (p kind : Nat) (a : Option (Nat × Nat × Nat)) : (s.announce p kind a).units = s.units := rfl
@[simp] theorem State.announce_ctl (p kind : Nat) (a : Option (Nat × Nat × Nat)) : (s.announce p kind a).ctl = s.ctl := rfl
@[simp] theorem State.announce_host (p kind : Nat) (a : Option (Nat × Nat × Nat)) : (s.announce p kind a).host = s.host := rfl
@[simp] theorem State.announce_otp (p kind : Nat) (a : Option (Nat × Nat × Nat)) : (s.announce p kind a).otp = s.otp := rfl
@[simp] theorem State.announce_sec (p kind : Nat) (a : Option (Nat × Nat × Nat)) : (s.announce p kind a).sec = s.sec := rfl
@[simp] theorem State.announce_gran (p kind : Nat) (a : Option (Nat × Nat × Nat)) : (s.announce p kind a).gran = s.gran := rfl
@[simp] theorem State.announce_twin (p kind : Nat) (a : Option (Nat × Nat × Nat)) : (s.announce p kind a).twin = s.twin := rfl

@[simp] theorem State.announceEnd_pending (p : Nat) (f : Hold → Bool) : (s.announceEnd p f).pending = s.pending := rfl
@[simp] theorem State.announceEnd_free (p : Nat) (f : Hold → Bool) : (s.announceEnd p f).free = s.free := rfl
@[simp] theorem State.announceEnd_out (p : Nat) (f : Hold → Bool) : (s.announceEnd p f).out = s.out := rfl
@[simp] theorem State.announceEnd_cc (p : Nat) (f : Hold → Bool) : (s.announceEnd p f).cc = s.cc := rfl
@[simp] theorem State.announceEnd_opTicks (p : Nat) (f : Hold → Bool) : (s.announceEnd p f).opTicks = s.opTicks := rfl
@[simp] theorem State.announceEnd_board (p : Nat) (f : Hold → Bool) : (s.announceEnd p f).board = s.board := rfl
@[simp] theorem State.announceEnd_cores (p : Nat) (f : Hold → Bool) : (s.announceEnd p f).cores = s.cores := rfl
@[simp] theorem State.announceEnd_stook (p : Nat) (f : Hold → Bool) : (s.announceEnd p f).stook = s.stook := rfl
@[simp] theorem State.announceEnd_hbm (p : Nat) (f : Hold → Bool) : (s.announceEnd p f).hbm = s.hbm := rfl
@[simp] theorem State.announceEnd_dies (p : Nat) (f : Hold → Bool) : (s.announceEnd p f).dies = s.dies := rfl
@[simp] theorem State.announceEnd_time (p : Nat) (f : Hold → Bool) : (s.announceEnd p f).time = s.time := rfl
@[simp] theorem State.announceEnd_ltes (p : Nat) (f : Hold → Bool) : (s.announceEnd p f).ltes = s.ltes := rfl
@[simp] theorem State.announceEnd_field (p : Nat) (f : Hold → Bool) : (s.announceEnd p f).field = s.field := rfl
@[simp] theorem State.announceEnd_meas (p : Nat) (f : Hold → Bool) : (s.announceEnd p f).meas = s.meas := rfl
@[simp] theorem State.announceEnd_units (p : Nat) (f : Hold → Bool) : (s.announceEnd p f).units = s.units := rfl
@[simp] theorem State.announceEnd_ctl (p : Nat) (f : Hold → Bool) : (s.announceEnd p f).ctl = s.ctl := rfl
@[simp] theorem State.announceEnd_host (p : Nat) (f : Hold → Bool) : (s.announceEnd p f).host = s.host := rfl
@[simp] theorem State.announceEnd_otp (p : Nat) (f : Hold → Bool) : (s.announceEnd p f).otp = s.otp := rfl
@[simp] theorem State.announceEnd_sec (p : Nat) (f : Hold → Bool) : (s.announceEnd p f).sec = s.sec := rfl
@[simp] theorem State.announceEnd_gran (p : Nat) (f : Hold → Bool) : (s.announceEnd p f).gran = s.gran := rfl
@[simp] theorem State.announceEnd_twin (p : Nat) (f : Hold → Bool) : (s.announceEnd p f).twin = s.twin := rfl

@[simp] theorem State.toState_pending (p : Nat) (st : PState) : (s.toState p st).pending = s.pending := by
  unfold State.toState; try dsimp only
  repeat' split
  all_goals first | rfl | simp
@[simp] theorem State.toState_free (p : Nat) (st : PState) : (s.toState p st).free = s.free := by
  unfold State.toState; try dsimp only
  repeat' split
  all_goals first | rfl | simp
@[simp] theorem State.toState_cc (p : Nat) (st : PState) : (s.toState p st).cc = s.cc := by
  unfold State.toState; try dsimp only
  repeat' split
  all_goals first | rfl | simp
@[simp] theorem State.toState_opTicks (p : Nat) (st : PState) : (s.toState p st).opTicks = s.opTicks := by
  unfold State.toState; try dsimp only
  repeat' split
  all_goals first | rfl | simp
@[simp] theorem State.toState_board (p : Nat) (st : PState) : (s.toState p st).board = s.board := by
  unfold State.toState; try dsimp only
  repeat' split
  all_goals first | rfl | simp
@[simp] theorem State.toState_cores (p : Nat) (st : PState) : (s.toState p st).cores = s.cores := by
  unfold State.toState; try dsimp only
  repeat' split
  all_goals first | rfl | simp
@[simp] theorem State.toState_hbm (p : Nat) (st : PState) : (s.toState p st).hbm = s.hbm := by
  unfold State.toState; try dsimp only
  repeat' split
  all_goals first | rfl | simp
@[simp] theorem State.toState_dies (p : Nat) (st : PState) : (s.toState p st).dies = s.dies := by
  unfold State.toState; try dsimp only
  repeat' split
  all_goals first | rfl | simp
@[simp] theorem State.toState_time (p : Nat) (st : PState) : (s.toState p st).time = s.time := by
  unfold State.toState; try dsimp only
  repeat' split
  all_goals first | rfl | simp
@[simp] theorem State.toState_ltes (p : Nat) (st : PState) : (s.toState p st).ltes = s.ltes := by
  unfold State.toState; try dsimp only
  repeat' split
  all_goals first | rfl | simp
@[simp] theorem State.toState_field (p : Nat) (st : PState) : (s.toState p st).field = s.field := by
  unfold State.toState; try dsimp only
  repeat' split
  all_goals first | rfl | simp
@[simp] theorem State.toState_meas (p : Nat) (st : PState) : (s.toState p st).meas = s.meas := by
  unfold State.toState; try dsimp only
  repeat' split
  all_goals first | rfl | simp
@[simp] theorem State.toState_units (p : Nat) (st : PState) : (s.toState p st).units = s.units := by
  unfold State.toState; try dsimp only
  repeat' split
  all_goals first | rfl | simp
@[simp] theorem State.toState_ctl (p : Nat) (st : PState) : (s.toState p st).ctl = s.ctl := by
  unfold State.toState; try dsimp only
  repeat' split
  all_goals first | rfl | simp
@[simp] theorem State.toState_otp (p : Nat) (st : PState) : (s.toState p st).otp = s.otp := by
  unfold State.toState; try dsimp only
  repeat' split
  all_goals first | rfl | simp
@[simp] theorem State.toState_sec (p : Nat) (st : PState) : (s.toState p st).sec = s.sec := by
  unfold State.toState; try dsimp only
  repeat' split
  all_goals first | rfl | simp
@[simp] theorem State.toState_gran (p : Nat) (st : PState) : (s.toState p st).gran = s.gran := by
  unfold State.toState; try dsimp only
  repeat' split
  all_goals first | rfl | simp
@[simp] theorem State.toState_twin (p : Nat) (st : PState) : (s.toState p st).twin = s.twin := by
  unfold State.toState; try dsimp only
  repeat' split
  all_goals first | rfl | simp

@[simp] theorem State.partFault_pending (p : Nat) (f : FaultId) (cls idx tag : Nat) : (s.partFault p f cls idx tag).pending = s.pending := by
  unfold State.partFault; try dsimp only
  repeat' split
  all_goals first | rfl | simp
@[simp] theorem State.partFault_free (p : Nat) (f : FaultId) (cls idx tag : Nat) : (s.partFault p f cls idx tag).free = s.free := by
  unfold State.partFault; try dsimp only
  repeat' split
  all_goals first | rfl | simp
@[simp] theorem State.partFault_cc (p : Nat) (f : FaultId) (cls idx tag : Nat) : (s.partFault p f cls idx tag).cc = s.cc := by
  unfold State.partFault; try dsimp only
  repeat' split
  all_goals first | rfl | simp
@[simp] theorem State.partFault_opTicks (p : Nat) (f : FaultId) (cls idx tag : Nat) : (s.partFault p f cls idx tag).opTicks = s.opTicks := by
  unfold State.partFault; try dsimp only
  repeat' split
  all_goals first | rfl | simp
@[simp] theorem State.partFault_board (p : Nat) (f : FaultId) (cls idx tag : Nat) : (s.partFault p f cls idx tag).board = s.board := by
  unfold State.partFault; try dsimp only
  repeat' split
  all_goals first | rfl | simp
@[simp] theorem State.partFault_cores (p : Nat) (f : FaultId) (cls idx tag : Nat) : (s.partFault p f cls idx tag).cores = s.cores := by
  unfold State.partFault; try dsimp only
  repeat' split
  all_goals first | rfl | simp
@[simp] theorem State.partFault_hbm (p : Nat) (f : FaultId) (cls idx tag : Nat) : (s.partFault p f cls idx tag).hbm = s.hbm := by
  unfold State.partFault; try dsimp only
  repeat' split
  all_goals first | rfl | simp
@[simp] theorem State.partFault_dies (p : Nat) (f : FaultId) (cls idx tag : Nat) : (s.partFault p f cls idx tag).dies = s.dies := by
  unfold State.partFault; try dsimp only
  repeat' split
  all_goals first | rfl | simp
@[simp] theorem State.partFault_time (p : Nat) (f : FaultId) (cls idx tag : Nat) : (s.partFault p f cls idx tag).time = s.time := by
  unfold State.partFault; try dsimp only
  repeat' split
  all_goals first | rfl | simp
@[simp] theorem State.partFault_ltes (p : Nat) (f : FaultId) (cls idx tag : Nat) : (s.partFault p f cls idx tag).ltes = s.ltes := by
  unfold State.partFault; try dsimp only
  repeat' split
  all_goals first | rfl | simp
@[simp] theorem State.partFault_field (p : Nat) (f : FaultId) (cls idx tag : Nat) : (s.partFault p f cls idx tag).field = s.field := by
  unfold State.partFault; try dsimp only
  repeat' split
  all_goals first | rfl | simp
@[simp] theorem State.partFault_meas (p : Nat) (f : FaultId) (cls idx tag : Nat) : (s.partFault p f cls idx tag).meas = s.meas := by
  unfold State.partFault; try dsimp only
  repeat' split
  all_goals first | rfl | simp
@[simp] theorem State.partFault_units (p : Nat) (f : FaultId) (cls idx tag : Nat) : (s.partFault p f cls idx tag).units = s.units := by
  unfold State.partFault; try dsimp only
  repeat' split
  all_goals first | rfl | simp
@[simp] theorem State.partFault_ctl (p : Nat) (f : FaultId) (cls idx tag : Nat) : (s.partFault p f cls idx tag).ctl = s.ctl := by
  unfold State.partFault; try dsimp only
  repeat' split
  all_goals first | rfl | simp
@[simp] theorem State.partFault_otp (p : Nat) (f : FaultId) (cls idx tag : Nat) : (s.partFault p f cls idx tag).otp = s.otp := by
  unfold State.partFault; try dsimp only
  repeat' split
  all_goals first | rfl | simp
@[simp] theorem State.partFault_sec (p : Nat) (f : FaultId) (cls idx tag : Nat) : (s.partFault p f cls idx tag).sec = s.sec := by
  unfold State.partFault; try dsimp only
  repeat' split
  all_goals first | rfl | simp
@[simp] theorem State.partFault_gran (p : Nat) (f : FaultId) (cls idx tag : Nat) : (s.partFault p f cls idx tag).gran = s.gran := by
  unfold State.partFault; try dsimp only
  repeat' split
  all_goals first | rfl | simp
@[simp] theorem State.partFault_twin (p : Nat) (f : FaultId) (cls idx tag : Nat) : (s.partFault p f cls idx tag).twin = s.twin := by
  unfold State.partFault; try dsimp only
  repeat' split
  all_goals first | rfl | simp

@[simp] theorem State.coreFault_pending (c e tag cause place : Nat) : (s.coreFault c e tag cause place).pending = s.pending := by
  unfold State.coreFault
  split <;> simp [State.snap, State.modImg]
@[simp] theorem State.coreFault_free (c e tag cause place : Nat) : (s.coreFault c e tag cause place).free = s.free := by
  unfold State.coreFault
  split <;> simp [State.snap, State.modImg]
@[simp] theorem State.coreFault_cc (c e tag cause place : Nat) : (s.coreFault c e tag cause place).cc = s.cc := by
  unfold State.coreFault
  split <;> simp [State.snap, State.modImg]
@[simp] theorem State.coreFault_opTicks (c e tag cause place : Nat) : (s.coreFault c e tag cause place).opTicks = s.opTicks := by
  unfold State.coreFault
  split <;> simp [State.snap, State.modImg]
@[simp] theorem State.coreFault_board (c e tag cause place : Nat) : (s.coreFault c e tag cause place).board = s.board := by
  unfold State.coreFault
  split <;> simp [State.snap, State.modImg]
@[simp] theorem State.coreFault_hbm (c e tag cause place : Nat) : (s.coreFault c e tag cause place).hbm = s.hbm := by
  unfold State.coreFault
  split <;> simp [State.snap, State.modImg]
@[simp] theorem State.coreFault_dies (c e tag cause place : Nat) : (s.coreFault c e tag cause place).dies = s.dies := by
  unfold State.coreFault
  split <;> simp [State.snap, State.modImg]
@[simp] theorem State.coreFault_time (c e tag cause place : Nat) : (s.coreFault c e tag cause place).time = s.time := by
  unfold State.coreFault
  split <;> simp [State.snap, State.modImg]
@[simp] theorem State.coreFault_ltes (c e tag cause place : Nat) : (s.coreFault c e tag cause place).ltes = s.ltes := by
  unfold State.coreFault
  split <;> simp [State.snap, State.modImg]
@[simp] theorem State.coreFault_field (c e tag cause place : Nat) : (s.coreFault c e tag cause place).field = s.field := by
  unfold State.coreFault
  split <;> simp [State.snap, State.modImg]
@[simp] theorem State.coreFault_meas (c e tag cause place : Nat) : (s.coreFault c e tag cause place).meas = s.meas := by
  unfold State.coreFault
  split <;> simp [State.snap, State.modImg]
@[simp] theorem State.coreFault_units (c e tag cause place : Nat) : (s.coreFault c e tag cause place).units = s.units := by
  unfold State.coreFault
  split <;> simp [State.snap, State.modImg]
@[simp] theorem State.coreFault_ctl (c e tag cause place : Nat) : (s.coreFault c e tag cause place).ctl = s.ctl := by
  unfold State.coreFault
  split <;> simp [State.snap, State.modImg]
@[simp] theorem State.coreFault_otp (c e tag cause place : Nat) : (s.coreFault c e tag cause place).otp = s.otp := by
  unfold State.coreFault
  split <;> simp [State.snap, State.modImg]
@[simp] theorem State.coreFault_sec (c e tag cause place : Nat) : (s.coreFault c e tag cause place).sec = s.sec := by
  unfold State.coreFault
  split <;> simp [State.snap, State.modImg]
@[simp] theorem State.coreFault_gran (c e tag cause place : Nat) : (s.coreFault c e tag cause place).gran = s.gran := by
  unfold State.coreFault
  split <;> simp [State.snap, State.modImg]
@[simp] theorem State.coreFault_twin (c e tag cause place : Nat) : (s.coreFault c e tag cause place).twin = s.twin := by
  unfold State.coreFault
  split <;> simp [State.snap, State.modImg]

@[simp] theorem State.dieFault_pending (p d cause : Nat) : (s.dieFault p d cause).pending = s.pending := by
  unfold State.dieFault
  simp
@[simp] theorem State.dieFault_free (p d cause : Nat) : (s.dieFault p d cause).free = s.free := by
  unfold State.dieFault
  simp
@[simp] theorem State.dieFault_cc (p d cause : Nat) : (s.dieFault p d cause).cc = s.cc := by
  unfold State.dieFault
  simp
@[simp] theorem State.dieFault_opTicks (p d cause : Nat) : (s.dieFault p d cause).opTicks = s.opTicks := by
  unfold State.dieFault
  simp
@[simp] theorem State.dieFault_board (p d cause : Nat) : (s.dieFault p d cause).board = s.board := by
  unfold State.dieFault
  simp
@[simp] theorem State.dieFault_cores (p d cause : Nat) : (s.dieFault p d cause).cores = s.cores := by
  unfold State.dieFault
  simp
@[simp] theorem State.dieFault_hbm (p d cause : Nat) : (s.dieFault p d cause).hbm = s.hbm := by
  unfold State.dieFault
  simp
@[simp] theorem State.dieFault_dies (p d cause : Nat) : (s.dieFault p d cause).dies = s.dies := by
  unfold State.dieFault
  simp
@[simp] theorem State.dieFault_time (p d cause : Nat) : (s.dieFault p d cause).time = s.time := by
  unfold State.dieFault
  simp
@[simp] theorem State.dieFault_ltes (p d cause : Nat) : (s.dieFault p d cause).ltes = s.ltes := by
  unfold State.dieFault
  simp
@[simp] theorem State.dieFault_field (p d cause : Nat) : (s.dieFault p d cause).field = s.field := by
  unfold State.dieFault
  simp
@[simp] theorem State.dieFault_meas (p d cause : Nat) : (s.dieFault p d cause).meas = s.meas := by
  unfold State.dieFault
  simp
@[simp] theorem State.dieFault_units (p d cause : Nat) : (s.dieFault p d cause).units = s.units := by
  unfold State.dieFault
  simp
@[simp] theorem State.dieFault_ctl (p d cause : Nat) : (s.dieFault p d cause).ctl = s.ctl := by
  unfold State.dieFault
  simp
@[simp] theorem State.dieFault_otp (p d cause : Nat) : (s.dieFault p d cause).otp = s.otp := by
  unfold State.dieFault
  simp
@[simp] theorem State.dieFault_sec (p d cause : Nat) : (s.dieFault p d cause).sec = s.sec := by
  unfold State.dieFault
  simp
@[simp] theorem State.dieFault_gran (p d cause : Nat) : (s.dieFault p d cause).gran = s.gran := by
  unfold State.dieFault
  simp
@[simp] theorem State.dieFault_twin (p d cause : Nat) : (s.dieFault p d cause).twin = s.twin := by
  unfold State.dieFault
  simp

@[simp] theorem State.sysFault_pending (p cause cls idx : Nat) : (s.sysFault p cause cls idx).pending = s.pending := by
  unfold State.sysFault
  simp
@[simp] theorem State.sysFault_free (p cause cls idx : Nat) : (s.sysFault p cause cls idx).free = s.free := by
  unfold State.sysFault
  simp
@[simp] theorem State.sysFault_cc (p cause cls idx : Nat) : (s.sysFault p cause cls idx).cc = s.cc := by
  unfold State.sysFault
  simp
@[simp] theorem State.sysFault_opTicks (p cause cls idx : Nat) : (s.sysFault p cause cls idx).opTicks = s.opTicks := by
  unfold State.sysFault
  simp
@[simp] theorem State.sysFault_board (p cause cls idx : Nat) : (s.sysFault p cause cls idx).board = s.board := by
  unfold State.sysFault
  simp
@[simp] theorem State.sysFault_cores (p cause cls idx : Nat) : (s.sysFault p cause cls idx).cores = s.cores := by
  unfold State.sysFault
  simp
@[simp] theorem State.sysFault_hbm (p cause cls idx : Nat) : (s.sysFault p cause cls idx).hbm = s.hbm := by
  unfold State.sysFault
  simp
@[simp] theorem State.sysFault_dies (p cause cls idx : Nat) : (s.sysFault p cause cls idx).dies = s.dies := by
  unfold State.sysFault
  simp
@[simp] theorem State.sysFault_time (p cause cls idx : Nat) : (s.sysFault p cause cls idx).time = s.time := by
  unfold State.sysFault
  simp
@[simp] theorem State.sysFault_ltes (p cause cls idx : Nat) : (s.sysFault p cause cls idx).ltes = s.ltes := by
  unfold State.sysFault
  simp
@[simp] theorem State.sysFault_field (p cause cls idx : Nat) : (s.sysFault p cause cls idx).field = s.field := by
  unfold State.sysFault
  simp
@[simp] theorem State.sysFault_meas (p cause cls idx : Nat) : (s.sysFault p cause cls idx).meas = s.meas := by
  unfold State.sysFault
  simp
@[simp] theorem State.sysFault_units (p cause cls idx : Nat) : (s.sysFault p cause cls idx).units = s.units := by
  unfold State.sysFault
  simp
@[simp] theorem State.sysFault_ctl (p cause cls idx : Nat) : (s.sysFault p cause cls idx).ctl = s.ctl := by
  unfold State.sysFault
  simp
@[simp] theorem State.sysFault_otp (p cause cls idx : Nat) : (s.sysFault p cause cls idx).otp = s.otp := by
  unfold State.sysFault
  simp
@[simp] theorem State.sysFault_sec (p cause cls idx : Nat) : (s.sysFault p cause cls idx).sec = s.sec := by
  unfold State.sysFault
  simp
@[simp] theorem State.sysFault_gran (p cause cls idx : Nat) : (s.sysFault p cause cls idx).gran = s.gran := by
  unfold State.sysFault
  simp
@[simp] theorem State.sysFault_twin (p cause cls idx : Nat) : (s.sysFault p cause cls idx).twin = s.twin := by
  unfold State.sysFault
  simp

@[simp] theorem State.refusedWrite_pending (off : Nat) : (s.refusedWrite off).pending = s.pending := by
  unfold State.refusedWrite
  simp
@[simp] theorem State.refusedWrite_free (off : Nat) : (s.refusedWrite off).free = s.free := by
  unfold State.refusedWrite
  simp
@[simp] theorem State.refusedWrite_cc (off : Nat) : (s.refusedWrite off).cc = s.cc := by
  unfold State.refusedWrite
  simp
@[simp] theorem State.refusedWrite_opTicks (off : Nat) : (s.refusedWrite off).opTicks = s.opTicks := by
  unfold State.refusedWrite
  simp
@[simp] theorem State.refusedWrite_board (off : Nat) : (s.refusedWrite off).board = s.board := by
  unfold State.refusedWrite
  simp
@[simp] theorem State.refusedWrite_parts (off : Nat) : (s.refusedWrite off).parts = s.parts := by
  unfold State.refusedWrite
  simp
@[simp] theorem State.refusedWrite_cores (off : Nat) : (s.refusedWrite off).cores = s.cores := by
  unfold State.refusedWrite
  simp
@[simp] theorem State.refusedWrite_hbm (off : Nat) : (s.refusedWrite off).hbm = s.hbm := by
  unfold State.refusedWrite
  simp
@[simp] theorem State.refusedWrite_dies (off : Nat) : (s.refusedWrite off).dies = s.dies := by
  unfold State.refusedWrite
  simp
@[simp] theorem State.refusedWrite_time (off : Nat) : (s.refusedWrite off).time = s.time := by
  unfold State.refusedWrite
  simp
@[simp] theorem State.refusedWrite_ltes (off : Nat) : (s.refusedWrite off).ltes = s.ltes := by
  unfold State.refusedWrite
  simp
@[simp] theorem State.refusedWrite_field (off : Nat) : (s.refusedWrite off).field = s.field := by
  unfold State.refusedWrite
  simp
@[simp] theorem State.refusedWrite_meas (off : Nat) : (s.refusedWrite off).meas = s.meas := by
  unfold State.refusedWrite
  simp
@[simp] theorem State.refusedWrite_units (off : Nat) : (s.refusedWrite off).units = s.units := by
  unfold State.refusedWrite
  simp
@[simp] theorem State.refusedWrite_ctl (off : Nat) : (s.refusedWrite off).ctl = s.ctl := by
  unfold State.refusedWrite
  simp
@[simp] theorem State.refusedWrite_otp (off : Nat) : (s.refusedWrite off).otp = s.otp := by
  unfold State.refusedWrite
  simp
@[simp] theorem State.refusedWrite_sec (off : Nat) : (s.refusedWrite off).sec = s.sec := by
  unfold State.refusedWrite
  simp
@[simp] theorem State.refusedWrite_gran (off : Nat) : (s.refusedWrite off).gran = s.gran := by
  unfold State.refusedWrite
  simp
@[simp] theorem State.refusedWrite_twin (off : Nat) : (s.refusedWrite off).twin = s.twin := by
  unfold State.refusedWrite
  simp

@[simp] theorem State.powerHold_pending (p tag : Nat) : (s.powerHold p tag).pending = s.pending := rfl
@[simp] theorem State.powerHold_free (p tag : Nat) : (s.powerHold p tag).free = s.free := rfl
@[simp] theorem State.powerHold_out (p tag : Nat) : (s.powerHold p tag).out = s.out := rfl
@[simp] theorem State.powerHold_cc (p tag : Nat) : (s.powerHold p tag).cc = s.cc := rfl
@[simp] theorem State.powerHold_opTicks (p tag : Nat) : (s.powerHold p tag).opTicks = s.opTicks := rfl
@[simp] theorem State.powerHold_board (p tag : Nat) : (s.powerHold p tag).board = s.board := rfl
@[simp] theorem State.powerHold_cores (p tag : Nat) : (s.powerHold p tag).cores = s.cores := rfl
@[simp] theorem State.powerHold_stook (p tag : Nat) : (s.powerHold p tag).stook = s.stook := rfl
@[simp] theorem State.powerHold_hbm (p tag : Nat) : (s.powerHold p tag).hbm = s.hbm := rfl
@[simp] theorem State.powerHold_dies (p tag : Nat) : (s.powerHold p tag).dies = s.dies := rfl
@[simp] theorem State.powerHold_time (p tag : Nat) : (s.powerHold p tag).time = s.time := rfl
@[simp] theorem State.powerHold_ltes (p tag : Nat) : (s.powerHold p tag).ltes = s.ltes := rfl
@[simp] theorem State.powerHold_field (p tag : Nat) : (s.powerHold p tag).field = s.field := rfl
@[simp] theorem State.powerHold_meas (p tag : Nat) : (s.powerHold p tag).meas = s.meas := rfl
@[simp] theorem State.powerHold_units (p tag : Nat) : (s.powerHold p tag).units = s.units := rfl
@[simp] theorem State.powerHold_ctl (p tag : Nat) : (s.powerHold p tag).ctl = s.ctl := rfl
@[simp] theorem State.powerHold_host (p tag : Nat) : (s.powerHold p tag).host = s.host := rfl
@[simp] theorem State.powerHold_otp (p tag : Nat) : (s.powerHold p tag).otp = s.otp := rfl
@[simp] theorem State.powerHold_sec (p tag : Nat) : (s.powerHold p tag).sec = s.sec := rfl
@[simp] theorem State.powerHold_twin (p tag : Nat) : (s.powerHold p tag).twin = s.twin := rfl

@[simp] theorem State.endPulses_pending (p : Nat) : (s.endPulses p).pending = s.pending := rfl
@[simp] theorem State.endPulses_free (p : Nat) : (s.endPulses p).free = s.free := rfl
@[simp] theorem State.endPulses_out (p : Nat) : (s.endPulses p).out = s.out := rfl
@[simp] theorem State.endPulses_cc (p : Nat) : (s.endPulses p).cc = s.cc := rfl
@[simp] theorem State.endPulses_opTicks (p : Nat) : (s.endPulses p).opTicks = s.opTicks := rfl
@[simp] theorem State.endPulses_board (p : Nat) : (s.endPulses p).board = s.board := rfl
@[simp] theorem State.endPulses_cores (p : Nat) : (s.endPulses p).cores = s.cores := rfl
@[simp] theorem State.endPulses_stook (p : Nat) : (s.endPulses p).stook = s.stook := rfl
@[simp] theorem State.endPulses_hbm (p : Nat) : (s.endPulses p).hbm = s.hbm := rfl
@[simp] theorem State.endPulses_dies (p : Nat) : (s.endPulses p).dies = s.dies := rfl
@[simp] theorem State.endPulses_time (p : Nat) : (s.endPulses p).time = s.time := rfl
@[simp] theorem State.endPulses_ltes (p : Nat) : (s.endPulses p).ltes = s.ltes := rfl
@[simp] theorem State.endPulses_field (p : Nat) : (s.endPulses p).field = s.field := rfl
@[simp] theorem State.endPulses_meas (p : Nat) : (s.endPulses p).meas = s.meas := rfl
@[simp] theorem State.endPulses_units (p : Nat) : (s.endPulses p).units = s.units := rfl
@[simp] theorem State.endPulses_ctl (p : Nat) : (s.endPulses p).ctl = s.ctl := rfl
@[simp] theorem State.endPulses_host (p : Nat) : (s.endPulses p).host = s.host := rfl
@[simp] theorem State.endPulses_otp (p : Nat) : (s.endPulses p).otp = s.otp := rfl
@[simp] theorem State.endPulses_sec (p : Nat) : (s.endPulses p).sec = s.sec := rfl
@[simp] theorem State.endPulses_gran (p : Nat) : (s.endPulses p).gran = s.gran := rfl
@[simp] theorem State.endPulses_twin (p : Nat) : (s.endPulses p).twin = s.twin := rfl

@[simp] theorem State.drain_pending : (s.drain).pending = s.pending := by
  unfold State.drain
  split <;> rfl
@[simp] theorem State.drain_free : (s.drain).free = s.free := by
  unfold State.drain
  split <;> rfl
@[simp] theorem State.drain_out : (s.drain).out = s.out := by
  unfold State.drain
  split <;> rfl
@[simp] theorem State.drain_cc : (s.drain).cc = s.cc := by
  unfold State.drain
  split <;> rfl
@[simp] theorem State.drain_opTicks : (s.drain).opTicks = s.opTicks := by
  unfold State.drain
  split <;> rfl
@[simp] theorem State.drain_board : (s.drain).board = s.board := by
  unfold State.drain
  split <;> rfl
@[simp] theorem State.drain_parts : (s.drain).parts = s.parts := by
  unfold State.drain
  split <;> rfl
@[simp] theorem State.drain_cores : (s.drain).cores = s.cores := by
  unfold State.drain
  split <;> rfl
@[simp] theorem State.drain_stook : (s.drain).stook = s.stook := by
  unfold State.drain
  split <;> rfl
@[simp] theorem State.drain_hbm : (s.drain).hbm = s.hbm := by
  unfold State.drain
  split <;> rfl
@[simp] theorem State.drain_dies : (s.drain).dies = s.dies := by
  unfold State.drain
  split <;> rfl
@[simp] theorem State.drain_time : (s.drain).time = s.time := by
  unfold State.drain
  split <;> rfl
@[simp] theorem State.drain_ltes : (s.drain).ltes = s.ltes := by
  unfold State.drain
  split <;> rfl
@[simp] theorem State.drain_field : (s.drain).field = s.field := by
  unfold State.drain
  split <;> rfl
@[simp] theorem State.drain_meas : (s.drain).meas = s.meas := by
  unfold State.drain
  split <;> rfl
@[simp] theorem State.drain_units : (s.drain).units = s.units := by
  unfold State.drain
  split <;> rfl
@[simp] theorem State.drain_ctl : (s.drain).ctl = s.ctl := by
  unfold State.drain
  split <;> rfl
@[simp] theorem State.drain_otp : (s.drain).otp = s.otp := by
  unfold State.drain
  split <;> rfl
@[simp] theorem State.drain_sec : (s.drain).sec = s.sec := by
  unfold State.drain
  split <;> rfl
@[simp] theorem State.drain_gran : (s.drain).gran = s.gran := by
  unfold State.drain
  split <;> rfl
@[simp] theorem State.drain_twin : (s.drain).twin = s.twin := by
  unfold State.drain
  split <;> rfl

@[simp] theorem State.linkReset_pending : (s.linkReset).pending = s.pending := by
  unfold State.linkReset
  simp
@[simp] theorem State.linkReset_free : (s.linkReset).free = s.free := by
  unfold State.linkReset
  simp
@[simp] theorem State.linkReset_out : (s.linkReset).out = s.out := by
  unfold State.linkReset
  simp
@[simp] theorem State.linkReset_cc : (s.linkReset).cc = s.cc := by
  unfold State.linkReset
  simp
@[simp] theorem State.linkReset_opTicks : (s.linkReset).opTicks = s.opTicks := by
  unfold State.linkReset
  simp
@[simp] theorem State.linkReset_board : (s.linkReset).board = s.board := by
  unfold State.linkReset
  simp
@[simp] theorem State.linkReset_parts : (s.linkReset).parts = s.parts := by
  unfold State.linkReset
  simp
@[simp] theorem State.linkReset_cores : (s.linkReset).cores = s.cores := by
  unfold State.linkReset
  simp
@[simp] theorem State.linkReset_stook : (s.linkReset).stook = s.stook := by
  unfold State.linkReset
  simp
@[simp] theorem State.linkReset_hbm : (s.linkReset).hbm = s.hbm := by
  unfold State.linkReset
  simp
@[simp] theorem State.linkReset_dies : (s.linkReset).dies = s.dies := by
  unfold State.linkReset
  simp
@[simp] theorem State.linkReset_time : (s.linkReset).time = s.time := by
  unfold State.linkReset
  simp
@[simp] theorem State.linkReset_ltes : (s.linkReset).ltes = s.ltes := by
  unfold State.linkReset
  simp
@[simp] theorem State.linkReset_field : (s.linkReset).field = s.field := by
  unfold State.linkReset
  simp
@[simp] theorem State.linkReset_meas : (s.linkReset).meas = s.meas := by
  unfold State.linkReset
  simp
@[simp] theorem State.linkReset_units : (s.linkReset).units = s.units := by
  unfold State.linkReset
  simp
@[simp] theorem State.linkReset_ctl : (s.linkReset).ctl = s.ctl := by
  unfold State.linkReset
  simp
@[simp] theorem State.linkReset_otp : (s.linkReset).otp = s.otp := by
  unfold State.linkReset
  simp
@[simp] theorem State.linkReset_sec : (s.linkReset).sec = s.sec := by
  unfold State.linkReset
  simp
@[simp] theorem State.linkReset_gran : (s.linkReset).gran = s.gran := by
  unfold State.linkReset
  simp
@[simp] theorem State.linkReset_twin : (s.linkReset).twin = s.twin := by
  unfold State.linkReset
  simp

end Sys2Proof.Machine
end

