-- ==== Sys2Proof/Laws/Moves.lean ====
section
/-! SUPPORT. What the larger shared operations can do: the issue event, the execution of a mailbox command, and the moves of data between cores,
partitions and HBM, each with all the fields of the state that it may change. -/

namespace Sys2Proof.Machine
variable (s : State)

/-! ### The issue event -/

theorem State.issueRow_idle {c e op : Nat} {prep : Ctx → Req} {eff : Ctx → State → State} (h : s.issueCtx c e = none) :
    s.issueRow c e op prep eff = s := by
  simp [State.issueRow, h]

theorem State.issueRow_head {c e op : Nat} {prep : Ctx → Req} {eff : Ctx → State → State} {x : Ctx} {q : QEntry}
    (h : s.issueCtx c e = some (x, q)) (ho : wOp q.word = op) : s.issueRow c e op prep eff = s.issueWith x q (prep x) eff := by
  simp [State.issueRow, h, ho]

/-- The row of another opcode that the engine defines does nothing. -/
theorem State.issueRow_other {c e op : Nat} {prep : Ctx → Req} {eff : Ctx → State → State} {x : Ctx} {q : QEntry}
    (h : s.issueCtx c e = some (x, q)) (ho : wOp q.word ≠ op) (hd : (engineOps e).contains (wOp q.word) = true) :
    s.issueRow c e op prep eff = s := by
  simp [State.issueRow, h, ho, List.contains_iff_mem.mp hd]

theorem State.issueWith_early {x : Ctx} {q : QEntry} {r : Req} {eff : Ctx → State → State} (h : dueNow x q r = false) :
    s.issueWith x q r eff = s := by
  simp [State.issueWith, h]

theorem State.issueWith_wait {x : Ctx} {q : QEntry} {r : Req} {eff : Ctx → State → State} (hv : verdict x q r = .wait) :
    s.issueWith x q r eff = s := by
  simp [State.issueWith, hv]

/-- An issue whose checks hold: the core's queue and counts move, the effect follows, then the break and the poison of the next head. -/
theorem State.issueWith_ok {x : Ctx} {q : QEntry} {r : Req} {eff : Ctx → State → State} (h : dueNow x q r = true) (hv : verdict x q r = .ok) :
    s.issueWith x q r eff =
      ((eff x ((if delayed x r && x.q.ctl.stall then (s.setCore x.c (Core.afterIssue x r (delayed x r))).record 0 0x0070 0x01 x.c (natLe 1 x.e ++ natLe 2 (wTag x.word))
        else s.setCore x.c (Core.afterIssue x r (delayed x r))).takeItem x)).breakHit x).headPoison x := by
  simp [State.issueWith, h, hv]

/-- A check of the range scoreboard that fails (R252): it is noted, and the core faults. -/
theorem State.issueWith_sb {x : Ctx} {q : QEntry} {r : Req} {eff : Ctx → State → State} {cause : Nat} {o : SbOut} (h : dueNow x q r = true)
    (hv : verdict x q r = .sbFault cause o) :
    s.issueWith x q r eff = (s.modSp x.c fun m => m.noteSb x.e o).coreFault x.c x.e (wTag x.word) cause (faultPlace x.q x.k x.e) := by
  simp [State.issueWith, h, hv]

/-! ### A mailbox command -/

theorem State.command_waits {n code : Nat} {ms : List Nat} {own : Bool} {mine known : Bytes → Bool} {parts : Option (Part → Bool)}
    {run : Nat → Bytes → State → State × Option (Nat × Bytes)} (h : s.mayBegin n = false) : s.command n code ms own mine known parts run = s := by
  simp [State.command, h]

/-- The row of another command, or of another form of the same one, does nothing. -/
theorem State.command_other {n code : Nat} {ms : List Nat} {own : Bool} {mine known : Bytes → Bool} {parts : Option (Part → Bool)}
    {run : Nat → Bytes → State → State × Option (Nat × Bytes)} (hc : codes.contains (slotCode (s.slot n)) = true)
    (h : slotCode (s.slot n) ≠ code ∨ (mine (s.payload (s.slot n)) = false ∧ known (s.payload (s.slot n)) = true)) :
    s.command n code ms own mine known parts run = s := by
  rcases h with h | ⟨h, k⟩ <;> simp_all [State.command]

/-- What checks 7 and 8 and the effect answer is the command's completion, or leaves it to complete later. -/
theorem State.command_runs {n code : Nat} {ms : List Nat} {mine known : Bytes → Bool} {run : Nat → Bytes → State → State × Option (Nat × Bytes)}
    (hb : s.mayBegin n = true) (hc : slotCode (s.slot n) = code) (hk : codes.contains code = true) (hm : mine (s.payload (s.slot n)) = true)
    (hf : known (s.payload (s.slot n)) = true) (hh : headerOk (s.slot n) = true) (ht : s.tagOk n (s.slot n) = true) (hs : ms.contains s.mstate = true)
    (hd : s.descOk (s.slot n) = none) (ha : s.authOk n (s.slot n) = true) :
    s.command n code ms true mine known none run =
      match run n (s.payload (s.slot n)) s.asOwner with
      | (t, some (st, reply)) => t.finish n st reply
      | (t, none) => t := by
  subst hc
  have hs' := List.contains_iff_mem.mp hs
  have hk' := List.contains_iff_mem.mp hk
  simp only [State.command, hb, hm, hf, hh, ht, hd, ha, hs, hk]
  simp [State.asOwner, State.modSec] <;> rfl

/-! ### Moves of data -/

/-- What keeps a field of the state at every step of a fold keeps it over the fold. -/
theorem foldl_keeps {α β : Type} (g : State → β) (f : State → α → State) (h : ∀ z a, g (f z a) = g z) (l : List α) : ∀ z, g (l.foldl f z) = g z := by
  induction l with
  | nil => intro z; rfl
  | cons a t ih => intro z; simp only [List.foldl_cons]; rw [ih, h]

theorem State.addFlight_changes (c : Nat) (f : Flight) : s.addFlight c f = { s with cores := (s.addFlight c f).cores } := rfl

theorem State.modEp_changes (p ep : Nat) (f : CoreCh → CoreCh) :
    s.modEp p ep f = { s with parts := (s.modEp p ep f).parts, cores := (s.modEp p ep f).cores } := by
  unfold State.modEp; split <;> rfl

theorem State.mSend_changes (f : MFlit) : s.mSend f = { s with hbm := { s.hbm with net := s.hbm.net ++ [f] } } := rfl

theorem State.touchPc_changes (i : Nat) : s.touchPc i = { s with hbm := (s.touchPc i).hbm } := rfl

theorem State.copyStripes_changes (p : Nat) (hit : Nat → Bool) : s.copyStripes p hit = { s with parts := (s.copyStripes p hit).parts } := by
  unfold State.copyStripes; dsimp only; split <;> rfl

theorem State.copyFirst_changes (p a n : Nat) : s.copyFirst p a n = { s with parts := (s.copyFirst p a n).parts } := by
  unfold State.copyFirst; dsimp only; split
  · rw [State.copyStripes_changes]; rfl
  · rfl

theorem State.hbmStore_changes (p o : Nat) (d : Bytes) : s.hbmStore p o d = { s with parts := (s.hbmStore p o d).parts } := by
  unfold State.hbmStore; rw [State.copyFirst_changes]; rfl

theorem State.writeParity_changes (p ri a n : Nat) (byte : Nat → Byte) :
    s.writeParity p ri a n byte = { s with parts := (s.writeParity p ri a n byte).parts } := by
  unfold State.writeParity; split
  · rfl
  · split <;> rfl

theorem State.eachCore_changes (p : Nat) (f : Nat → Core → Core) : s.eachCore p f = { s with cores := (s.eachCore p f).cores } := by
  unfold State.eachCore; dsimp only
  generalize (s.part p).res.place = cs
  have h := foldl_keeps (fun z : State => { z with cores := [] }) (fun (z : State) l => z.modCore (cs.getD l 0) (f l)) (fun _ _ => rfl)
    (List.range cs.length) s
  revert h
  generalize (List.range cs.length).foldl _ s = t
  intro h
  cases t; cases s; simp_all

theorem State.remote_changes (p prio o n : Nat) : s.remote p prio o n = { s with hbm := (s.remote p prio o n).hbm } := by
  unfold State.remote
  have h := foldl_keeps (fun z : State => { z with hbm := {} }) (fun (z : State) u => match z.pcOf (z.part p) (u * 64) with
    | some (i, _) => (z.touchPc i).mSend
        { part := p, kind := mRemote, who := (0, prio, 0, 0), unit := u, deadline := 0, path := pathOut (288 + u % 2) (i / 32), since := z.cc + 1 }
    | none => z) (by intro z a; split <;> rfl) (unitsIn o n) s
  revert h
  generalize (unitsIn o n).foldl _ s = t
  intro h
  cases t; cases s; simp_all

theorem State.mRequest_changes (p kind : Nat) (who : Nat × Nat × Nat × Nat) (o n deadline : Nat) :
    s.mRequest p kind who o n deadline = { s with hbm := (s.mRequest p kind who o n deadline).hbm } := by
  unfold State.mRequest
  have h := foldl_keeps (fun z : State => { z with hbm := {} }) (fun (z : State) u => match z.pcOf (z.part p) (u * 64) with
    | some (i, _) => z.mSend { part := p, kind := kind, who := who, unit := u, deadline := deadline, path := pathOut (who.1 / 2) (i / 32), since := z.cc + 1 }
    | none => z) (by intro z a; split <;> rfl) (unitsIn o n) s
  revert h
  generalize (unitsIn o n).foldl _ s = t
  intro h
  cases t; cases s; simp_all

/-- Commands that complete together change the host's registers, and the messages that leave. -/
theorem State.finishAll_changes (l : List Nat) (st : Nat) (d : Bytes) :
    s.finishAll l st d = { s with host := (s.finishAll l st d).host, out := (s.finishAll l st d).out } := by
  unfold State.finishAll
  have h := foldl_keeps (fun z : State => { z with host := {}, out := [] })
    (fun (z : State) n => if z.host.accepted.contains n || z.host.waiting.contains n then z.finish n st d else z) (by
      intro z a; split
      · simp
      · rfl) l s
  revert h
  generalize l.foldl _ s = t
  intro h
  cases t; cases s; simp_all

end Sys2Proof.Machine
end

