-- ==== Sys2Proof/Tests/Slice0.lean ====
section
/-! SUPPORT. Tests. First the well-formedness check with an ill-formed command for each of its ranges; then, for each statement with hypotheses, a
concrete state and operands that meet them, clause by clause. -/

namespace Sys2Proof.Tests
set_option Elab.async false
open Sys2Proof Sys2Proof.Machine

/-! ### Small states -/

/-- The module in a state (R424), in BOOT at a stage, with one partition, with a step of that partition on core 0. -/
def mod (m : Nat) : State := { State.reset with ctl := { mstate := m } }
def bootAt (n : Nat) : State := { mod 1 with board := { stage := n } }
def part (q : Part) : State := { mod 5 with parts := [(0, q)] }
def step0 (r : PRun) (k : Core) : State :=
  { mod 5 with parts := [(0, { st := .running, res := { created := true, floor := 1, place := [0] }, run := { r with stepRun := true } })], cores := [(0, k)] }
/-- An instruction of an opcode, with its other fields as a number. -/
def inst (op other : Nat) : IWord := BitVec.ofNat 128 (op * 2 ^ 52 + other)
/-- A step in which engine e has an instruction at its head, at a cycle at which it is due. -/
def headed (e : Nat) (w : IWord) (now : Nat) : State :=
  step0 { stepCyc := now } (if e = 6 then { seq := { len := 1 }, sp := { mem := memWrite [] 0 (natLe 16 w.toNat) } } else { eng := [(e, { queue := [⟨w, false, 0⟩] })] })
/-- The context of that head. -/
def ctxOf (s : State) (e : Nat) (w : IWord) (now : Nat) : Ctx := ⟨0, 0, 0, e, now, w, 1, s.core 0, s.part 0, (s.core 0).sp⟩

/-- PTP as primary source on port 7, with the peer delay mechanism where m is 1. -/
def ptpSt (l : Tbl Ptp) (m : Nat) : State :=
  { mod 3 with time := { runs := true, ports := l, cfg := [7, 0xFF, m, 0, 0, 0, 3, 0, 0, 0] }, field := { ports := [(7, { mode := 2, lanes := 1 })] } }

/-- Module time running at T (in units of 1/65,536 ns), with partition 0 and launch entry 0. -/
def timed (t : Nat) (q : Part) (e : Lte) : State := { part q with time := { runs := true, count := t * 4294967296 }, ltes := [(0, e)] }
/-- A periodic launch entry in force whose anchor is T (below 65,536), with the offsets of its emission and deadline. -/
def lte0 (t : Nat) : Lte :=
  { owned := true, raw := [1, 0, 0, 0] ++ natLe 2 t ++ zeros 10 ++ natLe 8 65536000 ++ zeros 8 ++ natLe 4 0 ++ natLe 4 20000 ++ natLe 4 40000 ++ zeros 20 }
def frame0 : Frame := ⟨0, 0, true, 0, 0, 0, 0, 5, 0, 2, [10, 10], 0, 0, false, false, false, false, 0, 0, 0, 0⟩
def emit0 : Emit := { entry := 0, guardT := 5, emitT := 5, launched := true, step := 0 }
def img0 : Image := ⟨[], 0, true, [], [], [], [], [], [], [], ⟨[], 0, 0, 0⟩, [], [], 0, 0⟩
def trig0 : Trigger := ⟨0, 5, 5, 5, some 0, false, [], 0⟩
/-- An instruction in flight of an engine. -/
def fly (e op : Nat) (w : IWord) (sig : Option Nat) : Flight := ⟨e, op, 1, 0, w, sig, none, false, 0, 0, [], [], [], [], [], [], [], none, [], none, []⟩
def fetch0 (q : Nat) (start : Option Nat) (data : Bool) : Fetch := ⟨q, 0, 0, 2, 5, start, 0, data, false, false, 1, []⟩

/-- Core 0 has completed its step 160 cycles ago. -/
def barrier0 (f : Frame) : State :=
  { step0 { stepCyc := 200, frame := some f } { seq := { complete := some 40 } } with
    parts := [(0, { st := .running, res := { created := true, floor := 1, place := [0] }, run := { stepRun := true, stepCyc := 200, frame := some f }, img := { image := some img0 } })] }
/-- The same step in a queued partition; with the head of engine 0 poisoned. -/
def queued (s : State) : State := s.modPart 0 fun q => { q with res := { q.res with floor := 128 } }
def poisoned (s : State) : State := s.modCore 0 fun k => { k with eng := [(0, { queue := (k.eng.getD 0 {}).queue.map fun h => { h with poison := true } })] }
def wQwait : IWord := inst 0x02 (32 + 2 ^ 96)
def wWaitc : IWord := inst 0x50 (32 + 2 ^ 96)
/-- FETCH of one instruction from scratchpad to queue 0. -/
def wFetch : IWord := inst 0x01 (32 + 8 * 2 ^ 80)

/-- The state of `headed` with bytes at a scratchpad byte, and with an image. -/
def holding (s : State) (a : Nat) (d : Bytes) : State := s.modCore 0 fun k => { k with sp := { k.sp with mem := memWrite k.sp.mem a d } }
def imaged (s : State) (g : Image) : State := s.modPart 0 fun q => { q with img := { q.img with image := some g } }
def drawn (s : State) (f : CoreCh → CoreCh) : State := s.modCore 0 fun k => { k with ch := f k.ch }
/-- An issue that is due, as a Bool. -/
def goes (s : State) (e op : Nat) (w : IWord) (now : Nat) (prep : Ctx → Req) : Bool :=
  decide (s.issueCtx 0 e = some (ctxOf s e w now, ⟨w, false, 0⟩)) && wOp w == op && dueNow (ctxOf s e w now) ⟨w, false, 0⟩ (prep (ctxOf s e w now)) &&
  decide (verdict (ctxOf s e w now) ⟨w, false, 0⟩ (prep (ctxOf s e w now)) = .ok) && !(s.core 0).flt.brkEn && !(ctxOf s e w now).q.ctl.stall &&
  (match ((s.core 0).eng.getD e {}).queue.tail.head? with | some y => !y.poison | none => true)
theorem goes_issues {s : State} {e op : Nat} {w : IWord} {now : Nat} {prep : Ctx → Req} (h : goes s e op w now prep = true) :
    s.issues 0 e op prep (ctxOf s e w now) := by
  simp only [goes, Bool.and_eq_true, decide_eq_true_eq, beq_iff_eq, Bool.not_eq_true'] at h
  refine ⟨⟨w, false, 0⟩, h.1.1.1.1.1.1, h.1.1.1.1.1.2, h.1.1.1.1.2, h.1.1.1.2, h.1.1.2, h.1.2, fun _ y hy => ?_⟩
  simpa [hy] using h.2
/-- MM of 8-bit integer tiles of one vector each, A at unit 0, B at unit 2; DRAIN to 8-bit integers at unit 64 with its parameters at unit 0; LOAD_ACC of
EXP96 from unit 0. -/
def wMm : IWord := inst 1 (5 + 2 * 2 ^ 84 + 4 * 2 ^ 120 + 4 * 2 ^ 124)
def wDrain : IWord := inst 2 (5 + 64 * 2 ^ 64 + 4 * 2 ^ 120)
def wLoadAcc : IWord := inst 3 (5 + 11 * 2 ^ 120)
/-- A vector instruction with D at line 3, A and B at the lines named, its shape record at unit 0: one row of 128 elements, formats, mask line. -/
def wVx (op a b : Nat) : IWord := inst op (5 + 3 * 2 ^ 64 + a * 2 ^ 80 + b * 2 ^ 96)
def shape0 (fa fb fd : Nat) (mask : Nat) : Bytes := [0, 0, 0] ++ natLe 1 (fa + 16 * fb) ++ natLe 1 fd ++ [0] ++ natLe 2 mask ++ zeros 24
def atVx (w : IWord) (sh : Bytes) : State := holding (headed 1 w 5) 0 sh
/-- Every vector opcode with operands and formats that it takes. -/
def vecs : List (Nat × IWord × Bytes) :=
  ([0x01, 0x02, 0x03, 0x04, 0x05, 0x06, 0x10, 0x11, 0x12, 0x13].map fun op => (op, wVx op 1 2, shape0 10 10 10 65535)) ++
  ([0x07, 0x08, 0x09, 0x0A, 0x20, 0x21, 0x22, 0x23, 0x24, 0x30, 0x31, 0x32, 0x33, 0x38].map fun op => (op, wVx op 1 0, shape0 10 0 10 65535)) ++
  [(0x14, wVx 0x14 1 2, shape0 10 10 10 4), (0x40, wVx 0x40 1 8, shape0 11 11 11 65535), (0x41, wVx 0x41 1 8, shape0 11 0 10 65535),
   (0x48, wVx 0x48 0 0, shape0 0 0 10 65535)]
/-- A stream instruction with its descriptor at unit 0 and its block at unit 16: one row of 16 elements of 32 bits, at the HBM offset named. -/
def wSt (op : Nat) : IWord := inst op (5 + 16 * 2 ^ 64)
def desc0 (base src dst lead : Nat) : Bytes := natLe 8 base ++ natLe 1 (src + 16 * dst) ++ [0, 0, 0] ++ natLe 4 lead ++ natLe 2 256 ++ [0, 0, 15] ++ zeros 43
def imgS : Image := { img0 with slotsIn := 64, slotsOut := 64 }
def atSt (e : Nat) (w : IWord) (d : Bytes) : State := imaged (holding (headed e w 5) 0 d) imgS
def strm0 (e op now : Nat) (d : Bytes) : Strm := ⟨e, 1, wSt op, d, now, 0, [], [], [], [], 0, false, [], 0⟩
def withStrm (now : Nat) (t : Strm) : State := imaged (step0 { stepCyc := now } { strms := [t] }) imgS
/-- A channel instruction; a ring of 256 bytes at byte 4,096; a committed message in it. -/
def ring0 : Ring := { base := 4096, log2 := 8, isOpen := true }
def rec0 : RingRec := { at_ := 0, size := 64, kind := 1, src := 0, len := 16, committed := some 1 }
def flit0 (kind : Nat) (nums : List Nat) (data : Bytes) : Flit := { mkFlit kind 0 0 1 0 nums data false with arrived := some 1 }
def xout0 : Xout := ⟨0, 1, 0, 0, 0, 0, 0, [], 0⟩
def netSt (now : Nat) (net : List Flit) (h : CoreCh) : State := drawn (step0 { stepCyc := now, net := net } {}) fun _ => h

/-- A STORE of 4,097 units of which all but the last are checked. -/
def long0 : Bytes := natLe 8 8589934592 ++ [170, 0, 0, 0] ++ natLe 4 8 ++ natLe 2 256 ++ [0, 0] ++ natLe 3 65551 ++ zeros 41
def wTake : IWord := inst 2 (5 + 64 * 2 ^ 64 + 1023 * 2 ^ 88 + 1 * 2 ^ 98)
def culm0 (h : CoreCh) : State := (step0 { stepCyc := 5 } {}).modPart 0 fun q => { q with res := { q.res with culm := 1 }, culm := [(0, h)] }
/-- A running partition that holds slice 0. -/
def hbm0 : State := part { st := .running, res := { created := true, slices := 1 }, img := { image := some img0 } }

/-! A mailbox command in slot 0, accepted, with the tag of an owner session (log entry 11: SHAKE256 is uninterpreted, so the tag is not a number). -/
theorem sub_before {p x : Bytes} {a n : Nat} (h : a + n ≤ p.length) : sub (p ++ x) a n = sub p a n := by
  refine List.map_congr_left fun i hi => ?_
  have := List.mem_range.mp hi
  simp [List.getD, List.getElem?_append_left (show a + i < p.length by omega)]
theorem sub_after {p x : Bytes} {a n : Nat} (h : p.length ≤ a) : sub (p ++ x) a n = sub x (a - p.length) n := by
  refine List.map_congr_left fun i _ => ?_
  simp [List.getD, List.getElem?_append_right (show p.length ≤ a + i by omega), show a + i - p.length = a - p.length + i by omega]
theorem sub_all (x : Bytes) : sub x 0 x.length = x := by
  refine List.ext_getElem (by simp [sub]) fun i h1 h2 => ?_
  simp [sub, List.getD, h2]
/-- The tag of R469 does not cover the AUTH field itself. -/
theorem authTag_same {p x y t k : Bytes} {n : Nat} (hp : p.length = 16) (hx : x.length = 16) (hy : y.length = 16) :
    authTag k n (p ++ (x ++ t)) = authTag k n (p ++ (y ++ t)) := by
  have lo : ∀ (z : Bytes) (a m : Nat), a + m ≤ 16 → sub (p ++ z) a m = sub p a m := fun z a m h => sub_before (by omega)
  have hi : ∀ (z : Bytes) (m : Nat), z.length = 16 → sub (p ++ (z ++ t)) 32 m = sub t 0 m := fun z m h => by
    rw [sub_after (by omega), sub_after (by omega)]; simp [hp, h]
  have pl : ∀ z, slotPlen (p ++ z) = slotPlen p := fun z => by simp only [slotPlen, fld, lo z 8 2 (by omega)]
  simp only [authTag, slotInline, pl, hi x _ hx, hi y _ hy, lo _ 1 5 (by omega), lo _ 8 2 (by omega), lo _ 12 4 (by omega)]
theorem authTag_length (k : Bytes) (n : Nat) (b : Bytes) : (authTag k n b).length = 16 := by simp [authTag, Config.shake]
/-- The 16 bytes of a slot before its AUTH field; the slot with the tag of the owner session. -/
def mailP (ctrl code plen : Nat) : Bytes := natLe 1 ctrl ++ [0] ++ natLe 2 code ++ natLe 2 7 ++ [0, 0] ++ natLe 2 plen ++ [0, 0] ++ natLe 4 1
def mailKey : Session := { num := 1, keys := zeros 64, bind := [] }
def mailB (p t : Bytes) : Bytes := p ++ (authTag mailKey.keys 1 (p ++ (zeros 16 ++ t)) ++ t)
/-- State s in module state m with a slot's bytes waiting to be executed. -/
def posted (m : Nat) (b : Bytes) (s : State) : State :=
  { s with
    ctl := { s.ctl with mstate := m }
    host := { s.host with ready := true, accepted := [0], nums := [(0, 1)], slots := [(0, b)] }
    sec := { s.sec with owner := some mailKey } }
def mailed (m code : Nat) (pay : Bytes) (s : State) : State := posted m (mailB (mailP 1 code pay.length) (fit 224 pay)) s
/-- The same with an indirect payload of n bytes at a window offset. -/
def mailedAt (m code off n : Nat) (pay : Bytes) (s : State) : State :=
  posted m (mailB (mailP 9 code 48) (natLe 8 off ++ natLe 4 n ++ zeros 4 ++ Config.shake pay 32 ++ zeros 176)) s
theorem posted_auth (m ctrl code plen : Nat) (t : Bytes) (s : State) :
    (posted m (mailB (mailP ctrl code plen) t) s).authOk 0 ((posted m (mailB (mailP ctrl code plen) t) s).slot 0) = true := by
  have hp : (mailP ctrl code plen).length = 16 := rfl
  have h1 : sub (mailB (mailP ctrl code plen) t) 16 16 = authTag mailKey.keys 1 (mailB (mailP ctrl code plen) t) := by
    rw [mailB, sub_after (by omega), sub_before (by rw [authTag_length, hp] <;> decide), hp, authTag_same hp (authTag_length _ _ _) (show (zeros 16).length = 16 from rfl)]
    have := sub_all (authTag mailKey.keys 1 (mailP ctrl code plen ++ (zeros 16 ++ t)))
    rwa [authTag_length] at this
  have h2 : slotSession (mailB (mailP ctrl code plen) t) = 1 := by
    rw [slotSession, mailB, fld, sub_before (by rw [hp] <;> omega)]; rfl
  have h3 : (posted m (mailB (mailP ctrl code plen) t) s).slot 0 = mailB (mailP ctrl code plen) t := rfl
  have h4 : (posted m (mailB (mailP ctrl code plen) t) s).sec.owner = some mailKey := rfl
  have h5 : (posted m (mailB (mailP ctrl code plen) t) s).host.nums.getD 0 0 = 1 := rfl
  simp only [State.authOk, h3, h4, h5, h2, h1, mailKey]; simp
/-- The checks of R416 that do not depend on the arguments, but for the tag. -/
def sound (s : State) (code : Nat) (ms : List Nat) (mine : Bytes → Bool) : Bool :=
  s.mayBegin 0 && slotCode (s.slot 0) == code && mine (s.payload (s.slot 0)) && headerOk (s.slot 0) && s.tagOk 0 (s.slot 0) && ms.contains s.mstate &&
  (s.descOk (s.slot 0)).isNone
theorem mailed_calls {m code : Nat} {pay : Bytes} {s : State} {ms : List Nat} {own : Bool} {mine : Bytes → Bool}
    (h : sound (mailed m code pay s) code ms mine = true) : (mailed m code pay s).calls 0 code ms own mine := by
  simp only [sound, Bool.and_eq_true, beq_iff_eq, Option.isNone_iff_eq_none] at h
  exact ⟨h.1.1.1.1.1.1, h.1.1.1.1.1.2, h.1.1.1.1.2, h.1.1.1.2, h.1.1.2, h.1.2, fun _ => posted_auth m 1 code _ _ s, h.2⟩
/-- A Haulm frame with one binary32 value, stream 5. -/
def haulm0 : Bytes := haulmFrame 1 0 0 5 1 7 1 8 0 0 0 (zeros 4)
def point0 : Point := { owned := true, raw := [1, 0, 0, 0, 5, 0, 0, 0] ++ zeros 32 }
def portSt (mode : Nat) (pts : Tbl Point) : State := { mod 3 with field := { ports := [(0, { mode := mode, lanes := 15 })], points := pts } }
def rec1 : Rec := ⟨0, 0, 1, false, false, 0, 0, 1, 0, [], 0⟩
/-- A module whose host link is up and whose mailbox is ready. -/
def linked (s : State) : State := { s with host := { s.host with link := true, bars := true, ready := true } }

/-- Commands with a reserved bit set in the header, without a session, and with an indirect payload that lies in no slot. -/
def badMail : State := { mailed 3 0x0601 [] (mod 3) with host := { (mailed 3 0x0601 [] (mod 3)).host with slots := [(0, (mailP 17 0x0601 0 ++ zeros 240))] } }
def noOwner : State := { mailed 3 0x0601 [] (mod 3) with sec := {} }
def badDesc : State := mailedAt 3 0x0601 0 4096 [] (mod 3)

def pointSv : Point := { point0 with raw := [5, 0, 0, 0, 0, 0, 0, 0] ++ zeros 32 }
def svSt : State := { mod 3 with field := { subs := [(0, { raw := [0, 1] ++ zeros 30 })], points := [(9, pointSv)] } }


/-- What an Option that is `some` holds. -/
theorem got {α : Type} (x : Option α) (h : x.isSome = true) : x = some (x.get h) := by simp
/-- A digest with every byte raised by one is another one. -/
def other (d : Bytes) : Bytes := (Config.shake d 32).map (· + 1)
theorem shake_other (d : Bytes) : Config.shake d 32 ≠ other d := by
  have h : ∀ x y : Byte, x ≠ y → ∀ l m : Bytes, x :: l ≠ y :: m := fun x y h l m e => h (List.cons.inj e).1
  exact h _ _ (fun e => by
    have := congrArg BitVec.toNat e
    simp [BitVec.toNat_add] at this
    omega) _ _
/-- Mailed to the module in state 3. -/
def ask (code : Nat) (pay : Bytes) (s : State) : State := mailed 3 code pay s
def in0 (q : Part) : State := { mod 3 with parts := [(0, { q with res := { q.res with created := true } })] }
/-- The output area and the intake area of partition 0. -/
def outAt : Bytes := natLe 8 6442450944
def view0 : ImageView := ⟨true, 1, [], none, img0⟩
/-- An image that R541 takes, for a floor: the header up to its digest, and its directory. -/
def imgHead (f : Nat) : Bytes := natLe 4 0x4950394B ++ natLe 2 1 ++ natLe 2 f ++ [if f ≤ 64 then 0 else 1, 0, 1, 8] ++ natLe 4 detClass ++ zeros 16
def imgTail : Bytes := ((List.range 8).flatMap fun i => natLe 1 ([1, 2, 4, 5, 7, 8, 9, 10].getD i 0) ++ natLe 4 (i + 1)) ++ zeros 120
def imgOf (f : Nat) : Image :=
  { img0 with
    header := imgHead f ++ (Config.shake (imgTail ++ []) 64 ++ imgTail)
    length := 65536
    entries := [⟨0, [100], []⟩]
    slotTables := if f ≤ 64 then List.replicate 4 (List.replicate 256 0) else [] }
def viewOf (f typ : Nat) : ImageView := ⟨true, typ, [], none, imgOf f⟩
theorem digest_ok (f typ : Nat) : (viewOf f typ).digestOk = true := by
  have hp : (imgHead f).length = 32 := by simp [imgHead, natLe, zeros]
  have hd : (Config.shake (imgTail ++ []) 64).length = 64 := by simp [Config.shake]
  have hc : sub (imgHead f ++ (Config.shake (imgTail ++ []) 64 ++ imgTail)) 96 160 = imgTail := by
    rw [sub_after (by omega), sub_after (by omega), hp, hd]; exact sub_all imgTail
  have he : sub (imgHead f ++ (Config.shake (imgTail ++ []) 64 ++ imgTail)) 32 64 = Config.shake (imgTail ++ []) 64 := by
    rw [sub_after (by omega), sub_before (by omega), hp]; have := sub_all (Config.shake (imgTail ++ []) 64); rwa [hd] at this
  simp only [ImageView.digestOk, viewOf, imgOf, hc, he, beq_self_eq_true]
def slices : Nat := 0xFFFFF
def seg (p flags n off size : Nat) : Bytes := [BitVec.ofNat 8 p, BitVec.ofNat 8 flags, 0, 0] ++ natLe 4 n ++ natLe 8 off ++ natLe 4 size
/-- A loaded partition 0 with resources. -/
def loaded0 (st : PState) : Part := { st := st, res := { created := true, floor := 8, slices := slices, place := [0, 1, 2, 3, 4, 5, 6, 7] }, img := { image := some (imgOf 8) } }
/-- The entries to bind: one that binds nothing. -/
def bindPay (dig : Bytes) : Bytes := [0, 0, 0, 0] ++ natLe 4 0 ++ natLe 4 1 ++ natLe 8 0 ++ dig
def setPay (dig : Bytes) : Bytes := [0, 0, 0, 0] ++ natLe 2 1 ++ [0, 0] ++ natLe 8 0 ++ dig
/-- REPLAY of STEP_COUNT 0, with nothing captured, into the output area. -/
def replayPay : Bytes := zeros 8 ++ natLe 8 0 ++ zeros 8 ++ outAt ++ natLe 4 4096 ++ zeros 132
def seal0 : SealView := ⟨true, true, 0, [], [], 0, [], [], false⟩
def entry0 : JEntry := ⟨0, 0, false, 0, 0, 0, 0, [], 64, []⟩
def ckpt0 (b : Bytes) : Ckpt := { valid := true, bir := b }
def replayable (b : Bytes) : Part := { loaded0 .armed with ck := { slotA := ckpt0 b, journal := [entry0], journalN := 1 } }
def plan0 (b : Bytes) : ReplayPlan := ⟨ckpt0 b, [entry0], true⟩
def replaySt (s : State) : State := ask 0x0108 replayPay s
theorem plan_eq (b : Bytes) : (replaySt (in0 (replayable b))).replayPlan 0 false (fld replayPay 8 8) seal0 = some (plan0 b) := rfl
def replay0 : Replay := ⟨0, 0, false, 0, 4096, [], {}, [], {}, [], true, false⟩
def hold6 : Hold := ⟨6, none, 0, none, some 0, false⟩
/-- A list of bytes with every byte raised by one is another one. -/
def bump (l : Bytes) : Bytes := l.map (· + 1)
theorem ne_bump : ∀ (l : Bytes), l.isEmpty = false → l ≠ bump l
  | [], h => absurd h (by decide)
  | a :: l, _ => fun e => by
    have e2 := congrArg BitVec.toNat (List.cons.inj e).1
    simp [BitVec.toNat_add] at e2
    omega
/-- An association with a key, and SA_INSTALL of key 0 under the owner session with a wrapped key. -/
def assoc0 : Assoc := { port := 0, sub := 0, transmit := true, sci := 0, ssci := 0, salt := [], window := 0, saks := [(0, [])] }
def saHead : Bytes := [1, 0, 0, 1] ++ zeros 28
def saWrap : Bytes := Config.gcm (sub mailKey.keys 32 32) (natLe 8 1 ++ zeros 4) saHead (zeros 32)
def assocSt : State := { mod 3 with field := { assocs := [(1, assoc0)] } }
/-- A signed object without its last byte; the segment with that byte, which is the object's last. -/
def signed (kind signer arg : Nat) (nonce body : Bytes) : Bytes :=
  natLe 4 0x4753394B ++ natLe 2 1 ++ natLe 1 kind ++ natLe 1 signer ++ Config.serial ++ nonce ++ natLe 4 body.length ++ natLe 4 arg ++ body ++ zeros 3308
def lastSeg (form : Nat) : Bytes := natLe 1 form ++ [2] ++ natLe 2 5 ++ natLe 2 1 ++ zeros 10 ++ [0]
def segd (key : Nat) (obj : Bytes) (x : Sec) (s : State) : State := { s with sec := { x with segs := [(key, ⟨5, obj⟩)] } }
def owner0 : OwnerKey := ⟨0, 0, [], []⟩
def policy0 : Bytes := zeros 4 ++ [7, 0, 0, 0] ++ natLe 4 600 ++ natLe 4 600 ++ natLe 4 5 ++ zeros 44
def kemObj (d : Bytes) : Bytes := natLe 4 0x4553394B ++ zeros 4 ++ Config.serial ++ zeros 40 ++ d ++ zeros 1567
def overlayObj : Bytes := natLe 4 0x564F394B ++ [6] ++ zeros 11 ++ Config.serial ++ natLe 4 4 ++ zeros 28 ++ zeros 4 ++ zeros 3308
/-- Eight generations of a block are spent. -/
def spentSt (blk : Nat) : State := { mod 3 with otp := { gens := [(blk, List.replicate 8 ⟨some [], 0⟩)], work := [(4, zeros 64)] } }
def commitPay (dig : Bytes) : Bytes := [4] ++ zeros 7 ++ dig
def stagePay : Bytes := natLe 8 0 ++ natLe 4 64 ++ Config.shake (zeros 64) 32
/-- A paired module with partition 0; a block on the Rachis link. -/
def pairSt (q : Part) : State := { mod 3 with parts := [(0, q)], twin := { pair := 2, lanes := 65535 } }
def twinP (role : Nat) (st : PState) : Part := { loaded0 st with twin := { role := role } }
def blockB (k : Nat) (body : Bytes) : Bytes := natLe 4 0x4254394B ++ natLe 1 k ++ zeros 3 ++ zeros 8 ++ zeros 8 ++ natLe 8 body.length ++ natLe 4 body.length ++ zeros 28 ++ body
def helloSt (n : Option Nat) : State := { mod 3 with twin := { pair := 1, lanes := 65535, partner := zeros 16, slot := n }, host := { accepted := [0] } }
def cut0 : Bytes := haulmFrame 3 0 0 0 0 0 1 15 0 0 0 (zeros 8)
def digB : Bytes := haulmFrame 4 0 0 0 0 0 4 15 0 0 0 (zeros 32)
def digP (d : Bytes) : Part := { twinP 1 .running with twin := { role := 1, local_ := [⟨0, 0, 0, 0, d⟩] } }
def pairPay (op p role : Nat) : Bytes := natLe 1 op ++ natLe 1 p ++ natLe 1 role ++ zeros 29
def withMap (s : State) : State := { s with twin := { s.twin with pair := 2, lanes := 65535 } }
def handState : Bytes := [3] ++ zeros 127
def handPay (op : Nat) : Bytes := [0] ++ natLe 1 op ++ natLe 2 1 ++ zeros 8

/-! ### Well-formed commands -/

/-- For each check of WellFormed a command that it refuses. -/
theorem test_wf_refuses_units :
    ([.alu 576, .mm 576, .flitAtRouter 288 0 0, .guardInstant 8, .start 1024, .nop 0 7, .streamDataArrival 0 5 0 0, .load 0 4, .zero 0 1, .streamUnitDue 0 1,
      .storeWriteAck 0 3 0 0, .ptpSyncTimeout 8, .haulmDataIn 0 4 0 [], .laneCharge 48 false, .holdWordDisagreement 0 4, .flitAtRouter 0 0 4, .flitAtRouter 0 16 0,
      .flitDelivery 0 512, .flitDelivery 0 1024, .culmCoreSend 0 12 (.openRing 0), .refreshWindow 32, .selfRefreshEntry 32, .hbmFail 1024, .virtualSourceGap 64,
      .awnCtlLatch 12, .inputCut 1024, .timingInputRestored 4, .mbxIrqHoldoffExpiry 0, .mbxIrqHoldoffExpiry 64] : List Instr).all (fun i => !i.wf) = true := by
  decide +kernel
theorem test_wf_refuses_values :
    ([.powerUp true true true true true 4 511, .powerUp true true false false true 0 512, .sidebandQuote 128 [], .evtSumRead (some 128), .jtagInstruction 0 8192 0, .chokehusStage [(1, 576)] true, .hbmTraining [1024], .ptpFollowUp 0 ⟨false, none, .none⟩ 0 128 0 0 0, .mbxCtlWrite 4294967296,
      .registerWrite 0x10000 4 0, .registerWrite 0x1002 4 0, .mailboxSlotWrite 0 254 [0, 0, 0, 0], .windowAccess 0 0 none, .windowAccess 60 8 none,
      .windowAccess 68719476736 4 none, .bar0MisalignedAccess true 0x1000 4, .portLinkUp 0 16, .rachisLinkUp 65536 false] : List Instr).all (fun i => !i.wf) = true := by
  decide +kernel
/-- Commands at the ends of those ranges are well formed. -/
theorem test_wf_takes :
    ([.alu 575, .flitAtRouter 287 15 3, .guardInstant 7, .start 1023, .nop 0 6, .load 0 3, .streamDataArrival 0 6 0 0, .ptpSyncTimeout 7, .flitDelivery 0 511,
      .flitDelivery 0 1023, .culmCoreSend 7 11 (.openRing 0), .refreshWindow 31, .selfRefreshEntry 31, .hbmFail 1023, .virtualSourceGap 63, .awnCtlLatch 11, .awnCtlLatch 64,
      .inputCut 1023, .mbxIrqHoldoffExpiry 63, .registerWrite 0x1000 4 0, .windowAccess 60 4 none, .bar0MisalignedAccess true 0x1001 4] : List Instr).all
      (fun i => i.wf) = true := by decide +kernel

/-! ### Every form issues -/

/-- NOP issues on each of the seven engines. -/
theorem test_nop_engines : (List.range 7).all (fun e => goes (headed e (inst 0 40) 40) e 0 (inst 0 40) 40 nopReq) = true := by decide +kernel
/-- Each of the 28 vector opcodes issues. -/
theorem test_vector_opcodes : vecs.all (fun v => goes (atVx v.2.1 v.2.2) 1 v.1 v.2.1 5 vxReq) = true := by decide +kernel
/-- LOAD and ZERO issue on both stream-in engines, STORE on the stream-out engine. -/
def strmTries : List (Nat × Nat × Bytes) :=
  [(1, 2, desc0 8589934592 10 10 1200), (1, 3, desc0 8589934592 10 10 1200), (3, 2, desc0 0 0 10 8), (3, 3, desc0 0 0 10 8), (2, 4, desc0 8589934656 10 10 8)]
theorem test_stream_engines :
    strmTries.all (fun v => let s := atSt v.2.1 (wSt v.1) v.2.2; goes s v.2.1 v.1 (wSt v.1) 5 (streamReq s)) = true := by decide +kernel
/-- An entry that R96 takes for imgOf, in the window at offset 0, for SET_LAUNCH; a REPLAY from a sealed checkpoint. -/
def lteB (en : Byte) : Bytes := [en, 0, 0, 0] ++ zeros 28 ++ natLe 4 4000 ++ natLe 4 20000 ++ natLe 4 40000 ++ zeros 20
def setSt (st : PState) (en : Byte) (e : Lte) : State :=
  ask 0x0104 (setPay (Config.shake (lteB en) 32)) { in0 { loaded0 st with img := { (loaded0 st).img with hbm := memWrite [] 0 (lteB en) } } with ltes := [(0, e)] }
def sealedPay : Bytes := [0, 1] ++ zeros 6 ++ natLe 8 0 ++ zeros 8 ++ outAt ++ natLe 4 4096 ++ zeros 132
def replay5 : Replay := { replay0 with slot := 5 }
theorem again {s : State} {o : Bytes} (h : sub o 8 16 = Config.serial) (hk : (s.sec.pend <|> s.sec.owners.getLast?) = some (ownerKeyOf o 0))
    (h2 : (s.sec.ownerLost && s.sec.ownerSlot == some (objArg o) && objForm o 3520) = true) : s.ownerAgain o = true := by
  rw [State.ownerAgain, h, hk, h2]; simp
/-- An owner object of a kind; a state to which its last byte comes; the same for an overlay of a block. -/
def record0 (arg : Nat) : Bytes := signed 2 128 arg (zeros 32) (zeros 3520)
def authSt (obj : Bytes) (x : Sec) : State := ask 0x0010 (lastSeg 0) (segd authKey obj x (mod 3))
def overlayOf (blk : Nat) (serial : Bytes) : Bytes := natLe 4 0x564F394B ++ natLe 1 blk ++ zeros 11 ++ serial ++ natLe 4 0 ++ zeros 28 ++ zeros 3308
def overlaySt (blk : Nat) (obj : Bytes) (x : Sec) (s : State) : State := ask 0x0404 (lastSeg blk) (segd (0x040400 + blk) obj x s)
def debugSt (arg : Nat) (x : Sec) (pol : Bytes) : State :=
  ask 0x0303 (lastSeg 1) (segd 0x030301 (signed 4 0 arg (zeros 32) []) x { mod 3 with otp := { work := [(4, pol)] } })
def zeroSt (arg : Nat) (body : Bytes) (x : Sec) : State := ask 0x0304 (lastSeg 1) (segd 0x030401 (signed 5 0 arg (zeros 32) body) x (mod 3))
/-- A block whose object goes on in another; a journal record of 64 bytes with its journal number; the state in which blocks of a kind come to a partition. -/
def blockMore (k : Nat) : Bytes := natLe 4 0x4254394B ++ natLe 1 k ++ zeros 19 ++ natLe 8 100 ++ natLe 4 32 ++ zeros 28 ++ zeros 32
def jObj (n : Nat) : Bytes := natLe 4 0x454A394B ++ [1] ++ zeros 43 ++ natLe 8 n ++ zeros 8

/-! ### The hypotheses of the statements -/

theorem test_hyps_stepRunsFrontCommand :
    (∃ (s : State) (c : Instr) (rest : List Instr), s.pending = c :: rest) :=
  ⟨{ mod 0 with pending := [.bootEnd] }, .bootEnd, [], by decide +kernel⟩

theorem test_hyps_idleStepIsOneCycle :
    (∃ (s : State), s.pending = [] ∧ s.board.input = false) ∧
    (∃ (s : State), s.pending = [] ∧ s.board.input = true) :=
  ⟨⟨mod 0, by decide +kernel, by decide +kernel⟩,
   ⟨{ mod 3 with board := { input := true } }, by decide +kernel, by decide +kernel⟩⟩

theorem test_hyps_powerUpAndBoot_1 :
    (∃ (s : State) (_pb1 _pb2 _modrst _perst _away : Bool) (_straps _rails : Nat), s.ctl.mstate ≠ 0) ∧
    (∃ (s : State) (_modrst _perst away : Bool) (_straps rails : Nat), s.ctl.mstate = 0 ∧ (s.board.tripped = false ∨ (away = true ∧ s.board.input =
      false)) ∧ rails % 512 = 511) ∧
    (∃ (s : State) (pb1 pb2 _modrst _perst away : Bool) (_straps _rails : Nat), s.ctl.mstate = 0 ∧ (pb1 = false ∨ pb2 = false ∨ (s.board.tripped =
      true ∧ (away = false ∨ s.board.input = true)))) ∧
    (∃ (s : State) (_modrst _perst away : Bool) (_straps rails k : Nat), s.ctl.mstate = 0 ∧ (s.board.tripped = false ∨ (away = true ∧ s.board.input =
      false)) ∧ k < 9 ∧ rails.testBit k = false ∧ (∀ j, j < k → rails.testBit j = true)) ∧
    (∃ (s : State) (a b intact : Bool), s.ctl.mstate = 1 ∧ s.board.stage = 5 ∧ s.board.modrst = false ∧ s.board.failing = none ∧ s.sec.dead = false ∧
      intact = true ∧ ((a = true ∧ s.verifies s.sec.flashA = true) ∨ (b = true ∧ s.verifies s.sec.flashB = true))) :=
  ⟨⟨mod 1, true, true, true, true, true, 0, 0, by decide +kernel⟩,
   ⟨{ mod 0 with board := { tripped := true } }, true, true, true, 0, 511, by decide +kernel, by decide +kernel, by decide +kernel⟩,
   ⟨{ mod 0 with board := { tripped := true } }, true, true, true, true, false, 0, 0, by decide +kernel, by decide +kernel⟩,
   ⟨mod 0, true, true, true, 0, 255, 8, by decide +kernel, by decide +kernel, by decide +kernel, by decide +kernel, by decide +kernel⟩,
   ⟨bootAt 5, false, true, true, by decide +kernel, by decide +kernel, by decide +kernel, by decide +kernel, by decide +kernel, by decide +kernel, by decide +kernel⟩⟩

theorem test_hyps_powerUpAndBoot_2 :
    (∃ (s : State) (a b intact : Bool), s.ctl.mstate = 1 ∧ s.board.stage = 5 ∧ s.board.modrst = false ∧ s.board.failing = none ∧ (s.sec.dead = true ∨
      intact = false ∨ ((a = false ∨ s.verifies s.sec.flashA = false) ∧ (b = false ∨ s.verifies s.sec.flashB = false)))) ∧
    (∃ (s : State) (_bad : List (Nat × Nat)) (_copies : Bool), s.inStage 6 = true) ∧
    (∃ (s : State) (_bad : List Nat), s.inStage 7 = true) ∧
    (∃ (s : State), s.inStage 8 = true) :=
  ⟨⟨{ bootAt 5 with sec := { flashB := { ok := false } } }, false, true, true, by decide +kernel, by decide +kernel, by decide +kernel, by decide +kernel, by decide +kernel⟩,
   ⟨bootAt 6, [], true, by decide +kernel⟩,
   ⟨bootAt 7, [], by decide +kernel⟩,
   ⟨bootAt 8, by decide +kernel⟩⟩

theorem test_hyps_powerLossAndReset_1 :
    (∃ (s : State) (_cause : Nat), s.ctl.mstate ≠ 0 ∧ s.board.failing = none) ∧
    (∃ (s : State) (_cause : Nat), (s.ctl.mstate = 0 ∨ s.board.failing ≠ none)) ∧
    (∃ (s : State) (cause : Nat), s.board.failing = some cause) ∧
    (∃ (s : State), s.board.failing = none) ∧
    (∃ (s : State), s.alive = true ∧ s.board.failing = none ∧ s.tempAtLeast 115 105 = true) ∧
    (∃ (s : State) (_good : Nat), s.ctl.mstate ≠ 0) :=
  ⟨⟨mod 3, 0, by decide +kernel, by decide +kernel⟩,
   ⟨{ mod 3 with board := { failing := some 1 } }, 0, by decide +kernel⟩,
   ⟨{ mod 3 with board := { failing := some 1 } }, 1, by decide +kernel⟩,
   ⟨mod 3, by decide +kernel⟩,
   ⟨{ mod 3 with dies := [(0, { temp := [(0, 920)] })] }, by decide +kernel, by decide +kernel, by decide +kernel⟩,
   ⟨mod 3, 0, by decide +kernel⟩⟩

theorem test_hyps_powerLossAndReset_2 :
    (∃ (s : State), s.board.failing = none ∧ s.ctl.mstate ≠ 0 ∧ s.ctl.mstate ≠ 6) ∧
    (∃ (s : State), s.board.failing = none ∧ (s.ctl.mstate = 0 ∨ s.ctl.mstate = 6)) ∧
    (∃ (s : State), s.board.failing ≠ none) ∧
    (∃ (s : State), s.board.modrst = true ∧ s.ctl.mstate = 1 ∧ s.board.stage = 4 ∧ s.board.failing = none) ∧
    (∃ (s : State), (s.board.modrst = false ∨ s.ctl.mstate ≠ 1 ∨ s.board.stage ≠ 4 ∨ s.board.failing ≠ none)) :=
  ⟨⟨mod 3, by decide +kernel, by decide +kernel, by decide +kernel⟩,
   ⟨mod 6, by decide +kernel, by decide +kernel⟩,
   ⟨{ mod 3 with board := { failing := some 1 } }, by decide +kernel⟩,
   ⟨{ mod 1 with board := { modrst := true, stage := 4 } }, by decide +kernel, by decide +kernel, by decide +kernel, by decide +kernel⟩,
   ⟨mod 3, by decide +kernel⟩⟩

theorem test_hyps_powerAndCoolingEvents_1 :
    (∃ (s : State) (_pb1 _pb2 : Bool), s.alive = true ∧ s.gran.loss = false) ∧
    (∃ (s : State) (_pb1 _pb2 : Bool), s.alive = true ∧ s.gran.loss = true) ∧
    (∃ (s : State), s.gran.loss = true) ∧
    (∃ (s : State), s.alive = true) ∧
    (∃ (s : State) (_inlet _outlet : Int), s.alive = true) ∧
    (∃ (s : State) (m : Int), s.alive = true ∧ s.board.jMax = some m) :=
  ⟨⟨mod 3, true, true, by decide +kernel, by decide +kernel⟩,
   ⟨{ mod 3 with gran := { loss := true } }, true, true, by decide +kernel, by decide +kernel⟩,
   ⟨{ mod 3 with gran := { loss := true } }, by decide +kernel⟩,
   ⟨mod 3, by decide +kernel⟩,
   ⟨mod 3, 0, 0, by decide +kernel⟩,
   ⟨{ mod 3 with board := { jMax := some 800 } }, 800, by decide +kernel, by decide +kernel⟩⟩

theorem test_hyps_powerAndCoolingEvents_2 :
    (∃ (s : State), s.board.jMax = none) ∧
    (∃ (s : State) (p k : Nat), (s.part p).pwr.ramp = some k) ∧
    (∃ (s : State) (_watts _mean _volts _i1 _i2 : Nat) (_draws : List (Nat × Nat)) (_doms : List DomSample), s.alive = true) ∧
    (∃ (s : State) (watts _mean _volts _i1 _i2 p : Nat), s.alive = true ∧ s.gran.loss = false ∧ 16000 ≤ watts ∧ p < 8 ∧ (s.part p).pwr.grant ≠ 0 ∧ (∀
      r, r ≠ p → (s.part r).pwr.grant = 0)) ∧
    (∃ (s : State) (watts _mean _volts _i1 _i2 : Nat), s.alive = true ∧ s.gran.loss = false ∧ watts ≤ 15000) ∧
    (∃ (s : State) (p w : Nat), (s.part p).pwr.grant ≠ 0 ∧ (s.part p).pwr.grant * 102000 < w * 100 ∧ (s.part p).pwr.guardLast = none) :=
  ⟨⟨mod 3, by decide +kernel⟩,
   ⟨part { pwr := { ramp := some 63 } }, 0, 63, by decide +kernel⟩,
   ⟨mod 3, 0, 0, 0, 0, 0, [], [], by decide +kernel⟩,
   ⟨part { pwr := { grant := 3000 } }, 16000, 0, 0, 0, 0, 0, by decide +kernel, by decide +kernel, by decide +kernel, by decide +kernel, by decide +kernel, (fun r h => by cases r with | zero => exact absurd rfl h | succ n => rfl)⟩,
   ⟨mod 3, 15000, 0, 0, 0, 0, by decide +kernel, by decide +kernel, by decide +kernel⟩,
   ⟨part { pwr := { grant := 3000 } }, 0, 3060001, by decide +kernel, by decide +kernel, by decide +kernel⟩⟩

theorem test_hyps_powerAndCoolingEvents_3 :
    (∃ (s : State) (p w : Nat), ((s.part p).pwr.grant = 0 ∨ w * 100 ≤ (s.part p).pwr.grant * 101000)) ∧
    (∃ (s : State) (_dies : List (Nat × Nat × Int)) (_stks _root _edge : List (Nat × Int)), s.alive = true) ∧
    (∃ (s : State) (d k : Nat) (_x : Int), s.alive = true ∧ d < 288 ∧ k < 4) ∧
    (∃ (s : State) (k r e : Nat) (_x _y _z : Int), s.alive = true ∧ k < s.stacks ∧ r < 16 ∧ e < 16) ∧
    (∃ (s : State), s.hotUnits ≠ []) ∧
    (∃ (s : State), s.hotUnits = []) :=
  ⟨⟨part { pwr := { grant := 3000 } }, 0, 3030000, by decide +kernel⟩,
   ⟨mod 3, [], [], [], [], by decide +kernel⟩,
   ⟨mod 3, 287, 3, 0, by decide +kernel, by decide +kernel, by decide +kernel⟩,
   ⟨mod 3, 31, 15, 15, 0, 0, 0, by decide +kernel, by decide +kernel, by decide +kernel, by decide +kernel⟩,
   ⟨{ mod 3 with dies := [(0, { temp := [(0, 840)] })] }, by decide +kernel⟩,
   ⟨mod 3, by decide +kernel⟩⟩

theorem test_hyps_thermalCapAdjusts :
    (∃ (s : State), s.alive = true ∧ s.tempAtLeast 100 90 = true) ∧
    (∃ (s : State), s.alive = true ∧ s.tempAtLeast 97 87 = false) ∧
    (∃ (s : State), s.tempAtLeast 97 87 = true ∧ s.tempAtLeast 100 90 = false) :=
  ⟨⟨{ mod 3 with dies := [(0, { temp := [(0, 800)] })] }, by decide +kernel, by decide +kernel⟩,
   ⟨{ mod 3 with dies := [(0, { temp := [(0, 775)] })] }, by decide +kernel, by decide +kernel⟩,
   ⟨{ mod 3 with dies := [(0, { temp := [(0, 776)] })] }, by decide +kernel, by decide +kernel⟩⟩

theorem test_hyps_timingInputsAndTap_1 :
    (∃ (s : State), s.alive = true ∧ s.time.tenMhz = true) ∧
    (∃ (s : State), s.alive = true ∧ s.time.ppsIn = true) ∧
    (∃ (s : State), s.alive = true ∧ s.board.hostRefBad = false) ∧
    (∃ (s : State), s.alive = true ∧ s.board.laneRefBad = false) ∧
    (∃ (s : State) (n : Nat), (s.alive = false ∨ 4 ≤ n ∨ (n = 0 ∧ s.time.tenMhz = false) ∨ (n = 1 ∧ s.time.ppsIn = false) ∨ (n = 2 ∧
      s.board.hostRefBad = true) ∨ (n = 3 ∧ s.board.laneRefBad = true))) ∧
    (∃ (s : State), s.alive = true) ∧
    (∃ (s : State), s.time.runs = true ∧ s.now % Config.tSec ≤ 131072 ∧ s.time.ppsSec ≠ some (s.now / Config.tSec)) :=
  ⟨⟨{ mod 3 with time := { tenMhz := true } }, by decide +kernel, by decide +kernel⟩,
   ⟨{ mod 3 with time := { ppsIn := true } }, by decide +kernel, by decide +kernel⟩,
   ⟨mod 3, by decide +kernel, by decide +kernel⟩,
   ⟨mod 3, by decide +kernel, by decide +kernel⟩,
   ⟨mod 3, 4, by decide +kernel⟩,
   ⟨mod 3, by decide +kernel⟩,
   ⟨{ mod 3 with time := { runs := true, count := Config.tSec * 4294967296 } }, by decide +kernel, by decide +kernel, by decide +kernel⟩⟩

theorem test_hyps_timingInputsAndTap_2 :
    (∃ (s : State), (s.time.runs = false ∨ 131072 < s.now % Config.tSec ∨ s.time.ppsSec = some (s.now / Config.tSec))) ∧
    (∃ (s : State), s.time.runs = true ∧ s.time.lastMark + 1500000000000 ≤ s.opTicks) ∧
    (∃ (s : State), s.time.runs = true ∧ s.time.ppsOn = true ∧ s.time.ppsIn = true) ∧
    (∃ (s : State), s.time.runs = true ∧ s.time.ppsOn = true ∧ s.time.ppsIn = false) ∧
    (∃ (s : State), (s.time.runs = false ∨ s.time.ppsOn = false)) ∧
    (∃ (s : State) (_code _levels _shifted : Nat), s.board.rails.testBit 0 = true) ∧
    (∃ (s : State) (_code _levels _shifted : Nat), s.board.rails.testBit 0 = false) :=
  ⟨⟨mod 3, by decide +kernel⟩,
   ⟨{ mod 3 with time := { runs := true }, opTicks := 1500000000000 }, by decide +kernel, by decide +kernel⟩,
   ⟨{ mod 3 with time := { runs := true, cfg := [0xFF, 0xFF, 0, 0, 0, 1, 3, 0, 0, 0], ppsIn := true } }, by decide +kernel, by decide +kernel, by decide +kernel⟩,
   ⟨{ mod 3 with time := { runs := true, cfg := [0xFF, 0xFF, 0, 0, 0, 1, 3, 0, 0, 0], ppsIn := false } }, by decide +kernel, by decide +kernel, by decide +kernel⟩,
   ⟨mod 3, by decide +kernel⟩,
   ⟨{ mod 3 with board := { rails := 1 } }, 0, 0, 0, by decide +kernel⟩,
   ⟨mod 3, 0, 0, 0, by decide +kernel⟩⟩

theorem test_hyps_ptpMessages_1 :
    (∃ (s : State) (port : Nat) (via : PtpVia) (ident domain _seq _origin : Nat) (_corr : Int) (interval : Nat), s.ptpPort port via domain = true ∧
      (s.ptp port).best = some ident ∧ 19531250 ≤ interval ∧ interval ≤ 5000000000) ∧
    (∃ (s : State) (port : Nat) (via : PtpVia) (ident domain seq _origin : Nat) (_corr : Int), s.ptpPort port via domain = true ∧ (s.ptp port).best =
      some ident ∧ (s.ptp port).pending = some seq) ∧
    (∃ (s : State) (port : Nat) (via : PtpVia) (_ident domain : Nat) (_ds : Dataset) (_interval : Nat) (_utc : Option Int), s.ptpPort port via domain
      = true ∧ (s.ptp port).masters = []) ∧
    (∃ (s : State) (port : Nat) (via : PtpVia) (ident domain : Nat) (_ds : Dataset) (interval : Nat) (_utc : Option Int) (m : Master), s.ptpPort port
      via domain = true ∧ (s.ptp port).masters = [m] ∧ m.ident ≠ ident ∧ s.opTicks ≤ m.last + 3 * interval) ∧
    (∃ (s : State) (port : Nat) (via : PtpVia) (ident domain seq _receipt : Nat) (_corr : Int), s.ptpPort port via domain = true ∧ s.time.peerMode =
      false ∧ (s.ptp port).best = some ident ∧ (s.ptp port).asked = true ∧ (s.ptp port).reqSeq = seq ∧ (s.ptp port).t2 ≠ 0) ∧
    (∃ (s : State) (port : Nat) (via : PtpVia) (domain _seq : Nat), s.ptpPort port via domain = true ∧ s.time.peerMode = true ∧ s.inWindow port =
      false) :=
  ⟨⟨ptpSt [(7, { best := some 9 })] 0, 7, ⟨false, none, .none⟩, 9, 0, 1, 5, 0, 19531250, by decide +kernel, by decide +kernel, by decide +kernel, by decide +kernel⟩,
   ⟨ptpSt [(7, { best := some 9, pending := some 1 })] 0, 7, ⟨false, none, .none⟩, 9, 0, 1, 5, 0, by decide +kernel, by decide +kernel, by decide +kernel⟩,
   ⟨ptpSt [] 0, 7, ⟨false, none, .none⟩, 9, 0, ⟨1, 1, 1, 1, 1, 1, 1⟩, 5, none, by decide +kernel, by decide +kernel⟩,
   ⟨ptpSt [(7, { masters := [⟨3, ⟨1, 1, 1, 1, 1, 2, 1⟩, 0⟩], best := some 3 })] 0, 7, ⟨false, none, .none⟩, 9, 0, ⟨1, 1, 1, 1, 1, 1, 1⟩, 5, none, ⟨3, ⟨1, 1, 1, 1, 1, 2, 1⟩, 0⟩, by decide +kernel, by decide +kernel, by decide +kernel, by decide +kernel⟩,
   ⟨ptpSt [(7, { best := some 9, asked := true, reqSeq := 1, t2 := 8 })] 0, 7, ⟨false, none, .none⟩, 9, 0, 1, 5, 0, by decide +kernel, by decide +kernel, by decide +kernel, by decide +kernel, by decide +kernel, by decide +kernel⟩,
   ⟨ptpSt [] 1, 7, ⟨false, none, .none⟩, 0, 1, by decide +kernel, by decide +kernel, by decide +kernel⟩⟩

theorem test_hyps_ptpMessages_2 :
    (∃ (s : State) (port : Nat) (_via : PtpVia) (_domain _seq : Nat), s.inWindow port = true) ∧
    (∃ (s : State) (port : Nat) (via : PtpVia) (domain seq _stamp : Nat) (_corr : Int), s.ptpPort port via domain = true ∧ s.time.peerMode = true ∧
      (s.ptp port).asked = true ∧ (s.ptp port).reqSeq = seq) ∧
    (∃ (s : State) (port : Nat) (via : PtpVia) (domain seq _stamp : Nat) (_corr : Int), ∃ t2 t4, s.ptpPort port via domain = true ∧ s.time.peerMode =
      true ∧ (s.ptp port).asked = true ∧ (s.ptp port).reqSeq = seq ∧ (s.ptp port).peer = some (t2, t4)) ∧
    (∃ (s : State) (port : Nat), s.ptpHere port = true ∧ s.inWindow port = false) ∧
    (∃ (s : State) (port : Nat), (s.ptp port).locked = true ∧ (s.ptp port).lastSync + max (4 * (s.ptp port).interval) 5000000000 ≤ s.opTicks) :=
  ⟨⟨{ part { res := { created := true, ports := 128 }, run := { emits := [{ emit0 with window := true }] } } with time := { runs := true } }, 7, ⟨false, none, .none⟩, 0, 1, by decide +kernel⟩,
   ⟨ptpSt [(7, { asked := true, reqSeq := 1 })] 1, 7, ⟨false, none, .none⟩, 0, 1, 5, 0, by decide +kernel, by decide +kernel, by decide +kernel, by decide +kernel⟩,
   ⟨ptpSt [(7, { asked := true, reqSeq := 1, peer := some (3, 4) })] 1, 7, ⟨false, none, .none⟩, 0, 1, 5, 0, 3, 4, by decide +kernel, by decide +kernel, by decide +kernel, by decide +kernel, by decide +kernel⟩,
   ⟨ptpSt [] 0, 7, by decide +kernel, by decide +kernel⟩,
   ⟨{ ptpSt [(7, { locked := true })] 0 with opTicks := 5000000000 }, 7, by decide +kernel, by decide +kernel⟩⟩

theorem test_hyps_inputCutAssembles :
    (∃ (s : State) (i t k : Nat), (s.lte i).owned = true ∧ ((s.lte i).en = true ∨ (s.lte i).trig = 2) ∧ s.time.runs = true ∧ s.nextTrigger i = some
      (t, k) ∧ (s.lte i).cutAt t ≤ s.now ∧ ((s.part (s.lte i).part).st = .running ∨ (s.part (s.lte i).part).st = .held) ∧ (s.part (s.lte
      i).part).twin.role = 0) ∧
    (∃ (s : State) (i t k : Nat), (s.lte i).owned = true ∧ ((s.lte i).en = true ∨ (s.lte i).trig = 2) ∧ s.time.runs = true ∧ s.nextTrigger i = some
      (t, k) ∧ (s.lte i).cutAt t ≤ s.now ∧ (s.part (s.lte i).part).st.triggers = true ∧ (s.part (s.lte i).part).st ≠ .faulted) ∧
    (∃ (s : State) (i t k : Nat), (s.lte i).owned = true ∧ ((s.lte i).en = true ∨ (s.lte i).trig = 2) ∧ s.time.runs = true ∧ s.nextTrigger i = some
      (t, k) ∧ (s.lte i).cutAt t ≤ s.now ∧ (s.part (s.lte i).part).st = .faulted) ∧
    (∃ (s : State) (i : Nat), (∀ t k, s.nextTrigger i = some (t, k) → s.now < (s.lte i).cutAt t)) ∧
    (∃ (s : State) (src : Nat), (s.awn src).state = 3 ∧ (s.awn src).flySince + 5000000000 ≤ s.opTicks) ∧
    (∃ (s : State) (src : Nat), ((s.awn src).state ≠ 3 ∨ s.opTicks < (s.awn src).flySince + 5000000000)) :=
  ⟨⟨timed 5 { st := .running } (lte0 5), 0, 5, 0, by decide +kernel, by decide +kernel, by decide +kernel, by decide +kernel, by decide +kernel, by decide +kernel, by decide +kernel⟩,
   ⟨timed 5 { st := .shadow } (lte0 5), 0, 5, 0, by decide +kernel, by decide +kernel, by decide +kernel, by decide +kernel, by decide +kernel, by decide +kernel, by decide +kernel⟩,
   ⟨timed 5 { st := .faulted } (lte0 5), 0, 5, 0, by decide +kernel, by decide +kernel, by decide +kernel, by decide +kernel, by decide +kernel, by decide +kernel⟩,
   ⟨mod 3, 0, (fun _ _ h => nomatch h)⟩,
   ⟨{ mod 3 with meas := { awn := [(0, { state := 3 })] }, opTicks := 5000000000 }, 0, by decide +kernel, by decide +kernel⟩,
   ⟨mod 3, 0, by decide +kernel⟩⟩

theorem test_hyps_launchDecided :
    (∃ (s : State) (p : Nat) (g : Trigger) (im : Image), (s.part p).st = .running ∧ (s.part p).twin.role = 0 ∧ (s.part p).ctl.stop = [] ∧ (s.part
      p).run.triggers = [g] ∧ s.time.runs = true ∧ g.launch ≤ s.now ∧ g.suppressed = false ∧ ((s.lte g.entry).trig = 1 → s.noLock (s.lte
      g.entry).src = false) ∧ (s.lte g.entry).once = false ∧ (s.part p).run.frame = none ∧ g.buf.isSome = true ∧ (s.part p).throttled g.launch =
      false ∧ s.journalRoom p g.data = true ∧ (s.part p).img.image = some im) ∧
    (∃ (s : State) (p : Nat) (g : Trigger) (f : Frame), (s.part p).st = .running ∧ (s.part p).twin.role = 0 ∧ (s.part p).run.triggers = [g] ∧
      s.time.runs = true ∧ g.launch ≤ s.now ∧ g.suppressed = false ∧ ((s.lte g.entry).trig = 1 → s.noLock (s.lte g.entry).src = false) ∧ (s.lte
      g.entry).once = false ∧ (s.part p).run.frame = some f ∧ (s.part p).ck.reserve < 16383) ∧
    (∃ (s : State) (p : Nat) (g : Trigger), (s.part p).st = .running ∧ (s.part p).twin.role = 0 ∧ (s.part p).ctl.stop = [] ∧ (s.part p).run.triggers
      = [g] ∧ s.time.runs = true ∧ g.launch ≤ s.now ∧ g.suppressed = false ∧ ((s.lte g.entry).trig = 1 → s.noLock (s.lte g.entry).src = false) ∧
      (s.lte g.entry).once = false ∧ (s.part p).run.frame = none ∧ g.buf.isSome = true ∧ (s.part p).throttled g.launch = true ∧ (s.part
      p).ck.reserve < 16383 ∧ (s.part p).ctl.lteP = []) ∧
    (∃ (s : State) (p : Nat) (g : Trigger), (s.part p).st = .faulted ∧ (s.part p).run.triggers = [g] ∧ s.time.runs = true ∧ g.launch ≤ s.now ∧
      (s.part p).ctl.lteP = []) ∧
    (∃ (s : State) (p : Nat), (∀ g ∈ (s.part p).run.triggers, s.now < g.launch)) ∧
    (∃ (s : State) (p : Nat) (g : Trigger), (s.part p).run.triggers = [g] ∧ s.time.runs = true ∧ g.launch ≤ s.now ∧ (s.lte g.entry).once = true ∧
      (s.lte g.entry).trig ≠ 2 ∧ (s.part p).ctl.lteP = []) :=
  ⟨⟨timed 5 { st := .running, run := { triggers := [trig0] }, img := { image := some img0 } } (lte0 5), 0, trig0, img0, by decide +kernel, by decide +kernel, by decide +kernel, by decide +kernel, by decide +kernel, by decide +kernel, by decide +kernel, by decide +kernel, by decide +kernel, by decide +kernel, by decide +kernel, by decide +kernel, by decide +kernel, rfl⟩,
   ⟨timed 5 { st := .running, run := { triggers := [trig0], frame := some frame0 } } (lte0 5), 0, trig0, frame0, by decide +kernel, by decide +kernel, by decide +kernel, by decide +kernel, by decide +kernel, by decide +kernel, by decide +kernel, by decide +kernel, by decide +kernel, by decide +kernel⟩,
   ⟨timed 5 { st := .running, run := { triggers := [trig0] }, ctl := { lastLaunch := some 0 }, pwr := { tmin := 1 } } (lte0 5), 0, trig0, by decide +kernel, by decide +kernel, by decide +kernel, by decide +kernel, by decide +kernel, by decide +kernel, by decide +kernel, by decide +kernel, by decide +kernel, by decide +kernel, by decide +kernel, by decide +kernel, by decide +kernel, by decide +kernel⟩,
   ⟨timed 5 { st := .faulted, run := { triggers := [trig0] } } (lte0 5), 0, trig0, by decide +kernel, by decide +kernel, by decide +kernel, by decide +kernel, by decide +kernel⟩,
   ⟨timed 4 { st := .running, run := { triggers := [trig0] } } (lte0 5), 0, by decide +kernel⟩,
   ⟨timed 5 { st := .running, run := { triggers := [trig0] }, img := { image := some img0 } } { lte0 5 with raw := [9] ++ (lte0 5).raw.drop 1 }, 0, trig0, by decide +kernel, by decide +kernel, by decide +kernel, by decide +kernel, by decide +kernel, by decide +kernel⟩⟩

theorem test_hyps_emissionInstants_1 :
    (∃ (s : State) (p : Nat) (e : Emit), (s.part p).run.emits = [e] ∧ e.took = none ∧ e.guardT ≤ s.now ∧ s.outputReady p e = true ∧ (s.part
      p).run.byBreak = false) ∧
    (∃ (s : State) (p : Nat) (e : Emit), (s.part p).run.emits = [e] ∧ e.took = none ∧ e.guardT ≤ s.now ∧ (s.outputReady p e = false ∨ (s.part
      p).run.byBreak = true)) ∧
    (∃ (s : State) (p : Nat), (∀ e ∈ (s.part p).run.emits, e.took ≠ none ∨ s.now < e.guardT)) ∧
    (∃ (s : State) (p : Nat) (e : Emit), (s.part p).run.emits = [e] ∧ e.emitted = false ∧ e.window = false ∧ e.emitT ≤ s.now + 2000 * 65536) ∧
    (∃ (s : State) (p : Nat), (∀ e ∈ (s.part p).run.emits, s.now + 2000 * 65536 < e.emitT)) ∧
    (∃ (s : State) (p : Nat) (e : Emit), (s.part p).run.emits = [e] ∧ e.emitted = false ∧ e.emitT ≤ s.now ∧ e.took = some true ∧ ((s.part p).st =
      .running ∨ (s.part p).st = .held) ∧ (s.part p).twin.role = 0 ∧ (s.part p).twin.tolMode = false ∧ (s.part p).twin.emitP = none) :=
  ⟨⟨timed 5 { run := { emits := [{ emit0 with step := 1 }] } } {}, 0, { emit0 with step := 1 }, by decide +kernel, by decide +kernel, by decide +kernel, by decide +kernel, by decide +kernel⟩,
   ⟨timed 5 { run := { emits := [{ emit0 with launched := false }] } } {}, 0, { emit0 with launched := false }, by decide +kernel, by decide +kernel, by decide +kernel, by decide +kernel⟩,
   ⟨timed 4 { run := { emits := [emit0] } } {}, 0, by decide +kernel⟩,
   ⟨timed 5 { run := { emits := [{ emit0 with emitT := 131072005 }] } } {}, 0, { emit0 with emitT := 131072005 }, by decide +kernel, by decide +kernel, by decide +kernel, by decide +kernel⟩,
   ⟨timed 4 { run := { emits := [{ emit0 with emitT := 131072005 }] } } {}, 0, by decide +kernel⟩,
   ⟨timed 5 { st := .running, run := { emits := [{ emit0 with took := some true }] } } {}, 0, { emit0 with took := some true }, by decide +kernel, by decide +kernel, by decide +kernel, by decide +kernel, by decide +kernel, by decide +kernel, by decide +kernel, by decide +kernel⟩⟩

theorem test_hyps_emissionInstants_2 :
    (∃ (s : State) (p : Nat) (e : Emit), (s.part p).run.emits = [e] ∧ e.emitted = false ∧ e.emitT ≤ s.now ∧ e.took = some false ∧ e.launched = false
      ∧ (s.part p).twin.tolMode = false ∧ (s.part p).twin.emitP = none) ∧
    (∃ (s : State) (p : Nat) (e : Emit) (f : Frame), (s.part p).run.emits = [e] ∧ e.emitted = false ∧ e.emitT ≤ s.now ∧ e.took = some false ∧
      e.launched = true ∧ e.ofFrame (s.part p).run = true ∧ (s.part p).run.frame = some f ∧ f.infDone = false ∧ (s.part p).twin.tolMode = false ∧
      (s.part p).twin.emitP = none) ∧
    (∃ (s : State) (p : Nat), (∀ e ∈ (s.part p).run.emits, e.emitted = true ∨ s.now < e.emitT)) ∧
    (∃ (s : State) (p : Nat) (f : Frame), (s.part p).run.frame = some f ∧ f.overrun = false ∧ f.rerun = false ∧ f.deadline ≤ s.now) ∧
    (∃ (s : State) (p : Nat), (∀ f, (s.part p).run.frame = some f → f.overrun = true ∨ f.rerun = true ∨ s.now < f.deadline)) :=
  ⟨⟨timed 5 { run := { emits := [{ emit0 with took := some false, launched := false }] } } {}, 0, { emit0 with took := some false, launched := false }, by decide +kernel, by decide +kernel, by decide +kernel, by decide +kernel, by decide +kernel, by decide +kernel, by decide +kernel⟩,
   ⟨timed 5 { st := .running, run := { emits := [{ emit0 with took := some false, step := 2 }], frame := some { frame0 with emitT := 5 } } } {}, 0, { emit0 with took := some false, step := 2 }, { frame0 with emitT := 5 }, by decide +kernel, by decide +kernel, by decide +kernel, by decide +kernel, by decide +kernel, by decide +kernel, by decide +kernel, by decide +kernel, by decide +kernel, by decide +kernel⟩,
   ⟨timed 4 { run := { emits := [emit0] } } {}, 0, by decide +kernel⟩,
   ⟨timed 5 { run := { frame := some frame0 } } {}, 0, frame0, by decide +kernel, by decide +kernel, by decide +kernel, by decide +kernel⟩,
   ⟨mod 3, 0, (fun _ h => nomatch h)⟩⟩

theorem test_hyps_digestAndTimeFrames :
    (∃ (s : State) (p : Nat) (d : Nat × Nat × Nat × Bytes) (rest : List (Nat × Nat × Nat × Bytes)), (s.part p).run.digests = d :: rest ∧ (∀ e ∈
      (s.part p).run.emits, e.window = false ∨ e.emitted = true)) ∧
    (∃ (s : State) (p : Nat), ((s.part p).run.digests = [] ∨ ∃ e ∈ (s.part p).run.emits, e.window = true ∧ e.emitted = false)) ∧
    (∃ (s : State) (p q : Nat) (d : Nat × Nat × Nat × Bytes) (rest : List (Nat × Nat × Nat × Bytes)), (s.part p).run.digests = d :: rest ∧ (∀ e ∈
      (s.part p).run.emits, e.window = false ∨ e.emitted = true) ∧ q < 8 ∧ (s.part p).res.ports = 2 ^ q ∧ (s.port q).mode = 1 ∧ (s.port q).isUp 0
      = true ∧ bit (fld ((s.port q).subCfg 0) 3 1) 2 = true ∧ bit (fld ((s.port q).subCfg 0) 3 1) 0 = false) ∧
    (∃ (s : State) (q : Nat), (s.port q).mode = 1 ∧ (s.port q).isUp 0 = true ∧ bit (fld ((s.port q).subCfg 0) 3 1) 1 = true ∧ s.time.runs = true ∧
      (s.port q).timeSec ≠ some (s.now / Config.tSec) ∧ s.inWindow q = false) ∧
    (∃ (s : State) (q : Nat), ((s.port q).timeSec = some (s.now / Config.tSec) ∨ s.inWindow q = true)) :=
  ⟨⟨part { run := { digests := [(1, 2, 3, [])] } }, 0, (1, 2, 3, []), [], by decide +kernel, by decide +kernel⟩,
   ⟨part { run := { digests := [(1, 2, 3, [])], emits := [{ emit0 with window := true }] } }, 0, by decide +kernel⟩,
   ⟨{ part { run := { digests := [(1, 2, 3, [])] }, res := { ports := 128 } } with field := { ports := [(7, { mode := 1, lanes := 15, cfg := [(0, [0, 0, 0, 4])] })] } }, 0, 7, (1, 2, 3, []), [], by decide +kernel, by decide +kernel, by decide +kernel, by decide +kernel, by decide +kernel, by decide +kernel, by decide +kernel, by decide +kernel⟩,
   ⟨{ timed Config.tSec {} {} with field := { ports := [(7, { mode := 1, lanes := 15, cfg := [(0, [0, 0, 0, 2])] })] } }, 7, by decide +kernel, by decide +kernel, by decide +kernel, by decide +kernel, by decide +kernel, by decide +kernel⟩,
   ⟨{ timed Config.tSec {} {} with field := { ports := [(7, { timeSec := some 1 })] } }, 7, by decide +kernel⟩⟩

theorem test_hyps_stepAndFrameEnd :
    (∃ (s : State) (c p l now : Nat), s.liveCycle c = some (p, l, now) ∧ (s.core c).seq.complete = none ∧ (s.core c).stepEndDone now = true) ∧
    (∃ (s : State) (c p l now : Nat), s.liveCycle c = some (p, l, now) ∧ (s.core c).stepEndDone now = false) ∧
    (∃ (s : State) (p : Nat) (f : Frame) (g : Image), (s.part p).run.frame = some f ∧ f.idx + 1 < f.steps ∧ s.barrierDue p = true ∧ f.rerun = false ∧
      (s.part p).img.image = some g ∧ (s.part p).ck.replay = none ∧ (s.part p).ck.cls = none ∧ (s.part p).twin.role = 0) ∧
    (∃ (s : State) (p : Nat) (f : Frame), (s.part p).run.frame = some f ∧ f.idx + 1 = f.steps ∧ s.barrierDue p = true ∧ f.rerun = false ∧ (s.part
      p).ck.replay = none ∧ (s.part p).ck.cls = none ∧ (s.part p).twin.role = 0 ∧ (s.part p).ctl.stop = []) ∧
    (∃ (s : State) (p n : Nat) (rest : List Nat) (f : Frame), (s.part p).run.frame = some f ∧ f.idx + 1 = f.steps ∧ s.barrierDue p = true ∧ f.rerun =
      false ∧ (s.part p).ck.replay = none ∧ (s.part p).ck.cls = none ∧ (s.part p).twin.role = 0 ∧ (s.part p).ctl.stop = n :: rest ∧ (s.part
      p).ctl.ckpt = []) ∧
    (∃ (s : State) (p : Nat) (f : Frame) (j : JEntry) (rest : List JEntry), (s.part p).run.frame = some f ∧ f.idx + 1 = f.steps ∧ s.barrierDue p =
      true ∧ f.rerun = true ∧ (s.part p).ck.replay = none ∧ (s.part p).ck.cls = none ∧ (s.part p).twin.div = none ∧ (s.part p).ctl.stop = [] ∧
      (s.part p).ck.catchUp = j :: rest) ∧
    (∃ (s : State) (p : Nat), s.barrierDue p = false) :=
  ⟨⟨step0 { stepCyc := 40 } { seq := { ended := some (32, 0) } }, 0, 0, 0, 40, by decide +kernel, by decide +kernel, by decide +kernel⟩,
   ⟨step0 { stepCyc := 40 } {}, 0, 0, 0, 40, by decide +kernel, by decide +kernel⟩,
   ⟨barrier0 frame0, 0, frame0, img0, by decide +kernel, by decide +kernel, by decide +kernel, by decide +kernel, rfl, by decide +kernel, by decide +kernel, by decide +kernel⟩,
   ⟨barrier0 { frame0 with idx := 1 }, 0, { frame0 with idx := 1 }, by decide +kernel, by decide +kernel, by decide +kernel, by decide +kernel, by decide +kernel, by decide +kernel, by decide +kernel, by decide +kernel⟩,
   ⟨((barrier0 { frame0 with idx := 1 }).modPart 0 fun q => { q with ctl := { q.ctl with stop := [3] } }), 0, 3, [], { frame0 with idx := 1 }, by decide +kernel, by decide +kernel, by decide +kernel, by decide +kernel, by decide +kernel, by decide +kernel, by decide +kernel, by decide +kernel, by decide +kernel⟩,
   ⟨((barrier0 { frame0 with idx := 1, rerun := true }).modPart 0 fun q => { q with st := .restarting, ck := { q.ck with stage := 3, catchUp := [entry0] } }), 0, { frame0 with idx := 1, rerun := true }, entry0, [], by decide +kernel, by decide +kernel, by decide +kernel, by decide +kernel, by decide +kernel, by decide +kernel, by decide +kernel, by decide +kernel, by decide +kernel⟩,
   ⟨mod 3, 0, by decide +kernel⟩⟩

theorem test_hyps_coreTimeouts :
    (∃ (s : State) (c p l now : Nat) (f : Frame), s.liveCycle c = some (p, l, now) ∧ s.faultFree p c ∧ (s.part p).run.frame = some f ∧ (s.core
      c).seq.complete = none ∧ 2 * f.cycles.getD f.idx 0 ≤ now) ∧
    (∃ (s : State) (c p l now : Nat) (f : Frame), s.liveCycle c = some (p, l, now) ∧ (s.part p).run.frame = some f ∧ ((s.core c).seq.complete.isSome
      = true ∨ now < 2 * f.cycles.getD f.idx 0)) ∧
    (∃ (s : State) (c p l now from_ : Nat), s.liveCycle c = some (p, l, now) ∧ s.faultFree p c ∧ (s.core c).deadlockFrom now (!(s.part p).slotted) =
      some from_ ∧ from_ + 4095 ≤ now) ∧
    (∃ (s : State) (c p l now : Nat), s.liveCycle c = some (p, l, now) ∧ (∀ from_, (s.core c).deadlockFrom now (!(s.part p).slotted) = some from_ →
      now < from_ + 4095)) ∧
    (∃ (s : State) (c p l now : Nat), s.liveCycle c = some (p, l, now) ∧ s.faultFree p c ∧ (s.core c).seq.len ≤ (s.core c).seq.pos ∧ (s.core
      c).seq.ended = none ∧ ((s.core c).eng.getD 6 {}).stopped = false ∧ ((s.core c).eng.getD 6 {}).last.getD 0 + (s.core c).minStamp 6 ≤ now) ∧
    (∃ (s : State) (c p l now : Nat), s.liveCycle c = some (p, l, now) ∧ ((s.core c).seq.pos < (s.core c).seq.len ∨ (s.core c).seq.ended.isSome =
      true)) :=
  ⟨⟨step0 { stepCyc := 20, frame := some frame0 } {}, 0, 0, 0, 20, frame0, by decide +kernel, (by unfold State.faultFree; decide +kernel), by decide +kernel, by decide +kernel, by decide +kernel⟩,
   ⟨step0 { stepCyc := 19, frame := some frame0 } {}, 0, 0, 0, 19, frame0, by decide +kernel, by decide +kernel, by decide +kernel⟩,
   ⟨step0 { stepCyc := 4200 } { eng := [(0, { queue := [⟨inst 0 1048576, false, 0⟩] })], seq := { ended := some (32, 0) } }, 0, 0, 0, 4200, 1, by decide +kernel, (by unfold State.faultFree; decide +kernel), by decide +kernel, by decide +kernel⟩,
   ⟨step0 { stepCyc := 20 } { flights := [fly 6 0 (inst 0 134217728) (some 25)] }, 0, 0, 0, 20, by decide +kernel, (fun _ h => nomatch h)⟩,
   ⟨step0 { stepCyc := 32 } {}, 0, 0, 0, 32, by decide +kernel, (by unfold State.faultFree; decide +kernel), by decide +kernel, by decide +kernel, by decide +kernel, by decide +kernel⟩,
   ⟨step0 { stepCyc := 32 } { seq := { len := 1 } }, 0, 0, 0, 32, by decide +kernel, by decide +kernel⟩⟩

theorem test_hyps_fetchDelivery :
    (∃ (s : State) (c p l now : Nat) (f : Fetch) (rest : List Fetch), s.liveCycle c = some (p, l, now) ∧ (s.core c).seq.fetches = f :: rest ∧ (s.core
      c).seq.slotsTaken now < 2 ∧ f.start = none ∧ f.due ≤ now ∧ (f.src = 1 ∨ f.data = true)) ∧
    (∃ (s : State) (c p l now : Nat), s.liveCycle c = some (p, l, now) ∧ 2 ≤ (s.core c).seq.slotsTaken now) ∧
    (∃ (s : State) (c p l now : Nat) (f : Fetch) (rest : List Fetch) (y : QEntry), s.liveCycle c = some (p, l, now) ∧ (s.core c).seq.fetches = f ::
      rest ∧ arriving now f = true ∧ (f.src = 1 → (s.core c).sp.badIn (f.addr + 16 * f.delivered) 16 = none) ∧ y = ⟨(f.words.getD f.delivered (0,
      false)).1, (f.words.getD f.delivered (0, false)).2 || (f.src == 0 && (s.part p).img.streamsPoison.contains ((f.addr + 16 * f.delivered) /
      64)), now⟩ ∧ ((s.core c).eng.getD f.queue {}).queue.length < 256 ∧ (((s.core c).eng.getD f.queue {}).queue ≠ [] ∨ (y.poison = false ∧
      ((s.part p).slotted = false ∨ (s.part p).ctl.stall = true ∨ now < (s.core c).stampCycle f.queue (wStamp y.word) ((s.core c).minStamp
      f.queue) false)))) ∧
    (∃ (s : State) (c p l now : Nat) (f : Fetch) (rest : List Fetch) (y : QEntry), s.liveCycle c = some (p, l, now) ∧ (s.core c).seq.fetches = f ::
      rest ∧ arriving now f = true ∧ (f.src = 1 → (s.core c).sp.badIn (f.addr + 16 * f.delivered) 16 = none) ∧ y = ⟨(f.words.getD f.delivered (0,
      false)).1, (f.words.getD f.delivered (0, false)).2 || (f.src == 0 && (s.part p).img.streamsPoison.contains ((f.addr + 16 * f.delivered) /
      64)), now⟩ ∧ s.faultFree p c ∧ 256 ≤ ((s.core c).eng.getD f.queue {}).queue.length) ∧
    (∃ (s : State) (c p l now : Nat) (f : Fetch) (rest : List Fetch) (y : QEntry), s.liveCycle c = some (p, l, now) ∧ (s.core c).seq.fetches = f ::
      rest ∧ arriving now f = true ∧ (f.src = 1 → (s.core c).sp.badIn (f.addr + 16 * f.delivered) 16 = none) ∧ y = ⟨(f.words.getD f.delivered (0,
      false)).1, (f.words.getD f.delivered (0, false)).2 || (f.src == 0 && (s.part p).img.streamsPoison.contains ((f.addr + 16 * f.delivered) /
      64)), now⟩ ∧ s.faultFree p c ∧ ((s.core c).eng.getD f.queue {}).queue = [] ∧ (s.part p).slotted = true ∧ (s.part p).ctl.stall = false ∧
      (s.core c).stampCycle f.queue (wStamp y.word) ((s.core c).minStamp f.queue) false ≤ now) ∧
    (∃ (s : State) (c p l now : Nat) (f : Fetch) (rest : List Fetch) (y : QEntry), s.liveCycle c = some (p, l, now) ∧ (s.core c).seq.fetches = f ::
      rest ∧ arriving now f = true ∧ (f.src = 1 → (s.core c).sp.badIn (f.addr + 16 * f.delivered) 16 = none) ∧ y = ⟨(f.words.getD f.delivered (0,
      false)).1, (f.words.getD f.delivered (0, false)).2 || (f.src == 0 && (s.part p).img.streamsPoison.contains ((f.addr + 16 * f.delivered) /
      64)), now⟩ ∧ s.faultFree p c ∧ ((s.core c).eng.getD f.queue {}).queue = [] ∧ (s.part p).slotted = false ∧ y.poison = true) ∧
    (∃ (s : State) (c p l now : Nat) (_corrected _retried : Bool) (f : Fetch) (rest : List Fetch), s.liveCycle c = some (p, l, now) ∧ (s.core
      c).seq.fetches = f :: rest ∧ f.src = 0 ∧ f.checked = false ∧ f.due ≤ now + 96 ∧ f.data = false) ∧
    (∃ (s : State) (c p l now : Nat) (_corrected _retried : Bool) (f : Fetch) (rest : List Fetch), s.liveCycle c = some (p, l, now) ∧ (s.core
      c).seq.fetches = f :: rest ∧ f.src = 0 ∧ f.checked = false ∧ f.due ≤ now + 96 ∧ f.data = true) :=
  ⟨⟨step0 { stepCyc := 5 } { seq := { fetches := [fetch0 0 none true] } }, 0, 0, 0, 5, fetch0 0 none true, [], by decide +kernel, by decide +kernel, by decide +kernel, by decide +kernel, by decide +kernel, by decide +kernel⟩,
   ⟨step0 { stepCyc := 5 } { seq := { fetches := [fetch0 0 (some 5) true, fetch0 1 (some 5) true] } }, 0, 0, 0, 5, by decide +kernel, by decide +kernel⟩,
   ⟨queued (step0 { stepCyc := 5 } { seq := { fetches := [fetch0 0 (some 5) true] } }), 0, 0, 0, 5, fetch0 0 (some 5) true, [], _, by decide +kernel, by decide +kernel, by decide +kernel, by decide +kernel, rfl, by decide +kernel, by decide +kernel⟩,
   ⟨step0 { stepCyc := 5 } { seq := { fetches := [fetch0 0 (some 5) true] }, eng := [(0, { queue := List.replicate 256 ⟨0, false, 0⟩ })] }, 0, 0, 0, 5, fetch0 0 (some 5) true, [], _, by decide +kernel, by decide +kernel, by decide +kernel, by decide +kernel, rfl, (by unfold State.faultFree; decide +kernel), by decide +kernel⟩,
   ⟨step0 { stepCyc := 5 } { seq := { fetches := [fetch0 0 (some 5) true] } }, 0, 0, 0, 5, fetch0 0 (some 5) true, [], _, by decide +kernel, by decide +kernel, by decide +kernel, by decide +kernel, rfl, (by unfold State.faultFree; decide +kernel), by decide +kernel, by decide +kernel, by decide +kernel, by decide +kernel⟩,
   ⟨queued (step0 { stepCyc := 5 } { seq := { fetches := [{ fetch0 0 (some 5) true with words := [(0, true)] }] } }), 0, 0, 0, 5, { fetch0 0 (some 5) true with words := [(0, true)] }, [], _, by decide +kernel, by decide +kernel, by decide +kernel, by decide +kernel, rfl, (by unfold State.faultFree; decide +kernel), by decide +kernel, by decide +kernel, by decide +kernel⟩,
   ⟨step0 { stepCyc := 0 } { seq := { fetches := [{ fetch0 0 none false with due := 96 }] } }, 0, 0, 0, 0, false, false, { fetch0 0 none false with due := 96 }, [], by decide +kernel, by decide +kernel, by decide +kernel, by decide +kernel, by decide +kernel, by decide +kernel⟩,
   ⟨step0 { stepCyc := 0 } { seq := { fetches := [{ fetch0 0 none true with due := 96 }] } }, 0, 0, 0, 0, false, false, { fetch0 0 none true with due := 96 }, [], by decide +kernel, by decide +kernel, by decide +kernel, by decide +kernel, by decide +kernel, by decide +kernel⟩⟩

theorem test_hyps_signalsAndReleases :
    (∃ (s : State) (c p l now : Nat) (f : Flight), s.liveCycle c = some (p, l, now) ∧ (s.core c).flights = [f] ∧ f.eng < 7 ∧ f.signalDue now = true ∧
      (s.part p).ck.replay = none ∧ (∀ e, e < 7 → 0 ≤ flagDiff (((s.core c).fcnt.getD (wSflag f.word) 0 + 1) % 4294967296) (((s.core c).eng.getD
      e {}).ccnt.getD (wSflag f.word) 0))) ∧
    (∃ (s : State) (c p l now : Nat), s.liveCycle c = some (p, l, now)) :=
  ⟨⟨step0 { stepCyc := 5 } { flights := [fly 6 0 (inst 0 134217728) (some 5)] }, 0, 0, 0, 5, fly 6 0 (inst 0 134217728) (some 5), by decide +kernel, by decide +kernel, by decide +kernel, by decide +kernel, by decide +kernel, by decide +kernel⟩,
   ⟨step0 { stepCyc := 5 } {}, 0, 0, 0, 5, by decide +kernel⟩⟩

theorem test_hyps_flowInstructionsIssue :
    (∃ (s : State) (c e : Nat) (x : Ctx), s.issues c e 0 nopReq x) ∧
    (∃ (s : State) (c : Nat) (x : Ctx), s.issues c 6 0x02 qwaitReq x) ∧
    (∃ (s : State) (c : Nat) (x : Ctx), (s.issues c 6 0x50 (fun x =>
      { sqReq x (sqAddr x == 0 || decide (4294967295 < sqAddr x)) with occ := sqAddr x }) x)) ∧
    (∃ (s : State) (c : Nat) (x : Ctx), (s.issues c 6 0x30 (fun x => { sqReq x false with occ := 32 }) x)) ∧
    (∃ (s : State) (c : Nat) (x : Ctx), s.issues c 6 0x01 fetchReq x) ∧
    (∃ (s : State) (c : Nat) (x : Ctx), (s.issues c 6 0x70 (fun x => sqReq x false) x)) ∧
    (∃ (s : State) (c i : Nat) (x : Ctx) (g : Image) (r : BalRegion), s.issues c 6 0 nopReq x ∧ (s.part x.p).slotted = false ∧ (s.part x.p).img.image
      = some g ∧ balanceAt g (s.core c).seq.pos = some (i, r) ∧ (s.core c).seq.pos = r.first ∧ (s.part x.p).ctl.dlb = true) :=
  ⟨⟨headed 0 (inst 0 32) 32, 0, 0, ctxOf (headed 0 (inst 0 32) 32) 0 (inst 0 32) 32, goes_issues (by decide +kernel)⟩,
   ⟨headed 6 wQwait 32, 0, ctxOf (headed 6 wQwait 32) 6 wQwait 32, goes_issues (by decide +kernel)⟩,
   ⟨headed 6 wWaitc 32, 0, ctxOf (headed 6 wWaitc 32) 6 wWaitc 32, goes_issues (by decide +kernel)⟩,
   ⟨headed 6 (inst 0x30 32) 32, 0, ctxOf (headed 6 (inst 0x30 32) 32) 6 (inst 0x30 32) 32, goes_issues (by decide +kernel)⟩,
   ⟨headed 6 wFetch 32, 0, ctxOf (headed 6 wFetch 32) 6 wFetch 32, goes_issues (by decide +kernel)⟩,
   ⟨headed 6 (inst 0x70 32) 32, 0, ctxOf (headed 6 (inst 0x70 32) 32) 6 (inst 0x70 32) 32, goes_issues (by decide +kernel)⟩,
   ⟨imaged (queued (headed 6 (inst 0 32) 32)) { img0 with balance := [⟨0, [], 0, 1⟩] }, 0, 0, ctxOf (imaged (queued (headed 6 (inst 0 32) 32)) { img0 with balance := [⟨0, [], 0, 1⟩] }) 6 (inst 0 32) 32, { img0 with balance := [⟨0, [], 0, 1⟩] }, ⟨0, [], 0, 1⟩, goes_issues (by decide +kernel), by decide +kernel, rfl, by decide +kernel, by decide +kernel, by decide +kernel⟩⟩

theorem test_hyps_scalarResults :
    (∃ (s : State) (c : Nat) (x : Ctx), s.issues c 6 0x10 ldsReq x ∧ x.m.badIn (sqAddr x) (sqWidth x.word) = none) ∧
    (∃ (s : State) (c : Nat) (x : Ctx), s.issues c 6 0x11 stsReq x ∧ (8 ≤ sqWidth x.word ∨ x.m.badIn (sqAddr x) (sqWidth x.word) = none)) ∧
    (∃ (s : State) (c p l now : Nat) (f : Flight) (w : PWrite), s.pending = [] ∧ s.board.input = true ∧ s.liveCycle c = some (p, l, now) ∧ c ∈
      s.cores.map Prod.fst ∧ (∀ q, (s.part q).run.net = []) ∧ (∀ d, ∀ g ∈ (s.core d).flights, g.errs = []) ∧ (s.core c).flights = [f] ∧ f.eng = 6
      ∧ f.writes = [w] ∧ w.cycle = now + 1) ∧
    (∃ (s : State) (c : Nat) (x : Ctx), (s.issues c 6 0x20 (fun x => sqReq x false) x)) ∧
    (∃ (s : State) (c : Nat) (x : Ctx), (s.issues c 6 0x21 (fun x => sqReq x (decide (5 < sqAux x.word))) x)) :=
  ⟨⟨headed 6 (inst 0x10 32) 32, 0, ctxOf (headed 6 (inst 0x10 32) 32) 6 (inst 0x10 32) 32, goes_issues (by decide +kernel), by decide +kernel⟩,
   ⟨headed 6 (inst 0x11 32) 32, 0, ctxOf (headed 6 (inst 0x11 32) 32) 6 (inst 0x11 32) 32, goes_issues (by decide +kernel), by decide +kernel⟩,
   ⟨{ step0 { stepCyc := 5 } { flights := [{ fly 6 0x11 (inst 0x11 0) (some 5) with writes := [⟨6, 64, [1], [], [], none⟩] }] } with board := { input := true } }, 0, 0, 0, 5, { fly 6 0x11 (inst 0x11 0) (some 5) with writes := [⟨6, 64, [1], [], [], none⟩] }, ⟨6, 64, [1], [], [], none⟩, by decide +kernel, by decide +kernel, by decide +kernel, by decide +kernel, (fun q => by cases q with | zero => rfl | succ n => rfl), (fun d g h => by cases d with | zero => rcases List.mem_singleton.mp h with rfl; rfl | succ n => nomatch h), rfl, rfl, by decide +kernel, by decide +kernel⟩,
   ⟨headed 6 (inst 0x20 32) 32, 0, ctxOf (headed 6 (inst 0x20 32) 32) 6 (inst 0x20 32) 32, goes_issues (by decide +kernel)⟩,
   ⟨headed 6 (inst 0x21 32) 32, 0, ctxOf (headed 6 (inst 0x21 32) 32) 6 (inst 0x21 32) 32, goes_issues (by decide +kernel)⟩⟩

theorem test_hyps_aluOperations :
    (∃ (s : State) (c : Nat) (x : Ctx) (a b d : BitVec 64) (imm : BitVec 32), (s.issues c 6 0x20 (fun x => sqReq x false) x) ∧ ((s.core c).seq.reg
      (sqSa x.word) x.now).1 = a.toNat ∧ ((s.core c).seq.opB x.word x.now).1 = b.toNat ∧ ((s.core c).seq.reg (sqSd x.word) x.now).1 = d.toNat ∧
      sqImm x.word = imm.toNat ∧ sqSd x.word ≠ 0) :=
  ⟨headed 6 (inst 0x20 (32 + 2 ^ 64)) 32, 0, ctxOf (headed 6 (inst 0x20 (32 + 2 ^ 64)) 32) 6 (inst 0x20 (32 + 2 ^ 64)) 32, 0, 0, 0, 0, goes_issues (by decide +kernel), by decide +kernel, by decide +kernel, by decide +kernel, by decide +kernel, by decide +kernel⟩

theorem test_hyps_flagAndFaultInstructions :
    (∃ (s : State) (c n v : Nat) (x : Ctx), (s.issues c 6 0x40 (fun x => sqReq x false) x) ∧ n = sqAux x.word % 64 ∧ v = (((s.core c).seq.opB x.word
      x.now).1 % 4294967296 + (s.core c).sigsNow n x.now) % 4294967296 ∧ (∀ e, e < 7 → e ≠ 6 ∨ wWen x.word = false ∨ wWflag x.word ≠ n → 0 ≤
      flagDiff v (((s.core c).eng.getD e {}).ccnt.getD n 0)) ∧ (wWen x.word = true → wWflag x.word = n → 0 ≤ flagDiff v ((((s.core c).eng.getD 6
      {}).ccnt.getD n 0 + 1) % 4294967296))) ∧
    (∃ (s : State) (c n v : Nat) (x : Ctx), (s.issues c 6 0x41 (fun x => sqReq x false) x) ∧ n = sqAux x.word % 64 ∧ v = ((s.core c).fcnt.getD n 0 +
      ((s.core c).seq.opB x.word x.now).1 % 4294967296) % 4294967296 ∧ (∀ e, e < 7 → e ≠ 6 ∨ wWen x.word = false ∨ wWflag x.word ≠ n → 0 ≤
      flagDiff v (((s.core c).eng.getD e {}).ccnt.getD n 0)) ∧ (wWen x.word = true → wWflag x.word = n → 0 ≤ flagDiff v ((((s.core c).eng.getD 6
      {}).ccnt.getD n 0 + 1) % 4294967296))) ∧
    (∃ (s : State) (c : Nat) (x : Ctx) (h : QEntry), s.issueCtx c 6 = some (x, h) ∧ wOp h.word = 0x7F ∧ dueNow x h
      { sqReq x false with chk := some 0x0B } = true ∧ verdict x h { sqReq x false with chk := some 0x0B } = .fault 0x0B ∧ s.faultFree x.p c) :=
  ⟨⟨headed 6 (inst 0x40 32) 32, 0, 0, 0, ctxOf (headed 6 (inst 0x40 32) 32) 6 (inst 0x40 32) 32, goes_issues (by decide +kernel), by decide +kernel, by decide +kernel, by decide +kernel, by decide +kernel⟩,
   ⟨headed 6 (inst 0x41 32) 32, 0, 0, 0, ctxOf (headed 6 (inst 0x41 32) 32) 6 (inst 0x41 32) 32, goes_issues (by decide +kernel), by decide +kernel, by decide +kernel, by decide +kernel, by decide +kernel⟩,
   ⟨headed 6 (inst 0x7F 32) 32, 0, ctxOf (headed 6 (inst 0x7F 32) 32) 6 (inst 0x7F 32) 32, ⟨inst 0x7F 32, false, 0⟩, by decide +kernel, by decide +kernel, by decide +kernel, by decide +kernel, (by unfold State.faultFree; decide +kernel)⟩⟩

theorem test_hyps_issueChecks_1 :
    (∃ (s : State) (c e : Nat) (x : Ctx) (h : QEntry), s.issueCtx c e = some (x, h) ∧ wOp h.word = 0 ∧ dueNow x h (nopReq x) = true ∧ s.faultFree x.p
      c ∧ x.codeBad.isSome = true) ∧
    (∃ (s : State) (c e : Nat) (x : Ctx) (h : QEntry), s.issueCtx c e = some (x, h) ∧ wOp h.word = 0 ∧ dueNow x h (nopReq x) = true ∧ s.faultFree x.p
      c ∧ x.codeBad = none ∧ h.poison = true) ∧
    (∃ (s : State) (c e : Nat) (x : Ctx) (h : QEntry), s.issueCtx c e = some (x, h) ∧ wOp h.word = 0 ∧ dueNow x h (nopReq x) = true ∧ s.faultFree x.p
      c ∧ x.codeBad = none ∧ h.poison = false ∧ ((nopReq x).illegal = true ∨ wRsv x.word ≠ 0)) ∧
    (∃ (s : State) (c e : Nat) (x : Ctx) (h : QEntry), s.issueCtx c e = some (x, h) ∧ wOp h.word = 0 ∧ dueNow x h (nopReq x) = true ∧ s.faultFree x.p
      c ∧ x.codeBad = none ∧ h.poison = false ∧ (nopReq x).illegal = false ∧ wRsv x.word = 0 ∧ wStamp x.word < (s.core c).minStamp e ∧ (s.part
      x.p).slotted = true) ∧
    (∃ (s : State) (c e : Nat) (x : Ctx) (h : QEntry), s.issueCtx c e = some (x, h) ∧ wOp h.word = 0 ∧ dueNow x h (nopReq x) = true ∧ s.faultFree x.p
      c ∧ x.codeBad = none ∧ h.poison = false ∧ (nopReq x).illegal = false ∧ wRsv x.word = 0 ∧ (s.core c).minStamp e ≤ wStamp x.word ∧ wWen
      x.word = true ∧ (s.core c).waitOk e (wWflag x.word) x.now = false ∧ (s.part x.p).slotted = true ∧ (s.part x.p).ctl.stall = false) ∧
    (∃ (s : State) (c e : Nat) (x : Ctx) (h : QEntry), s.issueCtx c e = some (x, h) ∧ wOp h.word = 0 ∧ dueNow x h (nopReq x) = true ∧ s.faultFree x.p
      c ∧ x.codeBad = none ∧ h.poison = false ∧ (nopReq x).illegal = false ∧ wRsv x.word = 0 ∧ (s.core c).minStamp e ≤ wStamp x.word ∧ wWen
      x.word = true ∧ (s.core c).waitOk e (wWflag x.word) x.now = false ∧ ((s.part x.p).slotted = false ∨ (s.part x.p).ctl.stall = true)) :=
  ⟨⟨((headed 6 (inst 0 32) 32).modSp 0 fun m => { m with bad := [0] }), 0, 6, ctxOf (((headed 6 (inst 0 32) 32).modSp 0 fun m => { m with bad := [0] })) 6 (inst 0 32) 32, ⟨inst 0 32, false, 0⟩, by decide +kernel, by decide +kernel, by decide +kernel, (by unfold State.faultFree; decide +kernel), by decide +kernel⟩,
   ⟨poisoned (headed 0 (inst 0 5) 5), 0, 0, ctxOf (poisoned (headed 0 (inst 0 5) 5)) 0 (inst 0 5) 5, ⟨inst 0 5, true, 0⟩, by decide +kernel, by decide +kernel, by decide +kernel, (by unfold State.faultFree; decide +kernel), by decide +kernel, by decide +kernel⟩,
   ⟨headed 0 (inst 0 (5 + 2 ^ 34)) 5, 0, 0, ctxOf (headed 0 (inst 0 (5 + 2 ^ 34)) 5) 0 (inst 0 (5 + 2 ^ 34)) 5, ⟨inst 0 (5 + 2 ^ 34), false, 0⟩, by decide +kernel, by decide +kernel, by decide +kernel, (by unfold State.faultFree; decide +kernel), by decide +kernel, by decide +kernel, by decide +kernel⟩,
   ⟨headed 6 (inst 0 31) 31, 0, 6, ctxOf (headed 6 (inst 0 31) 31) 6 (inst 0 31) 31, ⟨inst 0 31, false, 0⟩, by decide +kernel, by decide +kernel, by decide +kernel, (by unfold State.faultFree; decide +kernel), by decide +kernel, by decide +kernel, by decide +kernel, by decide +kernel, by decide +kernel, by decide +kernel⟩,
   ⟨headed 0 (inst 0 (5 + 2 ^ 20)) 5, 0, 0, ctxOf (headed 0 (inst 0 (5 + 2 ^ 20)) 5) 0 (inst 0 (5 + 2 ^ 20)) 5, ⟨inst 0 (5 + 2 ^ 20), false, 0⟩, by decide +kernel, by decide +kernel, by decide +kernel, (by unfold State.faultFree; decide +kernel), by decide +kernel, by decide +kernel, by decide +kernel, by decide +kernel, by decide +kernel, by decide +kernel, by decide +kernel, by decide +kernel, by decide +kernel⟩,
   ⟨queued (headed 0 (inst 0 (5 + 2 ^ 20)) 5), 0, 0, ctxOf (queued (headed 0 (inst 0 (5 + 2 ^ 20)) 5)) 0 (inst 0 (5 + 2 ^ 20)) 5, ⟨inst 0 (5 + 2 ^ 20), false, 0⟩, by decide +kernel, by decide +kernel, by decide +kernel, (by unfold State.faultFree; decide +kernel), by decide +kernel, by decide +kernel, by decide +kernel, by decide +kernel, by decide +kernel, by decide +kernel, by decide +kernel, by decide +kernel⟩⟩

theorem test_hyps_issueChecks_2 :
    (∃ (s : State) (c e : Nat) (x : Ctx) (h : QEntry), s.issueCtx c e = some (x, h) ∧ wOp h.word = 0 ∧ dueNow x h (nopReq x) = false) ∧
    (∃ (s : State) (c e : Nat), s.issueCtx c e = none) ∧
    (∃ (s : State) (c e : Nat) (x : Ctx) (h : QEntry), s.issueCtx c e = some (x, h) ∧ wOp h.word = 0 ∧ dueNow x h (nopReq x) = true ∧ verdict x h
      (nopReq x) = .ok ∧ x.q.ctl.stall = false ∧ (e ≠ 6 → ∀ y, ((s.core c).eng.getD e {}).queue.tail.head? = some y → y.poison = false) ∧ (s.core
      c).flt.brkMatch e (wTag x.word) (((s.core c).eng.getD e {}).issued + 1) = true) ∧
    (∃ (s : State) (c e : Nat) (x : Ctx) (h y : QEntry), s.issueCtx c e = some (x, h) ∧ wOp h.word = 0 ∧ dueNow x h (nopReq x) = true ∧ verdict x h
      (nopReq x) = .ok ∧ x.q.ctl.stall = false ∧ (s.core c).flt.brkEn = false ∧ e ≠ 6 ∧ s.faultFree x.p c ∧ ((s.core c).eng.getD e
      {}).queue.tail.head? = some y ∧ y.poison = true) ∧
    (∃ (s : State) (c e : Nat) (x : Ctx) (h : QEntry), s.issueCtx c e = some (x, h) ∧ wOp h.word = 0 ∧ dueNow x h (nopReq x) = true ∧ verdict x h
      (nopReq x) = .ok ∧ x.q.ctl.stall = true ∧ delayed x (nopReq x) = true ∧ (s.core c).flt.brkEn = false ∧ (e ≠ 6 → ∀ y, ((s.core c).eng.getD e
      {}).queue.tail.head? = some y → y.poison = false)) :=
  ⟨⟨headed 0 (inst 0 6) 5, 0, 0, ctxOf (headed 0 (inst 0 6) 5) 0 (inst 0 6) 5, ⟨inst 0 6, false, 0⟩, by decide +kernel, by decide +kernel, by decide +kernel⟩,
   ⟨mod 3, 0, 0, by decide +kernel⟩,
   ⟨((headed 0 (inst 0 5) 5).modCore 0 fun k => { k with flt := { k.flt with brkEn := true } }), 0, 0, ctxOf (((headed 0 (inst 0 5) 5).modCore 0 fun k => { k with flt := { k.flt with brkEn := true } })) 0 (inst 0 5) 5, ⟨inst 0 5, false, 0⟩, by decide +kernel, by decide +kernel, by decide +kernel, by decide +kernel, by decide +kernel, (fun _ _ h => nomatch h), by decide +kernel⟩,
   ⟨((headed 0 (inst 0 5) 5).modCore 0 fun k => { k with eng := [(0, { queue := [⟨inst 0 5, false, 0⟩, ⟨inst 0 6, true, 0⟩] })] }), 0, 0, ctxOf (((headed 0 (inst 0 5) 5).modCore 0 fun k => { k with eng := [(0, { queue := [⟨inst 0 5, false, 0⟩, ⟨inst 0 6, true, 0⟩] })] })) 0 (inst 0 5) 5, ⟨inst 0 5, false, 0⟩, ⟨inst 0 6, true, 0⟩, by decide +kernel, by decide +kernel, by decide +kernel, by decide +kernel, by decide +kernel, by decide +kernel, by decide +kernel, (by unfold State.faultFree; decide +kernel), by decide +kernel, by decide +kernel⟩,
   ⟨((headed 0 (inst 0 4) 5).modPart 0 fun q => { q with ctl := { q.ctl with stall := true } }), 0, 0, ctxOf (((headed 0 (inst 0 4) 5).modPart 0 fun q => { q with ctl := { q.ctl with stall := true } })) 0 (inst 0 4) 5, ⟨inst 0 4, false, 0⟩, by decide +kernel, by decide +kernel, by decide +kernel, by decide +kernel, by decide +kernel, by decide +kernel, by decide +kernel, (fun _ _ h => nomatch h)⟩⟩

theorem test_hyps_matrixInstructionsIssue :
    (∃ (s : State) (c : Nat) (x : Ctx) (kind o va vb : Nat), s.issues c 0 1 mmReq x ∧ mmOf x.word = some (kind, o, va, vb) ∧ errNow x.now
      (x.m.readErrs (mmReads x.word o va vb x.now)) = none) ∧
    (∃ (s : State) (c : Nat) (x : Ctx) (kind o va vb : Nat), ∃ w, s.issues c 0 1 mmReq x ∧ mmOf x.word = some (kind, o, va, vb) ∧ errNow x.now
      (x.m.readErrs (mmReads x.word o va vb x.now)) = some w ∧ s.faultFree x.p c) ∧
    (∃ (s : State) (c : Nat) (x : Ctx), s.issues c 0 2 drainReq x) ∧
    (∃ (s : State) (c : Nat) (x : Ctx) (errs : List (Nat × Nat)), s.issues c 0 3 loadAccReq x ∧ (errs = x.m.readErrs ((List.range 128).map fun i =>
      (mxA x.word * 64 + i * mxPitch x.word (mxFa x.word), rowBytes (mxFa x.word), x.now + i))) ∧ errNow x.now errs = none) ∧
    (∃ (s : State) (c : Nat) (x : Ctx) (errs : List (Nat × Nat)), ∃ w, s.issues c 0 3 loadAccReq x ∧ (errs = x.m.readErrs ((List.range 128).map fun i
      => (mxA x.word * 64 + i * mxPitch x.word (mxFa x.word), rowBytes (mxFa x.word), x.now + i))) ∧ errNow x.now errs = some w ∧ s.faultFree x.p
      c) :=
  ⟨⟨headed 0 wMm 5, 0, ctxOf (headed 0 wMm 5) 0 wMm 5, 1, 1, 128, 128, goes_issues (by decide +kernel), by decide +kernel, by decide +kernel⟩,
   ⟨((headed 0 wMm 5).modSp 0 fun m => { m with bad := [0] }), 0, ctxOf (((headed 0 wMm 5).modSp 0 fun m => { m with bad := [0] })) 0 wMm 5, 1, 1, 128, 128, 0, goes_issues (by decide +kernel), by decide +kernel, by decide +kernel, (by unfold State.faultFree; decide +kernel)⟩,
   ⟨headed 0 wDrain 5, 0, ctxOf (headed 0 wDrain 5) 0 wDrain 5, goes_issues (by decide +kernel)⟩,
   ⟨headed 0 wLoadAcc 5, 0, ctxOf (headed 0 wLoadAcc 5) 0 wLoadAcc 5, _, goes_issues (by decide +kernel), rfl, by decide +kernel⟩,
   ⟨((headed 0 wLoadAcc 5).modSp 0 fun m => { m with bad := [0] }), 0, ctxOf (((headed 0 wLoadAcc 5).modSp 0 fun m => { m with bad := [0] })) 0 wLoadAcc 5, _, 0, goes_issues (by decide +kernel), rfl, by decide +kernel, (by unfold State.faultFree; decide +kernel)⟩⟩

theorem test_hyps_matrixRows_1 :
    (∃ (s : State) (c p l now : Nat) (f : Flight), s.liveCycle c = some (p, l, now) ∧ (mxNext Flight.done (fun f => f.op == 1 && decide (f.done <
      128)) [] (s.core c).flights = some f) ∧ f.issue + 8 + f.done ≤ now) ∧
    (∃ (s : State) (c p l now : Nat) (f : Flight), s.liveCycle c = some (p, l, now) ∧ (mxNext Flight.done (fun f => f.op == 1 && decide (f.done <
      128)) [] (s.core c).flights = some f) ∧ now < f.issue + 8 + f.done) ∧
    (∃ (s : State) (c p l now : Nat) (f : Flight), s.liveCycle c = some (p, l, now) ∧ (mxNext Flight.done (fun f => f.op == 3 && decide (f.done <
      128)) [] (s.core c).flights = some f) ∧ f.issue + 8 + f.done ≤ now) ∧
    (∃ (s : State) (c p l now : Nat) (f : Flight), s.liveCycle c = some (p, l, now) ∧ (mxNext Flight.done (fun f => f.op == 3 && decide (f.done <
      128)) [] (s.core c).flights = some f) ∧ now < f.issue + 8 + f.done) ∧
    (∃ (s : State) (c p l now i : Nat) (f : Flight) (m : CoreSp), s.liveCycle c = some (p, l, now) ∧ (((s.core c).flights.find? fun f => f.eng == 0
      && f.drainsParams && decide (f.nums.getD 3 0 < 128)) = some f) ∧ i = f.nums.getD 3 0 ∧ m = (s.core c).sp.seen s.cc ∧ f.issue + 132 + i ≤
      now ∧ m.badIn (mxB f.word * 64 + 16 * i) 16 = none ∧ paramBad (mxFa f.word) (memRead m.mem (mxB f.word * 64 + 16 * i) 16) = false) ∧
    (∃ (s : State) (c p l now i : Nat) (f : Flight) (m : CoreSp), s.liveCycle c = some (p, l, now) ∧ (((s.core c).flights.find? fun f => f.eng == 0
      && f.drainsParams && decide (f.nums.getD 3 0 < 128)) = some f) ∧ i = f.nums.getD 3 0 ∧ m = (s.core c).sp.seen s.cc ∧ f.issue + 132 + i ≤
      now ∧ m.badIn (mxB f.word * 64 + 16 * i) 16 = none ∧ paramBad (mxFa f.word) (memRead m.mem (mxB f.word * 64 + 16 * i) 16) = true ∧
      s.faultFree p c) ∧
    (∃ (s : State) (c p l now i : Nat) (f : Flight) (m : CoreSp), ∃ w, s.liveCycle c = some (p, l, now) ∧ (((s.core c).flights.find? fun f => f.eng
      == 0 && f.drainsParams && decide (f.nums.getD 3 0 < 128)) = some f) ∧ i = f.nums.getD 3 0 ∧ m = (s.core c).sp.seen s.cc ∧ f.issue + 132 + i
      ≤ now ∧ m.badIn (mxB f.word * 64 + 16 * i) 16 = some w ∧ s.faultFree p c) :=
  ⟨⟨step0 { stepCyc := 135 } { flights := [{ fly 0 1 wMm none with done := 127 }] }, 0, 0, 0, 135, { fly 0 1 wMm none with done := 127 }, by decide +kernel, by decide +kernel, by decide +kernel⟩,
   ⟨step0 { stepCyc := 134 } { flights := [{ fly 0 1 wMm none with done := 127 }] }, 0, 0, 0, 134, { fly 0 1 wMm none with done := 127 }, by decide +kernel, by decide +kernel, by decide +kernel⟩,
   ⟨step0 { stepCyc := 8 } { flights := [fly 0 3 wLoadAcc none] }, 0, 0, 0, 8, fly 0 3 wLoadAcc none, by decide +kernel, by decide +kernel, by decide +kernel⟩,
   ⟨step0 { stepCyc := 7 } { flights := [fly 0 3 wLoadAcc none] }, 0, 0, 0, 7, fly 0 3 wLoadAcc none, by decide +kernel, by decide +kernel, by decide +kernel⟩,
   ⟨step0 { stepCyc := 132 } { flights := [{ fly 0 2 wDrain none with nums := [0, 0, 1, 0, 0] }] }, 0, 0, 0, 132, 0, { fly 0 2 wDrain none with nums := [0, 0, 1, 0, 0] }, _, by decide +kernel, by decide +kernel, by decide +kernel, rfl, by decide +kernel, by decide +kernel, by decide +kernel⟩,
   ⟨holding (step0 { stepCyc := 132 } { flights := [{ fly 0 2 wDrain none with nums := [0, 0, 1, 0, 0] }] }) 8 [0, 0, 0xC0, 0x7F], 0, 0, 0, 132, 0, { fly 0 2 wDrain none with nums := [0, 0, 1, 0, 0] }, _, by decide +kernel, by decide +kernel, by decide +kernel, rfl, by decide +kernel, by decide +kernel, by decide +kernel, (by unfold State.faultFree; decide +kernel)⟩,
   ⟨((step0 { stepCyc := 132 } { flights := [{ fly 0 2 wDrain none with nums := [0, 0, 1, 0, 0] }] }).modSp 0 fun m => { m with bad := [1] }), 0, 0, 0, 132, 0, { fly 0 2 wDrain none with nums := [0, 0, 1, 0, 0] }, _, 1, by decide +kernel, by decide +kernel, by decide +kernel, rfl, by decide +kernel, by decide +kernel, (by unfold State.faultFree; decide +kernel)⟩⟩

theorem test_hyps_matrixRows_2 :
    (∃ (s : State) (c p l now i : Nat) (f : Flight) (m : CoreSp), s.liveCycle c = some (p, l, now) ∧ (((s.core c).flights.find? fun f => f.eng == 0
      && f.drainsParams && decide (f.nums.getD 3 0 < 128)) = some f) ∧ i = f.nums.getD 3 0 ∧ m = (s.core c).sp.seen s.cc ∧ now < f.issue + 132 +
      i) ∧
    (∃ (s : State) (c p l now i : Nat) (f : Flight), s.liveCycle c = some (p, l, now) ∧ (mxNext Flight.mxRows (fun f => f.op == 2 && decide (f.mxRows
      < 128)) [] (s.core c).flights = some f) ∧ i = f.mxRows ∧ f.issue + 136 + i ≤ now ∧ (f.drainsParams = true → i < f.nums.getD 3 0) ∧
      (((rowCells (s.core c).mx.acc i).any fun x => x.res != x.check (f.nums.getD 2 0)) = false)) ∧
    (∃ (s : State) (c p l now i : Nat) (f : Flight), s.liveCycle c = some (p, l, now) ∧ (mxNext Flight.mxRows (fun f => f.op == 2 && decide (f.mxRows
      < 128)) [] (s.core c).flights = some f) ∧ i = f.mxRows ∧ f.issue + 136 + i ≤ now ∧ (f.drainsParams = true → i < f.nums.getD 3 0) ∧
      (((rowCells (s.core c).mx.acc i).any fun x => x.res != x.check (f.nums.getD 2 0)) = true) ∧ s.faultFree p c) ∧
    (∃ (s : State) (c p l now i : Nat) (f : Flight), s.liveCycle c = some (p, l, now) ∧ (mxNext Flight.mxRows (fun f => f.op == 2 && decide (f.mxRows
      < 128)) [] (s.core c).flights = some f) ∧ i = f.mxRows ∧ (now < f.issue + 136 + i ∨ (f.drainsParams = true ∧ f.nums.getD 3 0 ≤ i))) ∧
    (∃ (s : State) (c p l now : Nat) (f : Flight) (w : PWrite) (ws : List PWrite), s.liveCycle c = some (p, l, now) ∧ (((s.core c).flights.find? fun
      f => f.eng == 0 && f.op == 2 && !f.writes.isEmpty) = some f) ∧ f.writes = w :: ws ∧ w.cycle ≤ now ∧ w.data ≠ []) ∧
    (∃ (s : State) (c p l now : Nat) (f : Flight) (w : PWrite) (ws : List PWrite), s.liveCycle c = some (p, l, now) ∧ (((s.core c).flights.find? fun
      f => f.eng == 0 && f.op == 2 && !f.writes.isEmpty) = some f) ∧ f.writes = w :: ws ∧ now < w.cycle) ∧
    (∃ (s : State) (c : Nat), (s.liveCycle c = none ∨ (s.core c).flights = [])) :=
  ⟨⟨step0 { stepCyc := 131 } { flights := [{ fly 0 2 wDrain none with nums := [0, 0, 1, 0, 0] }] }, 0, 0, 0, 131, 0, { fly 0 2 wDrain none with nums := [0, 0, 1, 0, 0] }, _, by decide +kernel, by decide +kernel, by decide +kernel, rfl, by decide +kernel⟩,
   ⟨step0 { stepCyc := 136 } { flights := [{ fly 0 2 wDrain none with nums := [0, 0, 1, 1, 0] }] }, 0, 0, 0, 136, 0, { fly 0 2 wDrain none with nums := [0, 0, 1, 1, 0] }, by decide +kernel, by decide +kernel, by decide +kernel, by decide +kernel, by decide +kernel, by decide +kernel⟩,
   ⟨((step0 { stepCyc := 136 } { flights := [{ fly 0 2 wDrain none with nums := [0, 0, 1, 1, 0] }] }).modCore 0 fun k => { k with mx := { k.mx with acc := [(0, { res := 1 })] } }), 0, 0, 0, 136, 0, { fly 0 2 wDrain none with nums := [0, 0, 1, 1, 0] }, by decide +kernel, by decide +kernel, by decide +kernel, by decide +kernel, by decide +kernel, by decide +kernel, (by unfold State.faultFree; decide +kernel)⟩,
   ⟨step0 { stepCyc := 136 } { flights := [{ fly 0 2 wDrain none with nums := [0, 0, 1, 0, 0] }] }, 0, 0, 0, 136, 0, { fly 0 2 wDrain none with nums := [0, 0, 1, 0, 0] }, by decide +kernel, by decide +kernel, by decide +kernel, by decide +kernel⟩,
   ⟨step0 { stepCyc := 9 } { flights := [{ fly 0 2 wDrain none with writes := [⟨9, 4096, [1], [false], [], none⟩] }] }, 0, 0, 0, 9, { fly 0 2 wDrain none with writes := [⟨9, 4096, [1], [false], [], none⟩] }, ⟨9, 4096, [1], [false], [], none⟩, [], by decide +kernel, by decide +kernel, by decide +kernel, by decide +kernel, by decide +kernel⟩,
   ⟨step0 { stepCyc := 8 } { flights := [{ fly 0 2 wDrain none with writes := [⟨9, 4096, [1], [false], [], none⟩] }] }, 0, 0, 0, 8, { fly 0 2 wDrain none with writes := [⟨9, 4096, [1], [false], [], none⟩] }, ⟨9, 4096, [1], [false], [], none⟩, [], by decide +kernel, by decide +kernel, by decide +kernel, by decide +kernel⟩,
   ⟨mod 3, 0, by decide +kernel⟩⟩

theorem test_hyps_integerMatrixProduct :
    (∃ (w : IWord) (f : Flight) (i j : Nat) (_cell : Acc), mxFa w = 4 ∧ mxFb w = 4 ∧ mxBit w 1 = false ∧ f.nums = [0, 0, mxK w, 128, 128, 1] ∧ i <
      128 ∧ j < 128) :=
  ⟨wMm, { fly 0 1 wMm none with nums := [0, 0, 1, 128, 128, 1] }, 127, 127, {}, by decide +kernel, by decide +kernel, by decide +kernel, by decide +kernel, by decide +kernel, by decide +kernel⟩

theorem test_hyps_vectorInstructionsIssue :
    (∃ (s : State) (c : Nat) (x : Ctx) (op : Nat) (i : Instr), (op, i) ∈ [(0x01, Instr.add c), (0x02, .sub c), (0x03, .mul c), (0x04, .mad c), (0x05,
      .min c), (0x06, .max c), (0x07, .abs c), (0x08, .neg c), (0x09, .cvt c), (0x0A, .clamp c), (0x10, .cmpeq c), (0x11, .cmpne c), (0x12,
      .cmplt c), (0x13, .cmple c), (0x14, .sel c), (0x20, .exp2 c), (0x21, .log2 c), (0x22, .rcp c), (0x23, .rsqrt c), (0x24, .tanh c), (0x30,
      .rsum c), (0x31, .rmax c), (0x32, .rmin c), (0x33, .rargmax c), (0x38, .softmax c), (0x40, .xadd c), (0x41, .xcvt c), (0x48, .thresh c)] ∧
      s.issues c 1 op vxReq x) :=
  ⟨atVx (wVx 1 1 2) (shape0 10 10 10 65535), 0, ctxOf (atVx (wVx 1 1 2) (shape0 10 10 10 65535)) 1 (wVx 1 1 2) 5, 1, .add 0, List.mem_cons_self, goes_issues (by decide +kernel)⟩

theorem test_hyps_vectorResultsLand :
    (∃ (s : State) (c p l now : Nat) (f : Flight) (w : PWrite) (ws : List PWrite), s.liveCycle c = some (p, l, now) ∧ (((s.core c).flights.find? fun
      f => f.eng == 1 && !f.writes.isEmpty) = some f) ∧ f.writes = w :: ws ∧ w.cycle ≤ now ∧ (f.op = 0x41 → f.done / max 1 (f.nums.getD 3 0) <
      f.nums.getD 4 0) ∧ w.data ≠ []) ∧
    (∃ (s : State) (c p l now : Nat) (f : Flight) (w : PWrite) (ws : List PWrite), s.liveCycle c = some (p, l, now) ∧ (((s.core c).flights.find? fun
      f => f.eng == 1 && !f.writes.isEmpty) = some f) ∧ f.writes = w :: ws ∧ (now < w.cycle ∨ (f.op = 0x41 ∧ f.nums.getD 4 0 ≤ f.done / max 1
      (f.nums.getD 3 0)))) ∧
    (∃ (s : State) (c p l now r : Nat) (f : Flight) (m : CoreSp), s.liveCycle c = some (p, l, now) ∧ (((s.core c).flights.find? fun f => f.eng == 1
      && f.op == 0x41 && decide (f.nums.getD 4 0 < f.nums.getD 2 0)) = some f) ∧ r = f.nums.getD 4 0 ∧ m = (s.core c).sp.seen s.cc ∧ f.issue + 4
      + 2 * r * f.nums.getD 3 0 ≤ now ∧ m.badIn (vxB f.word * 512 + 16 * r) 16 = none ∧ paramBad (readShape f.recd).fd (memRead m.mem (vxB f.word
      * 512 + 16 * r) 16) = false) ∧
    (∃ (s : State) (c p l now r : Nat) (f : Flight) (m : CoreSp), s.liveCycle c = some (p, l, now) ∧ (((s.core c).flights.find? fun f => f.eng == 1
      && f.op == 0x41 && decide (f.nums.getD 4 0 < f.nums.getD 2 0)) = some f) ∧ r = f.nums.getD 4 0 ∧ m = (s.core c).sp.seen s.cc ∧ f.issue + 4
      + 2 * r * f.nums.getD 3 0 ≤ now ∧ m.badIn (vxB f.word * 512 + 16 * r) 16 = none ∧ paramBad (readShape f.recd).fd (memRead m.mem (vxB f.word
      * 512 + 16 * r) 16) = true ∧ s.faultFree p c) ∧
    (∃ (s : State) (c p l now r : Nat) (f : Flight) (m : CoreSp), ∃ w, s.liveCycle c = some (p, l, now) ∧ (((s.core c).flights.find? fun f => f.eng
      == 1 && f.op == 0x41 && decide (f.nums.getD 4 0 < f.nums.getD 2 0)) = some f) ∧ r = f.nums.getD 4 0 ∧ m = (s.core c).sp.seen s.cc ∧ f.issue
      + 4 + 2 * r * f.nums.getD 3 0 ≤ now ∧ m.badIn (vxB f.word * 512 + 16 * r) 16 = some w ∧ s.faultFree p c) ∧
    (∃ (s : State) (c p l now r : Nat) (f : Flight) (m : CoreSp), s.liveCycle c = some (p, l, now) ∧ (((s.core c).flights.find? fun f => f.eng == 1
      && f.op == 0x41 && decide (f.nums.getD 4 0 < f.nums.getD 2 0)) = some f) ∧ r = f.nums.getD 4 0 ∧ m = (s.core c).sp.seen s.cc ∧ now <
      f.issue + 4 + 2 * r * f.nums.getD 3 0) ∧
    (∃ (s : State) (c : Nat), (s.liveCycle c = none ∨ (s.core c).flights = [])) :=
  ⟨⟨step0 { stepCyc := 9 } { flights := [{ fly 1 1 0 none with writes := [⟨9, 4096, [1], [false], [], none⟩] }] }, 0, 0, 0, 9, { fly 1 1 0 none with writes := [⟨9, 4096, [1], [false], [], none⟩] }, ⟨9, 4096, [1], [false], [], none⟩, [], by decide +kernel, by decide +kernel, by decide +kernel, by decide +kernel, by decide +kernel, by decide +kernel⟩,
   ⟨step0 { stepCyc := 8 } { flights := [{ fly 1 1 0 none with writes := [⟨9, 4096, [1], [false], [], none⟩] }] }, 0, 0, 0, 8, { fly 1 1 0 none with writes := [⟨9, 4096, [1], [false], [], none⟩] }, ⟨9, 4096, [1], [false], [], none⟩, [], by decide +kernel, by decide +kernel, by decide +kernel, by decide +kernel⟩,
   ⟨step0 { stepCyc := 4 } { flights := [{ fly 1 0x41 0 none with nums := [0, 0, 1, 1, 0] }] }, 0, 0, 0, 4, 0, { fly 1 0x41 0 none with nums := [0, 0, 1, 1, 0] }, _, by decide +kernel, by decide +kernel, by decide +kernel, rfl, by decide +kernel, by decide +kernel, by decide +kernel⟩,
   ⟨holding (step0 { stepCyc := 4 } { flights := [{ fly 1 0x41 0 none with nums := [0, 0, 1, 1, 0] }] }) 8 [0, 0, 0xC0, 0x7F], 0, 0, 0, 4, 0, { fly 1 0x41 0 none with nums := [0, 0, 1, 1, 0] }, _, by decide +kernel, by decide +kernel, by decide +kernel, rfl, by decide +kernel, by decide +kernel, by decide +kernel, (by unfold State.faultFree; decide +kernel)⟩,
   ⟨((step0 { stepCyc := 4 } { flights := [{ fly 1 0x41 0 none with nums := [0, 0, 1, 1, 0] }] }).modSp 0 fun m => { m with bad := [1] }), 0, 0, 0, 4, 0, { fly 1 0x41 0 none with nums := [0, 0, 1, 1, 0] }, _, 1, by decide +kernel, by decide +kernel, by decide +kernel, rfl, by decide +kernel, by decide +kernel, (by unfold State.faultFree; decide +kernel)⟩,
   ⟨step0 { stepCyc := 3 } { flights := [{ fly 1 0x41 0 none with nums := [0, 0, 1, 1, 0] }] }, 0, 0, 0, 3, 0, { fly 1 0x41 0 none with nums := [0, 0, 1, 1, 0] }, _, by decide +kernel, by decide +kernel, by decide +kernel, rfl, by decide +kernel⟩,
   ⟨mod 3, 0, by decide +kernel⟩⟩

theorem test_hyps_integerVectorResults_1 :
    (∃ (v : VEnv) (_r _n : Nat) (_prm : Bytes) (i : Item) (a b : Int), v.h.fa = 10 ∧ v.h.fb = 10 ∧ v.h.fd = 10 ∧ vxBm v.w ≠ 3 ∧ a = toSigned 32 i.a ∧
      b = toSigned 32 i.b ∧ wOp v.w = 0x01) ∧
    (∃ (v : VEnv) (_r _n : Nat) (_prm : Bytes) (i : Item) (a b : Int), v.h.fa = 10 ∧ v.h.fb = 10 ∧ v.h.fd = 10 ∧ vxBm v.w ≠ 3 ∧ a = toSigned 32 i.a ∧
      b = toSigned 32 i.b ∧ wOp v.w = 0x02) ∧
    (∃ (v : VEnv) (_r _n : Nat) (_prm : Bytes) (i : Item) (a b : Int), v.h.fa = 10 ∧ v.h.fb = 10 ∧ v.h.fd = 10 ∧ vxBm v.w ≠ 3 ∧ a = toSigned 32 i.a ∧
      b = toSigned 32 i.b ∧ wOp v.w = 0x03) ∧
    (∃ (v : VEnv) (_r _n : Nat) (_prm : Bytes) (i : Item) (a b : Int), v.h.fa = 10 ∧ v.h.fb = 10 ∧ v.h.fd = 10 ∧ vxBm v.w ≠ 3 ∧ a = toSigned 32 i.a ∧
      b = toSigned 32 i.b ∧ wOp v.w = 0x05) ∧
    (∃ (v : VEnv) (_r _n : Nat) (_prm : Bytes) (i : Item) (a b : Int), v.h.fa = 10 ∧ v.h.fb = 10 ∧ v.h.fd = 10 ∧ vxBm v.w ≠ 3 ∧ a = toSigned 32 i.a ∧
      b = toSigned 32 i.b ∧ wOp v.w = 0x06) ∧
    (∃ (v : VEnv) (_r _n : Nat) (_prm : Bytes) (i : Item) (a b : Int), v.h.fa = 10 ∧ v.h.fb = 10 ∧ v.h.fd = 10 ∧ vxBm v.w ≠ 3 ∧ a = toSigned 32 i.a ∧
      b = toSigned 32 i.b ∧ wOp v.w = 0x07) :=
  ⟨⟨(⟨inst 0x01 0, readShape (shape0 10 10 10 65535), [], 0⟩ : VEnv), 0, 0, [], ⟨2147483647, 1, 0, true, false⟩, 2147483647, 1, by decide +kernel, by decide +kernel, by decide +kernel, by decide +kernel, by decide +kernel, by decide +kernel, by decide +kernel⟩,
   ⟨(⟨inst 0x02 0, readShape (shape0 10 10 10 65535), [], 0⟩ : VEnv), 0, 0, [], ⟨2147483648, 1, 0, true, false⟩, -2147483648, 1, by decide +kernel, by decide +kernel, by decide +kernel, by decide +kernel, by decide +kernel, by decide +kernel, by decide +kernel⟩,
   ⟨(⟨inst 0x03 0, readShape (shape0 10 10 10 65535), [], 0⟩ : VEnv), 0, 0, [], ⟨2147483647, 2, 0, true, false⟩, 2147483647, 2, by decide +kernel, by decide +kernel, by decide +kernel, by decide +kernel, by decide +kernel, by decide +kernel, by decide +kernel⟩,
   ⟨(⟨inst 0x05 0, readShape (shape0 10 10 10 65535), [], 0⟩ : VEnv), 0, 0, [], ⟨4294967295, 1, 0, true, false⟩, -1, 1, by decide +kernel, by decide +kernel, by decide +kernel, by decide +kernel, by decide +kernel, by decide +kernel, by decide +kernel⟩,
   ⟨(⟨inst 0x06 0, readShape (shape0 10 10 10 65535), [], 0⟩ : VEnv), 0, 0, [], ⟨4294967295, 1, 0, true, false⟩, -1, 1, by decide +kernel, by decide +kernel, by decide +kernel, by decide +kernel, by decide +kernel, by decide +kernel, by decide +kernel⟩,
   ⟨(⟨inst 0x07 0, readShape (shape0 10 10 10 65535), [], 0⟩ : VEnv), 0, 0, [], ⟨2147483648, 0, 0, true, false⟩, -2147483648, 0, by decide +kernel, by decide +kernel, by decide +kernel, by decide +kernel, by decide +kernel, by decide +kernel, by decide +kernel⟩⟩

theorem test_hyps_integerVectorResults_2 :
    (∃ (v : VEnv) (_r _n : Nat) (_prm : Bytes) (i : Item) (a b : Int), v.h.fa = 10 ∧ v.h.fb = 10 ∧ v.h.fd = 10 ∧ vxBm v.w ≠ 3 ∧ a = toSigned 32 i.a ∧
      b = toSigned 32 i.b ∧ wOp v.w = 0x08) ∧
    (∃ (v : VEnv) (_r _n : Nat) (_prm : Bytes) (i : Item) (a b : Int), v.h.fa = 10 ∧ v.h.fb = 10 ∧ v.h.fd = 10 ∧ vxBm v.w ≠ 3 ∧ a = toSigned 32 i.a ∧
      b = toSigned 32 i.b ∧ wOp v.w = 0x10) ∧
    (∃ (v : VEnv) (_r _n : Nat) (_prm : Bytes) (i : Item) (a b : Int), v.h.fa = 10 ∧ v.h.fb = 10 ∧ v.h.fd = 10 ∧ vxBm v.w ≠ 3 ∧ a = toSigned 32 i.a ∧
      b = toSigned 32 i.b ∧ wOp v.w = 0x11) ∧
    (∃ (v : VEnv) (_r _n : Nat) (_prm : Bytes) (i : Item) (a b : Int), v.h.fa = 10 ∧ v.h.fb = 10 ∧ v.h.fd = 10 ∧ vxBm v.w ≠ 3 ∧ a = toSigned 32 i.a ∧
      b = toSigned 32 i.b ∧ wOp v.w = 0x12) ∧
    (∃ (v : VEnv) (_r _n : Nat) (_prm : Bytes) (i : Item) (a b : Int), v.h.fa = 10 ∧ v.h.fb = 10 ∧ v.h.fd = 10 ∧ vxBm v.w ≠ 3 ∧ a = toSigned 32 i.a ∧
      b = toSigned 32 i.b ∧ wOp v.w = 0x13) ∧
    (∃ (v : VEnv) (_r _n : Nat) (_prm : Bytes) (i : Item) (a b : Int), v.h.fa = 10 ∧ v.h.fb = 10 ∧ v.h.fd = 10 ∧ vxBm v.w ≠ 3 ∧ a = toSigned 32 i.a ∧
      b = toSigned 32 i.b ∧ wOp v.w = 0x14) :=
  ⟨⟨(⟨inst 0x08 0, readShape (shape0 10 10 10 65535), [], 0⟩ : VEnv), 0, 0, [], ⟨2147483648, 0, 0, true, false⟩, -2147483648, 0, by decide +kernel, by decide +kernel, by decide +kernel, by decide +kernel, by decide +kernel, by decide +kernel, by decide +kernel⟩,
   ⟨(⟨inst 0x10 0, readShape (shape0 10 10 10 65535), [], 0⟩ : VEnv), 0, 0, [], ⟨1, 1, 0, true, false⟩, 1, 1, by decide +kernel, by decide +kernel, by decide +kernel, by decide +kernel, by decide +kernel, by decide +kernel, by decide +kernel⟩,
   ⟨(⟨inst 0x11 0, readShape (shape0 10 10 10 65535), [], 0⟩ : VEnv), 0, 0, [], ⟨1, 1, 0, true, false⟩, 1, 1, by decide +kernel, by decide +kernel, by decide +kernel, by decide +kernel, by decide +kernel, by decide +kernel, by decide +kernel⟩,
   ⟨(⟨inst 0x12 0, readShape (shape0 10 10 10 65535), [], 0⟩ : VEnv), 0, 0, [], ⟨4294967295, 0, 0, true, false⟩, -1, 0, by decide +kernel, by decide +kernel, by decide +kernel, by decide +kernel, by decide +kernel, by decide +kernel, by decide +kernel⟩,
   ⟨(⟨inst 0x13 0, readShape (shape0 10 10 10 65535), [], 0⟩ : VEnv), 0, 0, [], ⟨4294967295, 0, 0, true, false⟩, -1, 0, by decide +kernel, by decide +kernel, by decide +kernel, by decide +kernel, by decide +kernel, by decide +kernel, by decide +kernel⟩,
   ⟨(⟨inst 0x14 0, readShape (shape0 10 10 10 65535), [], 0⟩ : VEnv), 0, 0, [], ⟨1, 2, 0, false, false⟩, 1, 2, by decide +kernel, by decide +kernel, by decide +kernel, by decide +kernel, by decide +kernel, by decide +kernel, by decide +kernel⟩⟩

theorem test_hyps_laneTreeOrder :
    (∃ (_f : RedV → RedV → RedV) (n : Nat) (l r : List (Option RedV)), l.length = 2 ^ n ∧ r.length = 2 ^ n) :=
  ⟨(fun a _ => a), 1, [none, none], [none, none], by decide +kernel, by decide +kernel⟩

theorem test_hyps_streamInstructionsIssue :
    (∃ (s : State) (c e op : Nat) (x : Ctx) (i : Instr), ((op = 1 ∧ (e = 2 ∨ e = 3) ∧ i = .load c e) ∨ (op = 2 ∧ e = 4 ∧ i = .store c) ∨ (op = 3 ∧ (e
      = 2 ∨ e = 3) ∧ i = .zero c e)) ∧ s.issues c e op (streamReq s) x) :=
  ⟨atSt 2 (wSt 1) (desc0 8589934592 10 10 1200), 0, 2, 1, ctxOf (atSt 2 (wSt 1) (desc0 8589934592 10 10 1200)) 2 (wSt 1) 5, .load 0 2, by decide +kernel, goes_issues (by decide +kernel)⟩

theorem test_hyps_streamUnitsMove :
    (∃ (s : State) (c e p l : Nat) (t : Strm), ∃ (raw : Bytes) (poison : Bool), s.owner c = some (p, l) ∧ (((s.core c).strms.find? fun t => t.eng ==
      e && decide (t.moved < t.units)) = some t) ∧ (s.part p).run.stepRun = true ∧ (s.part p).run.held = false ∧ t.due t.moved ≤ (s.part
      p).run.stepCyc ∧ ((s.core c).eng.getD e {}).stopped = false ∧ t.op = 1 ∧ ((t.got.find? fun x => x.1 == t.moved) = some (t.moved, raw,
      poison))) ∧
    (∃ (s : State) (c e p l : Nat) (t : Strm), s.owner c = some (p, l) ∧ (((s.core c).strms.find? fun t => t.eng == e && decide (t.moved < t.units))
      = some t) ∧ (s.part p).run.stepRun = true ∧ (s.part p).run.held = false ∧ t.due t.moved ≤ (s.part p).run.stepCyc ∧ ((s.core c).eng.getD e
      {}).stopped = false ∧ t.op = 3) ∧
    (∃ (s : State) (c e p l : Nat) (t : Strm), ∃ m, s.owner c = some (p, l) ∧ (((s.core c).strms.find? fun t => t.eng == e && decide (t.moved <
      t.units)) = some t) ∧ (s.part p).run.stepRun = true ∧ ((s.part p).run.held = false ∨ t.due t.moved ≤ t.issue + 96) ∧ t.due t.moved ≤
      (s.part p).run.stepCyc ∧ ((s.core c).eng.getD e {}).stopped = false ∧ t.op = 2 ∧ (s.core c).slotFree t t.moved = true ∧ m = (s.core
      c).sp.seen s.cc ∧ m.poison.contains ((t.geo t.moved).2.2.2 / 64) = false ∧ m.badIn (t.geo t.moved).2.2.2 64 = none) ∧
    (∃ (s : State) (c e p l : Nat) (t : Strm), ∃ m, s.owner c = some (p, l) ∧ (((s.core c).strms.find? fun t => t.eng == e && decide (t.moved <
      t.units)) = some t) ∧ (s.part p).run.stepRun = true ∧ ((s.part p).run.held = false ∨ t.due t.moved ≤ t.issue + 96) ∧ t.due t.moved ≤
      (s.part p).run.stepCyc ∧ ((s.core c).eng.getD e {}).stopped = false ∧ t.op = 2 ∧ (s.core c).slotFree t t.moved = true ∧ m = (s.core
      c).sp.seen s.cc ∧ m.poison.contains ((t.geo t.moved).2.2.2 / 64) = true ∧ s.faultFree p c) ∧
    (∃ (s : State) (c e p l : Nat) (t : Strm), ∃ m, ∃ w, s.owner c = some (p, l) ∧ (((s.core c).strms.find? fun t => t.eng == e && decide (t.moved <
      t.units)) = some t) ∧ (s.part p).run.stepRun = true ∧ ((s.part p).run.held = false ∨ t.due t.moved ≤ t.issue + 96) ∧ t.due t.moved ≤
      (s.part p).run.stepCyc ∧ ((s.core c).eng.getD e {}).stopped = false ∧ t.op = 2 ∧ (s.core c).slotFree t t.moved = true ∧ m = (s.core
      c).sp.seen s.cc ∧ m.poison.contains ((t.geo t.moved).2.2.2 / 64) = false ∧ m.badIn (t.geo t.moved).2.2.2 64 = some w ∧ s.faultFree p c) ∧
    (∃ (s : State) (c e p l : Nat) (t : Strm), s.owner c = some (p, l) ∧ (((s.core c).strms.find? fun t => t.eng == e && decide (t.moved < t.units))
      = some t) ∧ ((s.part p).run.stepRun = false ∨ (s.part p).run.stepCyc < t.due t.moved ∨ ((s.core c).eng.getD e {}).stopped = true ∨ ((s.part
      p).run.held = true ∧ (t.op ≠ 2 ∨ t.issue + 96 < t.due t.moved)) ∨ (t.op = 1 ∧ ∀ y ∈ t.got, y.1 ≠ t.moved) ∨ (t.op = 2 ∧ (s.core c).slotFree
      t t.moved = false))) :=
  ⟨⟨withStrm 1205 { strm0 2 1 5 (desc0 8589934592 10 10 1200) with got := [(0, zeros 64, false)] }, 0, 2, 0, 0, { strm0 2 1 5 (desc0 8589934592 10 10 1200) with got := [(0, zeros 64, false)] }, zeros 64, false, by decide +kernel, by decide +kernel, by decide +kernel, by decide +kernel, by decide +kernel, by decide +kernel, by decide +kernel, by decide +kernel⟩,
   ⟨withStrm 13 (strm0 2 3 5 (desc0 0 0 10 8)), 0, 2, 0, 0, strm0 2 3 5 (desc0 0 0 10 8), by decide +kernel, by decide +kernel, by decide +kernel, by decide +kernel, by decide +kernel, by decide +kernel, by decide +kernel⟩,
   ⟨withStrm 13 (strm0 4 2 5 (desc0 8589934656 10 10 8)), 0, 4, 0, 0, strm0 4 2 5 (desc0 8589934656 10 10 8), _, by decide +kernel, by decide +kernel, by decide +kernel, by decide +kernel, by decide +kernel, by decide +kernel, by decide +kernel, by decide +kernel, rfl, by decide +kernel, by decide +kernel⟩,
   ⟨((withStrm 13 (strm0 4 2 5 (desc0 8589934656 10 10 8))).modSp 0 fun m => { m with poison := [16] }), 0, 4, 0, 0, strm0 4 2 5 (desc0 8589934656 10 10 8), _, by decide +kernel, by decide +kernel, by decide +kernel, by decide +kernel, by decide +kernel, by decide +kernel, by decide +kernel, by decide +kernel, rfl, by decide +kernel, (by unfold State.faultFree; decide +kernel)⟩,
   ⟨((withStrm 13 (strm0 4 2 5 (desc0 8589934656 10 10 8))).modSp 0 fun m => { m with bad := [130] }), 0, 4, 0, 0, strm0 4 2 5 (desc0 8589934656 10 10 8), _, 130, by decide +kernel, by decide +kernel, by decide +kernel, by decide +kernel, by decide +kernel, by decide +kernel, by decide +kernel, by decide +kernel, rfl, by decide +kernel, by decide +kernel, (by unfold State.faultFree; decide +kernel)⟩,
   ⟨withStrm 12 (strm0 2 3 5 (desc0 0 0 10 8)), 0, 2, 0, 0, strm0 2 3 5 (desc0 0 0 10 8), by decide +kernel, by decide +kernel, by simp only [withStrm, step0, imaged]; decide +kernel⟩⟩

theorem test_hyps_streamChecks :
    (∃ (s : State) (c e p l now : Nat) (_corrected _retried : Bool) (t : Strm) (miss : List Nat), s.liveCycle c = some (p, l, now) ∧ (((s.core
      c).strms.find? fun t => t.eng == e && t.op == 1 && !(t.toCheck now).isEmpty) = some t) ∧ (miss = (t.toCheck now).filter (fun u =>
      !(t.got.any fun x => x.1 == u) && decide (t.moved ≤ u))) ∧ miss = []) ∧
    (∃ (s : State) (c e p l now : Nat) (_corrected _retried : Bool) (t : Strm) (miss : List Nat), ∃ k ks, s.liveCycle c = some (p, l, now) ∧
      (((s.core c).strms.find? fun t => t.eng == e && t.op == 1 && !(t.toCheck now).isEmpty) = some t) ∧ (miss = (t.toCheck now).filter (fun u =>
      !(t.got.any fun x => x.1 == u) && decide (t.moved ≤ u))) ∧ miss = k :: ks) ∧
    (∃ (s : State) (c p l now : Nat) (_corrected _retried : Bool) (t : Strm) (miss : List Nat), s.liveCycle c = some (p, l, now) ∧ (((s.core
      c).strms.find? fun t => t.eng == 4 && !(t.toCheck now).isEmpty) = some t) ∧ (miss = (t.toCheck now).filter (fun u => !(s.core c).slotFree t
      u)) ∧ miss = []) ∧
    (∃ (s : State) (c p l now : Nat) (_corrected _retried : Bool) (t : Strm) (miss : List Nat), ∃ k ks, s.liveCycle c = some (p, l, now) ∧ (((s.core
      c).strms.find? fun t => t.eng == 4 && !(t.toCheck now).isEmpty) = some t) ∧ (miss = (t.toCheck now).filter (fun u => !(s.core c).slotFree t
      u)) ∧ miss = k :: ks) ∧
    (∃ (s : State) (c p l now : Nat) (_corrected _retried : Bool) (t : Strm), s.liveCycle c = some (p, l, now) ∧ (((s.core c).strms.find? fun t =>
      t.eng == 4 && !(t.toCheck now).isEmpty) = none) ∧ (((s.core c).strms.find? fun t => t.eng == 4 && !t.sigChecked && decide (lastDueOf 2
      t.issue t.recd + 1200 ≤ now + 96)) = some t) ∧ t.acked.length = t.units) ∧
    (∃ (s : State) (c p l now : Nat) (_corrected _retried : Bool) (t : Strm), s.liveCycle c = some (p, l, now) ∧ (((s.core c).strms.find? fun t =>
      t.eng == 4 && !(t.toCheck now).isEmpty) = none) ∧ (((s.core c).strms.find? fun t => t.eng == 4 && !t.sigChecked && decide (lastDueOf 2
      t.issue t.recd + 1200 ≤ now + 96)) = some t) ∧ t.acked.length ≠ t.units) ∧
    (∃ (s : State) (c e p l now : Nat) (_corrected _retried : Bool), s.liveCycle c = some (p, l, now) ∧ (((s.core c).strms.find? fun t => t.eng == e
      && t.op == 1 && !(t.toCheck now).isEmpty) = none)) ∧
    (∃ (s : State) (c _e p l now : Nat) (_corrected _retried : Bool), s.liveCycle c = some (p, l, now) ∧ (((s.core c).strms.find? fun t => t.eng == 4
      && !(t.toCheck now).isEmpty) = none) ∧ (((s.core c).strms.find? fun t => t.eng == 4 && !t.sigChecked && decide (lastDueOf 2 t.issue t.recd
      + 1200 ≤ now + 96)) = none)) :=
  ⟨⟨withStrm 1109 { strm0 2 1 5 (desc0 8589934592 10 10 1200) with got := [(0, zeros 64, false)] }, 0, 2, 0, 0, 1109, false, false, { strm0 2 1 5 (desc0 8589934592 10 10 1200) with got := [(0, zeros 64, false)] }, [], by decide +kernel, by decide +kernel, by decide +kernel, by decide +kernel⟩,
   ⟨withStrm 1109 (strm0 2 1 5 (desc0 8589934592 10 10 1200)), 0, 2, 0, 0, 1109, false, false, strm0 2 1 5 (desc0 8589934592 10 10 1200), [0], 0, [], by decide +kernel, by decide +kernel, by decide +kernel, by decide +kernel⟩,
   ⟨withStrm 5 (strm0 4 2 5 (desc0 8589934656 10 10 8)), 0, 0, 0, 5, false, false, strm0 4 2 5 (desc0 8589934656 10 10 8), [], by decide +kernel, by decide +kernel, by decide +kernel, by decide +kernel⟩,
   ⟨withStrm 4013 { strm0 4 2 5 long0 with checked := 4096 }, 0, 0, 0, 4013, false, false, { strm0 4 2 5 long0 with checked := 4096 }, [4096], 4096, [], by decide +kernel, by decide +kernel, by decide +kernel, by decide +kernel⟩,
   ⟨withStrm 1200 { strm0 4 2 5 (desc0 8589934656 10 10 8) with checked := 1, acked := [0] }, 0, 0, 0, 1200, false, false, { strm0 4 2 5 (desc0 8589934656 10 10 8) with checked := 1, acked := [0] }, by decide +kernel, by decide +kernel, by decide +kernel, by decide +kernel⟩,
   ⟨withStrm 1200 { strm0 4 2 5 (desc0 8589934656 10 10 8) with checked := 1 }, 0, 0, 0, 1200, false, false, { strm0 4 2 5 (desc0 8589934656 10 10 8) with checked := 1 }, by decide +kernel, by decide +kernel, by decide +kernel, by decide +kernel⟩,
   ⟨withStrm 1000 (strm0 2 1 5 (desc0 8589934592 10 10 1200)), 0, 2, 0, 0, 1000, false, false, by decide +kernel, by decide +kernel⟩,
   ⟨withStrm 1000 { strm0 4 2 5 (desc0 8589934656 10 10 8) with checked := 1 }, 0, 0, 0, 0, 1000, false, false, by decide +kernel, by decide +kernel, by decide +kernel⟩⟩

theorem test_hyps_streamDataMoves_1 :
    (∃ (s : State) (c e p l n k : Nat) (t : Strm), s.owner c = some (p, l) ∧ e ≠ 6 ∧ (s.core c).strm e n = some t ∧ t.op = 1 ∧ k < t.units ∧ t.moved
      ≤ k ∧ (∀ y ∈ t.got, y.1 ≠ k) ∧ (s.core c).slotFree t k = true ∧ s.mPending (c, t.eng, t.issueNo, k) mData = false ∧ t.late = []) ∧
    (∃ (s : State) (c e p l n k : Nat) (t : Strm), ∃ v, s.owner c = some (p, l) ∧ e ≠ 6 ∧ (s.core c).strm e n = some t ∧ t.op = 1 ∧ k < t.units ∧
      t.moved ≤ k ∧ (∀ y ∈ t.got, y.1 ≠ k) ∧ (s.core c).slotFree t k = true ∧ s.mPending (c, t.eng, t.issueNo, k) mData = false ∧ t.late = [(v,
      [k])]) ∧
    (∃ (s : State) (c e p l n k : Nat) (t : Strm), s.owner c = some (p, l) ∧ e ≠ 6 ∧ (s.core c).strm e n = some t ∧ (t.op ≠ 1 ∨ t.units ≤ k ∨ k <
      t.moved ∨ (t.got.any fun y => y.1 == k) = true ∨ (s.core c).slotFree t k = false ∨ s.mPending (c, t.eng, t.issueNo, k) mData = true)) ∧
    (∃ (s : State) (c p l n k : Nat) (f : Fetch), s.owner c = some (p, l) ∧ (((s.core c).seq.fetches.find? fun f => f.src == 0 && f.issueNo == n &&
      f.queue == k) = some f)) ∧
    (∃ (s : State) (c p l n k : Nat) (t : Strm) (d : Bytes), s.owner c = some (p, l) ∧ (s.core c).strm 4 n = some t ∧ ((t.wbuf.find? fun x => x.1 ==
      k) = some (k, d)) ∧ d ≠ [] ∧ (∀ i row, s.pcOf (s.part p) (t.hbmAt k).1 = some (i, row) → s.refreshing i = false) ∧ s.mPending (c, 4, n, k)
      mWrite = false) :=
  ⟨⟨withStrm 5 (strm0 2 1 5 (desc0 8589934592 10 10 1200)), 0, 2, 0, 0, 1, 0, strm0 2 1 5 (desc0 8589934592 10 10 1200), by decide +kernel, by decide +kernel, by decide +kernel, by decide +kernel, by decide +kernel, by decide +kernel, by decide +kernel, by decide +kernel, by decide +kernel, by decide +kernel⟩,
   ⟨withStrm 5 { strm0 2 1 5 (desc0 8589934592 10 10 1200) with late := [(0, [0])] }, 0, 2, 0, 0, 1, 0, { strm0 2 1 5 (desc0 8589934592 10 10 1200) with late := [(0, [0])] }, 0, by decide +kernel, by decide +kernel, by decide +kernel, by decide +kernel, by decide +kernel, by decide +kernel, by decide +kernel, by decide +kernel, by decide +kernel, by decide +kernel⟩,
   ⟨withStrm 5 { strm0 2 1 5 (desc0 8589934592 10 10 1200) with got := [(0, zeros 64, false)] }, 0, 2, 0, 0, 1, 0, { strm0 2 1 5 (desc0 8589934592 10 10 1200) with got := [(0, zeros 64, false)] }, by decide +kernel, by decide +kernel, by decide +kernel, by decide +kernel⟩,
   ⟨step0 { stepCyc := 5 } { seq := { fetches := [fetch0 0 none false] } }, 0, 0, 0, 1, 0, fetch0 0 none false, by decide +kernel, by decide +kernel⟩,
   ⟨withStrm 5 { strm0 4 2 5 (desc0 8589934656 10 10 8) with wbuf := [(0, zeros 64)] }, 0, 0, 0, 1, 0, { strm0 4 2 5 (desc0 8589934656 10 10 8) with wbuf := [(0, zeros 64)] }, zeros 64, by decide +kernel, by decide +kernel, by decide +kernel, by decide +kernel, (fun _ _ _ => Bool.and_false _), by decide +kernel⟩⟩

theorem test_hyps_streamDataMoves_2 :
    (∃ (s : State) (c p l n k : Nat) (t : Strm) (d : Bytes), s.owner c = some (p, l) ∧ (s.core c).strm 4 n = some t ∧ ((t.wbuf.find? fun x => x.1 ==
      k) = some (k, d)) ∧ d ≠ [] ∧ ((∃ i row, s.pcOf (s.part p) (t.hbmAt k).1 = some (i, row) ∧ s.refreshing i = true) ∨ s.mPending (c, 4, n, k)
      mWrite = true)) ∧
    (∃ (s : State) (c e p l n k : Nat) (t : Strm), s.owner c = some (p, l) ∧ (s.core c).strm e n = some t ∧ k ∈ t.written ∧ k ∉ t.acked ∧ s.mPending
      (c, e, n, k) mAck = false ∧ (∀ z ∈ (s.core c).strms, z.late = [])) ∧
    (∃ (s : State) (c e p l n k : Nat) (t : Strm), ∃ v, s.owner c = some (p, l) ∧ (s.core c).strm e n = some t ∧ k ∈ t.written ∧ k ∉ t.acked ∧
      s.mPending (c, e, n, k) mAck = false ∧ e = 4 ∧ (s.core c).strms = [t] ∧ t.late = [(v, [t.units])] ∧ t.acked.length + 1 = t.units) ∧
    (∃ (s : State) (c e p l n k : Nat) (t : Strm), s.owner c = some (p, l) ∧ (s.core c).strm e n = some t ∧ (k ∉ t.written ∨ k ∈ t.acked ∨ s.mPending
      (c, e, n, k) mAck = true)) :=
  ⟨⟨{ withStrm 5 { strm0 4 2 5 (desc0 8589934656 10 10 8) with wbuf := [(0, zeros 64)] } with hbm := { net := [⟨0, mWrite, (0, 4, 1, 0), 0, 9, [1], 0⟩] } }, 0, 0, 0, 1, 0, { strm0 4 2 5 (desc0 8589934656 10 10 8) with wbuf := [(0, zeros 64)] }, zeros 64, by decide +kernel, by decide +kernel, by decide +kernel, by decide +kernel, .inr (by decide +kernel)⟩,
   ⟨withStrm 5 { strm0 4 2 5 (desc0 8589934656 10 10 8) with written := [0] }, 0, 4, 0, 0, 1, 0, { strm0 4 2 5 (desc0 8589934656 10 10 8) with written := [0] }, by decide +kernel, by decide +kernel, by decide +kernel, by decide +kernel, by decide +kernel, by decide +kernel⟩,
   ⟨withStrm 5 { strm0 4 2 5 (desc0 8589934656 10 10 8) with written := [0], late := [(0, [1])] }, 0, 4, 0, 0, 1, 0, { strm0 4 2 5 (desc0 8589934656 10 10 8) with written := [0], late := [(0, [1])] }, 0, by decide +kernel, by decide +kernel, by decide +kernel, by decide +kernel, by decide +kernel, by decide +kernel, by decide +kernel, by decide +kernel, by decide +kernel⟩,
   ⟨withStrm 5 { strm0 4 2 5 (desc0 8589934656 10 10 8) with written := [0], acked := [0] }, 0, 4, 0, 0, 1, 0, { strm0 4 2 5 (desc0 8589934656 10 10 8) with written := [0], acked := [0] }, by decide +kernel, by decide +kernel, by decide +kernel⟩⟩

theorem test_hyps_channelInstructionsIssue :
    (∃ (s : State) (c : Nat) (x : Ctx), s.issues c 5 1 sendReq x ∧ x.l < 1008) ∧
    (∃ (s : State) (c a : Nat) (x : Ctx) (r : RingRec), s.issues c 5 2 takeReq x ∧ ((s.core c).ch.rings.getD (tkRing x.word) {}).pick (tkMatch
      x.word) x.now = some r ∧ a = ((s.core c).ch.rings.getD (tkRing x.word) {}).base + r.at_ % 2 ^ ((s.core c).ch.rings.getD (tkRing x.word)
      {}).log2 ∧ x.m.badIn a (16 + r.len) = none) ∧
    (∃ (s : State) (c a : Nat) (x : Ctx) (r : RingRec), ∃ w, s.issues c 5 2 takeReq x ∧ ((s.core c).ch.rings.getD (tkRing x.word) {}).pick (tkMatch
      x.word) x.now = some r ∧ a = ((s.core c).ch.rings.getD (tkRing x.word) {}).base + r.at_ % 2 ^ ((s.core c).ch.rings.getD (tkRing x.word)
      {}).log2 ∧ x.m.badIn a (16 + r.len) = some w ∧ s.faultFree x.p c) ∧
    (∃ (s : State) (c : Nat) (x : Ctx), s.issues c 5 3 (remoteReq false) x ∧ x.l < 1008) ∧
    (∃ (s : State) (c : Nat) (x : Ctx), s.issues c 5 4 (remoteReq true) x ∧ x.l < 1008 ∧ chDest x.word < 1008) ∧
    (∃ (s : State) (c : Nat) (x : Ctx), s.issues c 5 8 ctlReq x ∧ x.l < 1008) ∧
    (∃ (s : State) (c : Nat) (x : Ctx), s.issues c 5 9 ctlReq x ∧ x.l < 1008) ∧
    (∃ (s : State) (c : Nat) (x : Ctx), s.issues c 5 0x0A ctlReq x ∧ x.l < 1008) :=
  ⟨⟨headed 5 (inst 1 5) 5, 0, ctxOf (headed 5 (inst 1 5) 5) 5 (inst 1 5) 5, goes_issues (by decide +kernel), by decide +kernel⟩,
   ⟨drawn (headed 5 wTake 5) (fun h => { h with rings := [(0, { ring0 with recs := [rec0] })] }), 0, 4096, ctxOf (drawn (headed 5 wTake 5) (fun h => { h with rings := [(0, { ring0 with recs := [rec0] })] })) 5 wTake 5, rec0, goes_issues (by decide +kernel), by decide +kernel, by decide +kernel, by decide +kernel⟩,
   ⟨((drawn (headed 5 wTake 5) (fun h => { h with rings := [(0, { ring0 with recs := [rec0] })] })).modSp 0 fun m => { m with bad := [513] }), 0, 4096, ctxOf (((drawn (headed 5 wTake 5) (fun h => { h with rings := [(0, { ring0 with recs := [rec0] })] })).modSp 0 fun m => { m with bad := [513] })) 5 wTake 5, rec0, 513, goes_issues (by decide +kernel), by decide +kernel, by decide +kernel, by decide +kernel, (by unfold State.faultFree; decide +kernel)⟩,
   ⟨headed 5 (inst 3 5) 5, 0, ctxOf (headed 5 (inst 3 5) 5) 5 (inst 3 5) 5, goes_issues (by decide +kernel), by decide +kernel⟩,
   ⟨headed 5 (inst 4 5) 5, 0, ctxOf (headed 5 (inst 4 5) 5) 5 (inst 4 5) 5, goes_issues (by decide +kernel), by decide +kernel, by decide +kernel⟩,
   ⟨headed 5 (inst 8 5) 5, 0, ctxOf (headed 5 (inst 8 5) 5) 5 (inst 8 5) 5, goes_issues (by decide +kernel), by decide +kernel⟩,
   ⟨headed 5 (inst 9 5) 5, 0, ctxOf (headed 5 (inst 9 5) 5) 5 (inst 9 5) 5, goes_issues (by decide +kernel), by decide +kernel⟩,
   ⟨headed 5 (inst 10 5) 5, 0, ctxOf (headed 5 (inst 10 5) 5) 5 (inst 10 5) 5, goes_issues (by decide +kernel), by decide +kernel⟩⟩

theorem test_hyps_reservationsAndReplies_1 :
    (∃ (s : State) (p ep now : Nat) (v : Resv) (r : Ring) (behind : Bool), ∃ pad, s.epLive p ep = some now ∧ (s.ch p ep).nextResv now = some v ∧
      ((s.ch p ep).handledAt = now → (s.ch p ep).handled < 4) ∧ (ep < 1008 → (s.core ((s.part p).res.place.getD ep 0)).ctlDue v.ring now (s.part
      p).slotted = false) ∧ r = ((s.ch p ep).rings.getD v.ring {}).advance now ∧ (behind = (!v.waiting && ((s.ch p ep).resvs.any fun u =>
      u.waiting && u.ring == v.ring && !(u.src == v.src && u.num == v.num && u.ring == v.ring)) && r.isOpen && v.epoch == r.epoch && decide
      (v.size ≤ 2 ^ r.log2))) ∧ behind = false ∧ r.answer v = some (0, pad)) ∧
    (∃ (s : State) (p ep now : Nat) (v : Resv) (r : Ring) (behind : Bool), ∃ code k, s.epLive p ep = some now ∧ (s.ch p ep).nextResv now = some v ∧
      ((s.ch p ep).handledAt = now → (s.ch p ep).handled < 4) ∧ (ep < 1008 → (s.core ((s.part p).res.place.getD ep 0)).ctlDue v.ring now (s.part
      p).slotted = false) ∧ r = ((s.ch p ep).rings.getD v.ring {}).advance now ∧ (behind = (!v.waiting && ((s.ch p ep).resvs.any fun u =>
      u.waiting && u.ring == v.ring && !(u.src == v.src && u.num == v.num && u.ring == v.ring)) && r.isOpen && v.epoch == r.epoch && decide
      (v.size ≤ 2 ^ r.log2))) ∧ behind = false ∧ r.answer v = some (code + 1, k)) ∧
    (∃ (s : State) (p ep now : Nat) (v : Resv) (r : Ring) (behind : Bool), s.epLive p ep = some now ∧ (s.ch p ep).nextResv now = some v ∧ ((s.ch p
      ep).handledAt = now → (s.ch p ep).handled < 4) ∧ (ep < 1008 → (s.core ((s.part p).res.place.getD ep 0)).ctlDue v.ring now (s.part
      p).slotted = false) ∧ r = ((s.ch p ep).rings.getD v.ring {}).advance now ∧ (behind = (!v.waiting && ((s.ch p ep).resvs.any fun u =>
      u.waiting && u.ring == v.ring && !(u.src == v.src && u.num == v.num && u.ring == v.ring)) && r.isOpen && v.epoch == r.epoch && decide
      (v.size ≤ 2 ^ r.log2))) ∧ (behind = true ∨ r.answer v = none) ∧ (s.part p).slotted = false) ∧
    (∃ (s : State) (p ep now : Nat) (v : Resv) (r : Ring) (behind : Bool), s.epLive p ep = some now ∧ (s.ch p ep).nextResv now = some v ∧ ((s.ch p
      ep).handledAt = now → (s.ch p ep).handled < 4) ∧ (ep < 1008 → (s.core ((s.part p).res.place.getD ep 0)).ctlDue v.ring now (s.part
      p).slotted = false) ∧ r = ((s.ch p ep).rings.getD v.ring {}).advance now ∧ (behind = (!v.waiting && ((s.ch p ep).resvs.any fun u =>
      u.waiting && u.ring == v.ring && !(u.src == v.src && u.num == v.num && u.ring == v.ring)) && r.isOpen && v.epoch == r.epoch && decide
      (v.size ≤ 2 ^ r.log2))) ∧ (behind = true ∨ r.answer v = none) ∧ (s.part p).slotted = true ∧ ep < 1008 ∧ s.owner ((s.part p).res.place.getD
      ep 0) = some (p, ep) ∧ s.faultFree p ((s.part p).res.place.getD ep 0)) ∧
    (∃ (s : State) (p ep now : Nat) (v : Resv) (r : Ring) (behind : Bool), s.epLive p ep = some now ∧ (s.ch p ep).nextResv now = some v ∧ ((s.ch p
      ep).handledAt = now → (s.ch p ep).handled < 4) ∧ (ep < 1008 → (s.core ((s.part p).res.place.getD ep 0)).ctlDue v.ring now (s.part
      p).slotted = false) ∧ r = ((s.ch p ep).rings.getD v.ring {}).advance now ∧ (behind = (!v.waiting && ((s.ch p ep).resvs.any fun u =>
      u.waiting && u.ring == v.ring && !(u.src == v.src && u.num == v.num && u.ring == v.ring)) && r.isOpen && v.epoch == r.epoch && decide
      (v.size ≤ 2 ^ r.log2))) ∧ (behind = true ∨ r.answer v = none) ∧ (s.part p).slotted = true ∧ 1008 ≤ ep ∧ (∀ h ∈ (s.part p).run.holds, h.kind
      ≠ 7)) ∧
    (∃ (s : State) (p ep now : Nat), s.epLive p ep = some now ∧ ((s.ch p ep).nextResv now = none ∨ ((s.ch p ep).handledAt = now ∧ 4 ≤ (s.ch p
      ep).handled) ∨ (ep < 1008 ∧ ∃ v, (s.ch p ep).nextResv now = some v ∧ (s.core ((s.part p).res.place.getD ep 0)).ctlDue v.ring now (s.part
      p).slotted = true))) ∧
    (∃ (s : State) (p ep now : Nat) (f : Flit) (o : Xout) (a b : List Xout), s.epLive p ep = some now ∧ (s.part p).run.arrivedFlit 1 ep = some f ∧
      (s.ch p ep).outs = a ++ o :: b ∧ o.num = f.num ∧ o.kind = 0 ∧ (∀ y ∈ a ++ b, y.num ≠ f.num) ∧ f.nums.getD 0 0 = 0 ∧ (∀ y ∈ a ++ b, y.state
      = 2)) :=
  ⟨⟨netSt 5 [] { rings := [(0, ring0)], resvs := [⟨0, 0, 1, 0, 64, 16, 0, 0, none, 4, false⟩] }, 0, 0, 5, ⟨0, 0, 1, 0, 64, 16, 0, 0, none, 4, false⟩, _, _, 0, by decide +kernel, by decide +kernel, by decide +kernel, by decide +kernel, rfl, rfl, by decide +kernel, by decide +kernel⟩,
   ⟨netSt 5 [] { rings := [(0, { ring0 with isOpen := false })], resvs := [⟨0, 0, 1, 0, 64, 16, 0, 0, none, 4, false⟩] }, 0, 0, 5, ⟨0, 0, 1, 0, 64, 16, 0, 0, none, 4, false⟩, _, _, 0, 0, by decide +kernel, by decide +kernel, by decide +kernel, by decide +kernel, rfl, rfl, by decide +kernel, by decide +kernel⟩,
   ⟨queued (netSt 5 [] { rings := [(0, { ring0 with tail := 64 })], resvs := [⟨0, 0, 1, 0, 256, 16, 0, 0, none, 4, false⟩] }), 0, 0, 5, ⟨0, 0, 1, 0, 256, 16, 0, 0, none, 4, false⟩, _, false, by decide +kernel, by decide +kernel, by decide +kernel, by decide +kernel, rfl, by decide +kernel, by decide +kernel, by decide +kernel⟩,
   ⟨netSt 5 [] { rings := [(0, { ring0 with tail := 64 })], resvs := [⟨0, 0, 1, 0, 256, 16, 0, 0, none, 4, false⟩] }, 0, 0, 5, ⟨0, 0, 1, 0, 256, 16, 0, 0, none, 4, false⟩, _, false, by decide +kernel, by decide +kernel, by decide +kernel, by decide +kernel, rfl, by decide +kernel, by decide +kernel, by decide +kernel, by decide +kernel, by decide +kernel, (by unfold State.faultFree; decide +kernel)⟩,
   ⟨culm0 { rings := [(0, { ring0 with tail := 64 })], resvs := [⟨0, 0, 1, 0, 256, 16, 0, 0, none, 4, false⟩] }, 0, 1008, 5, ⟨0, 0, 1, 0, 256, 16, 0, 0, none, 4, false⟩, _, false, by decide +kernel, by decide +kernel, by decide +kernel, by decide +kernel, rfl, by decide +kernel, by decide +kernel, by decide +kernel, by decide +kernel, by decide +kernel⟩,
   ⟨netSt 5 [] { rings := [(0, ring0)] }, 0, 0, 5, by decide +kernel, .inl (by decide +kernel)⟩,
   ⟨netSt 5 [flit0 1 [0] []] { outs := [xout0] }, 0, 0, 5, flit0 1 [0] [], xout0, [], [], by decide +kernel, by decide +kernel, by decide +kernel, by decide +kernel, by decide +kernel, by decide +kernel, by decide +kernel, by decide +kernel⟩⟩

theorem test_hyps_reservationsAndReplies_2 :
    (∃ (s : State) (p ep now : Nat) (f : Flit) (o : Xout) (a b : List Xout), ∃ y a', s.epLive p ep = some now ∧ (s.part p).run.arrivedFlit 1 ep =
      some f ∧ (s.ch p ep).outs = a ++ o :: b ∧ o.num = f.num ∧ o.kind = 0 ∧ (∀ y ∈ a ++ b, y.num ≠ f.num) ∧ f.nums.getD 0 0 = 0 ∧ a = y :: a' ∧
      y.state = 0) ∧
    (∃ (s : State) (p ep now : Nat) (f : Flit) (o : Xout) (a b : List Xout), s.epLive p ep = some now ∧ (s.part p).run.arrivedFlit 1 ep = some f ∧
      (s.ch p ep).outs = a ++ o :: b ∧ o.num = f.num ∧ o.kind = 0 ∧ (∀ y ∈ a ++ b, y.num ≠ f.num) ∧ f.nums.getD 0 0 = 1 ∧ (∀ y ∈ a ++ b, y.state
      ≠ 1)) ∧
    (∃ (s : State) (p ep now : Nat) (f : Flit) (o : Xout) (a b : List Xout), s.epLive p ep = some now ∧ (s.part p).run.arrivedFlit 1 ep = some f ∧
      (s.ch p ep).outs = a ++ o :: b ∧ o.num = f.num ∧ o.kind = 0 ∧ (∀ y ∈ a ++ b, y.num ≠ f.num) ∧ f.nums.getD 0 0 = 2 ∧ (∀ y ∈ a ++ b, y.state
      ≠ 1)) ∧
    (∃ (s : State) (p ep now : Nat) (f : Flit) (o : Xout) (a b : List Xout), s.epLive p ep = some now ∧ (s.part p).run.arrivedFlit 1 ep = some f ∧
      (s.ch p ep).outs = a ++ o :: b ∧ o.num = f.num ∧ o.kind = 0 ∧ (∀ y ∈ a ++ b, y.num ≠ f.num) ∧ 3 ≤ f.nums.getD 0 0 ∧ ep < 1008 ∧ s.owner
      ((s.part p).res.place.getD ep 0) = some (p, ep) ∧ s.faultFree p ((s.part p).res.place.getD ep 0)) ∧
    (∃ (s : State) (p ep now : Nat) (f : Flit) (o : Xout), s.epLive p ep = some now ∧ (s.part p).run.arrivedFlit 3 ep = some f ∧ (((s.ch p
      ep).outs.find? fun o => o.num == f.num) = some o)) ∧
    (∃ (s : State) (p ep : Nat), (s.epLive p ep = none ∨ ∃ now, s.epLive p ep = some now ∧ (s.part p).run.arrivedFlit 1 ep = none ∧ (s.part
      p).run.arrivedFlit 3 ep = none)) :=
  ⟨⟨netSt 5 [flit0 1 [0] []] { outs := [{ xout0 with num := 2 }, xout0] }, 0, 0, 5, flit0 1 [0] [], xout0, [{ xout0 with num := 2 }], [], { xout0 with num := 2 }, [], by decide +kernel, by decide +kernel, by decide +kernel, by decide +kernel, by decide +kernel, by decide +kernel, by decide +kernel, by decide +kernel, by decide +kernel⟩,
   ⟨netSt 5 [flit0 1 [1] []] { outs := [xout0] }, 0, 0, 5, flit0 1 [1] [], xout0, [], [], by decide +kernel, by decide +kernel, by decide +kernel, by decide +kernel, by decide +kernel, by decide +kernel, by decide +kernel, by decide +kernel⟩,
   ⟨netSt 5 [flit0 1 [2] []] { outs := [xout0] }, 0, 0, 5, flit0 1 [2] [], xout0, [], [], by decide +kernel, by decide +kernel, by decide +kernel, by decide +kernel, by decide +kernel, by decide +kernel, by decide +kernel, by decide +kernel⟩,
   ⟨netSt 5 [flit0 1 [3] []] { outs := [xout0] }, 0, 0, 5, flit0 1 [3] [], xout0, [], [], by decide +kernel, by decide +kernel, by decide +kernel, by decide +kernel, by decide +kernel, by decide +kernel, by decide +kernel, by decide +kernel, by decide +kernel, (by unfold State.faultFree; decide +kernel)⟩,
   ⟨netSt 5 [flit0 3 [1] []] { outs := [xout0] }, 0, 0, 5, flit0 3 [1] [], xout0, by decide +kernel, by decide +kernel, by decide +kernel⟩,
   ⟨mod 3, 0, 0, .inl (by decide +kernel)⟩⟩

theorem test_hyps_flitsAtEndpoints_1 :
    (∃ (s : State) (p ep : Nat) (f : Flit), (s.part p).run.stepRun = true ∧ (s.part p).isEp ep = true ∧ ((s.part p).run.net.find? (Flit.deliverable
      (s.part p) ep)) = some f ∧ f.kind = 0 ∧ (∀ x ∈ (s.ch p ep).xfers, x.kind ≠ 0)) ∧
    (∃ (s : State) (p ep : Nat) (f : Flit), (s.part p).run.stepRun = true ∧ (s.part p).isEp ep = true ∧ ((s.part p).run.net.find? (Flit.deliverable
      (s.part p) ep)) = some f ∧ f.kind ≠ 0 ∧ (f.kind = 2 → f.nums.getD 2 0 = ((s.ch p ep).rings.getD (f.nums.getD 0 0) {}).epoch)) ∧
    (∃ (s : State) (p ep : Nat) (f : Flit), ∃ x, (s.part p).run.stepRun = true ∧ (s.part p).isEp ep = true ∧ ((s.part p).run.net.find?
      (Flit.deliverable (s.part p) ep)) = some f ∧ f.kind = 2 ∧ f.nums.getD 2 0 ≠ ((s.ch p ep).rings.getD (f.nums.getD 0 0) {}).epoch ∧ (s.ch p
      ep).xfers = [x] ∧ x.kind = 2 ∧ x.peer = f.src ∧ x.num = f.num ∧ 1 < x.toWrite) ∧
    (∃ (s : State) (p ep now c u : Nat) (f : Flit) (x : Xfer), s.epLive p ep = some now ∧ ep < 1008 ∧ c = (s.part p).res.place.getD ep 0 ∧ s.owner c
      = some (p, ep) ∧ ((s.part p).run.net.find? (Flit.writable (s.part p) ep now)) = some f ∧ u = f.nums.getD 0 0 ∧ f.data.length = 64 ∧ f.kind
      = 6 ∧ (s.core c).guarded u = false ∧ (s.ch p ep).xfers = [x] ∧ x.kind = 6 ∧ x.peer = f.src ∧ x.num = f.num) ∧
    (∃ (s : State) (p ep now c u : Nat) (f : Flit) (_x : Xfer), s.epLive p ep = some now ∧ ep < 1008 ∧ c = (s.part p).res.place.getD ep 0 ∧ s.owner c
      = some (p, ep) ∧ ((s.part p).run.net.find? (Flit.writable (s.part p) ep now)) = some f ∧ u = f.nums.getD 0 0 ∧ f.data.length = 64 ∧ f.kind
      = 6 ∧ (s.core c).guarded u = true ∧ s.faultFree p c) ∧
    (∃ (s : State) (p ep now c u : Nat) (f : Flit) (x : Xfer), s.epLive p ep = some now ∧ ep < 1008 ∧ c = (s.part p).res.place.getD ep 0 ∧ s.owner c
      = some (p, ep) ∧ ((s.part p).run.net.find? (Flit.writable (s.part p) ep now)) = some f ∧ u = f.nums.getD 0 0 ∧ f.data.length = 64 ∧ f.kind
      = 5 ∧ (s.ch p ep).xfers = [x] ∧ x.kind = 5 ∧ x.peer = f.src ∧ x.num = f.num) :=
  ⟨⟨queued (netSt 5 [{ flit0 0 [] [] with arrived := none }] {}), 0, 0, { flit0 0 [] [] with arrived := none }, by decide +kernel, by decide +kernel, by decide +kernel, by decide +kernel, by decide +kernel⟩,
   ⟨queued (netSt 5 [{ flit0 2 [] [] with arrived := none }] {}), 0, 0, { flit0 2 [] [] with arrived := none }, by decide +kernel, by decide +kernel, by decide +kernel, by decide +kernel, by decide +kernel⟩,
   ⟨queued (netSt 5 [{ flit0 2 [0, 0, 1] [] with arrived := none }] { xfers := [⟨2, 0, 1, 2, 2, none, false, false, false, 0, 0⟩] }), 0, 0, { flit0 2 [0, 0, 1] [] with arrived := none }, ⟨2, 0, 1, 2, 2, none, false, false, false, 0, 0⟩, by decide +kernel, by decide +kernel, by decide +kernel, by decide +kernel, by decide +kernel, by decide +kernel, by decide +kernel, by decide +kernel, by decide +kernel, by decide +kernel⟩,
   ⟨netSt 6 [flit0 6 [9] (zeros 64)] { xfers := [⟨6, 0, 1, 0, 1, none, false, false, false, 0, 0⟩] }, 0, 0, 6, 0, 9, flit0 6 [9] (zeros 64), ⟨6, 0, 1, 0, 1, none, false, false, false, 0, 0⟩, by decide +kernel, by decide +kernel, by decide +kernel, by decide +kernel, by decide +kernel, by decide +kernel, by decide +kernel, by decide +kernel, by decide +kernel, by decide +kernel, by decide +kernel, by decide +kernel, by decide +kernel⟩,
   ⟨((netSt 6 [flit0 6 [9] (zeros 64)] {}).modSp 0 fun m => { m with resident := [(9, 9)] }), 0, 0, 6, 0, 9, flit0 6 [9] (zeros 64), ⟨6, 0, 1, 0, 1, none, false, false, false, 0, 0⟩, by decide +kernel, by decide +kernel, by decide +kernel, by decide +kernel, by decide +kernel, by decide +kernel, by decide +kernel, by decide +kernel, by decide +kernel, (by unfold State.faultFree; decide +kernel)⟩,
   ⟨netSt 6 [flit0 5 [9] (zeros 64)] { xfers := [⟨5, 0, 1, 0, 1, none, false, false, false, 0, 0⟩] }, 0, 0, 6, 0, 9, flit0 5 [9] (zeros 64), ⟨5, 0, 1, 0, 1, none, false, false, false, 0, 0⟩, by decide +kernel, by decide +kernel, by decide +kernel, by decide +kernel, by decide +kernel, by decide +kernel, by decide +kernel, by decide +kernel, by decide +kernel, by decide +kernel, by decide +kernel, by decide +kernel⟩⟩

theorem test_hyps_flitsAtEndpoints_2 :
    (∃ (s : State) (p ep now c u : Nat) (f : Flit) (x : Xfer), ∃ (r : Ring) (a : Nat), s.epLive p ep = some now ∧ ep < 1008 ∧ c = (s.part
      p).res.place.getD ep 0 ∧ s.owner c = some (p, ep) ∧ ((s.part p).run.net.find? (Flit.writable (s.part p) ep now)) = some f ∧ u = f.nums.getD
      0 0 ∧ f.data.length = 64 ∧ f.kind = 2 ∧ r = (s.ch p ep).rings.getD u {} ∧ f.nums.getD 2 0 = r.epoch ∧ a = r.base + f.nums.getD 1 0 % 2 ^
      r.log2 ∧ (s.ch p ep).xfers = [x] ∧ x.kind = 2 ∧ x.peer = f.src ∧ x.num = f.num ∧ x.ring = u ∧ x.stale = false ∧ r.aflagEn = false) ∧
    (∃ (s : State) (p ep now : Nat) (f : Flit), s.epLive p ep = some now ∧ (s.part p).run.arrivedFlit 4 ep = some f) ∧
    (∃ (s : State) (p ep now : Nat) (x : Xfer), s.epLive p ep = some now ∧
      ((s.ch p ep).xfers.find? fun x => !x.checked && (match x.due with | some d => decide (d ≤ now + 96) | none => false)) = some x ∧ x.left =
      0) ∧
    (∃ (s : State) (p ep now : Nat) (x : Xfer), s.epLive p ep = some now ∧
      ((s.ch p ep).xfers.find? fun x => !x.checked && (match x.due with | some d => decide (d ≤ now + 96) | none => false)) = some x ∧ 0 <
      x.left) ∧
    (∃ (s : State) (p _ep : Nat), (s.part p).run.net = []) ∧
    (∃ (s : State) (p ep : Nat), (s.ch p ep).xfers = []) :=
  ⟨⟨netSt 6 [flit0 2 [0, 64, 0] (zeros 64)] { rings := [(0, ring0)], xfers := [⟨2, 0, 1, 1, 1, none, false, false, false, 0, 0⟩] }, 0, 0, 6, 0, 0, flit0 2 [0, 64, 0] (zeros 64), ⟨2, 0, 1, 1, 1, none, false, false, false, 0, 0⟩, ring0, 4160, by decide +kernel, by decide +kernel, by decide +kernel, by decide +kernel, by decide +kernel, by decide +kernel, by decide +kernel, by decide +kernel, by decide +kernel, by decide +kernel, by decide +kernel, by decide +kernel, by decide +kernel, by decide +kernel, by decide +kernel, by decide +kernel, by decide +kernel, by decide +kernel⟩,
   ⟨netSt 6 [flit0 4 [0, 1, 0] []] {}, 0, 0, 6, flit0 4 [0, 1, 0] [], by decide +kernel, by decide +kernel⟩,
   ⟨netSt 6 [] { xfers := [⟨6, 0, 1, 0, 1, some 102, false, false, false, 0, 0⟩] }, 0, 0, 6, ⟨6, 0, 1, 0, 1, some 102, false, false, false, 0, 0⟩, by decide +kernel, by decide +kernel, by decide +kernel⟩,
   ⟨netSt 6 [] { xfers := [⟨6, 0, 1, 1, 1, some 102, false, false, false, 0, 0⟩] }, 0, 0, 6, ⟨6, 0, 1, 1, 1, some 102, false, false, false, 0, 0⟩, by decide +kernel, by decide +kernel, by decide +kernel⟩,
   ⟨mod 3, 0, 0, by decide +kernel⟩,
   ⟨mod 3, 0, 0, by decide +kernel⟩⟩

theorem test_hyps_routersAndLinks :
    (∃ (s : State) (p die src lane at_ : Nat) (f : Flit) (hit : Flit → Bool), ∃ k, s.slottedAt die = some p ∧ (s.part p).run.stepRun = true ∧ (s.part
      p).run.held = false ∧
      hit = (fun f => f.timed (s.part p) && match f.loc with | some (d, sr, ln, t) => d == die && sr == src && ln == lane && decide (t ≤ (s.part p).run.stepCyc) | none => false)
      ∧ (s.part p).run.net.find? hit = some f ∧ f.loc = some (die, src, lane, at_) ∧ at_ = (s.part p).run.stepCyc ∧ slotField ((s.die
      die).slots.getD (at_ % 256) 0) src lane = some k ∧ k / 3 < 4) ∧
    (∃ (s : State) (p die src lane at_ : Nat) (f : Flit) (hit : Flit → Bool), ∃ k, s.slottedAt die = some p ∧ (s.part p).run.stepRun = true ∧ (s.part
      p).run.held = false ∧
      hit = (fun f => f.timed (s.part p) && match f.loc with | some (d, sr, ln, t) => d == die && sr == src && ln == lane && decide (t ≤ (s.part p).run.stepCyc) | none => false)
      ∧ (s.part p).run.net.find? hit = some f ∧ f.loc = some (die, src, lane, at_) ∧ at_ = (s.part p).run.stepCyc ∧ slotField ((s.die
      die).slots.getD (at_ % 256) 0) src lane = some k ∧ 4 ≤ k / 3 ∧ (s.part p).res.place.getD f.dst 1152 = 2 * die + (k / 3 - 4)) ∧
    (∃ (s : State) (p die src lane at_ : Nat) (f : Flit) (hit : Flit → Bool), s.slottedAt die = some p ∧ (s.part p).run.stepRun = true ∧ (s.part
      p).run.held = false ∧
      hit = (fun f => f.timed (s.part p) && match f.loc with | some (d, sr, ln, t) => d == die && sr == src && ln == lane && decide (t ≤ (s.part p).run.stepCyc) | none => false)
      ∧ (s.part p).run.net.find? hit = some f ∧ f.loc = some (die, src, lane, at_) ∧ (at_ ≠ (s.part p).run.stepCyc ∨ slotField ((s.die
      die).slots.getD (at_ % 256) 0) src lane = none ∨ ∃ k, slotField ((s.die die).slots.getD (at_ % 256) 0) src lane = some k ∧ 4 ≤ k / 3 ∧
      (s.part p).res.place.getD f.dst 1152 ≠ 2 * die + (k / 3 - 4)) ∧ (∀ h ∈ (s.part p).run.holds, h.kind ≠ 7)) ∧
    (∃ (s : State) (p die _src _lane : Nat), s.slottedAt die = some p ∧ ((s.part p).run.stepRun = false ∨ (s.part p).run.held = true ∨ (s.part
      p).run.net = [])) ∧
    (∃ (s : State) (die port p n fails : Nat) (_again : Bool) (f : Flit), (s.part p).run.net[n]? = some f ∧ fails = (if f.failAt = 4 * die + port
      then f.fails else 0) ∧ f.arrived = none) ∧
    (∃ (s : State) (die port p n fails : Nat) (_again : Bool) (f : Flit), (s.part p).run.net[n]? = some f ∧ fails = (if f.failAt = 4 * die + port
      then f.fails else 0) ∧ f.arrived.isSome = true) ∧
    (∃ (s : State) (die port : Nat) (recent : List (Nat × Nat)), (recent = ((s.die die).disAt.filter fun y => decide (s.opTicks ≤ y.2 + 2500000000))
      ++ [(port, s.opTicks)])) :=
  ⟨⟨{ netSt 5 [{ flit0 2 [] [] with arrived := none, loc := some (0, 5, 0, 5) }] {} with dies := [(0, { slots := List.replicate 256 5 })] }, 0, 0, 5, 0, 5, { flit0 2 [] [] with arrived := none, loc := some (0, 5, 0, 5) }, _, 0, by decide +kernel, by decide +kernel, by decide +kernel, rfl, by decide +kernel, by decide +kernel, by decide +kernel, by decide +kernel, by decide +kernel⟩,
   ⟨{ netSt 5 [{ flit0 2 [] [] with arrived := none, loc := some (0, 5, 0, 5) }] {} with dies := [(0, { slots := List.replicate 256 (5 * 2 ^ 72) })] }, 0, 0, 5, 0, 5, { flit0 2 [] [] with arrived := none, loc := some (0, 5, 0, 5) }, _, 12, by decide +kernel, by decide +kernel, by decide +kernel, rfl, by decide +kernel, by decide +kernel, by decide +kernel, by decide +kernel, by decide +kernel, by decide +kernel⟩,
   ⟨netSt 5 [{ flit0 2 [] [] with arrived := none, loc := some (0, 5, 0, 4) }] {}, 0, 0, 5, 0, 4, { flit0 2 [] [] with arrived := none, loc := some (0, 5, 0, 4) }, _, by decide +kernel, by decide +kernel, by decide +kernel, rfl, by decide +kernel, by decide +kernel, .inl (by decide +kernel), by decide +kernel⟩,
   ⟨netSt 5 [] {}, 0, 0, 0, 0, by decide +kernel, by decide +kernel⟩,
   ⟨queued (netSt 5 [{ flit0 2 [] [] with arrived := none }] {}), 0, 0, 0, 0, _, true, { flit0 2 [] [] with arrived := none }, by decide +kernel, rfl, by decide +kernel⟩,
   ⟨queued (netSt 5 [flit0 2 [] []] {}), 0, 0, 0, 0, _, true, flit0 2 [] [], by decide +kernel, rfl, by decide +kernel⟩,
   ⟨mod 5, 0, 3, _, rfl⟩⟩

theorem test_hyps_culmCoreChannels :
    (∃ (s : State) (p culm now dest ring chan _lead : Nat) (body : Bytes), s.epLive p (1008 + culm) = some now ∧ (s.part p).isEp dest = true ∧
      (((s.ch p (1008 + culm)).outs.filter fun o => o.kind == 0 && o.state == 0).length < 2) ∧ body.length ≤ 65536 ∧ body.length % 16 = 0 ∧ chan
      < 16 ∧ ring < 32) ∧
    (∃ (s : State) (p culm now dest _ring _chan _lead : Nat) (_body : Bytes), s.epLive p (1008 + culm) = some now ∧ (s.part p).isEp dest = false ∧ (∀
      h ∈ (s.part p).run.holds, h.kind ≠ 7)) ∧
    (∃ (s : State) (p culm now ring m : Nat), ∃ r, s.epLive p (1008 + culm) = some now ∧ ((s.ch p (1008 + culm)).rings.getD ring {}).pick m now =
      some r) ∧
    (∃ (s : State) (p culm now ring m : Nat), s.epLive p (1008 + culm) = some now ∧ ((s.ch p (1008 + culm)).rings.getD ring {}).pick m now = none) ∧
    (∃ (s : State) (p culm now _ring : Nat), s.epLive p (1008 + culm) = some now) ∧
    (∃ (s : State) (p culm now _ring : Nat), ∃ (_cfg : RingCfg), s.epLive p (1008 + culm) = some now) :=
  ⟨⟨culm0 {}, 0, 0, 5, 0, 31, 15, 0, zeros 32, by decide +kernel, by decide +kernel, by decide +kernel, by decide +kernel, by decide +kernel, by decide +kernel, by decide +kernel⟩,
   ⟨culm0 {}, 0, 0, 5, 5, 0, 0, 0, [], by decide +kernel, by decide +kernel, by decide +kernel⟩,
   ⟨culm0 { rings := [(0, { ring0 with recs := [rec0] })] }, 0, 0, 5, 0, 1023, rec0, by decide +kernel, by decide +kernel⟩,
   ⟨culm0 {}, 0, 0, 5, 0, 1023, by decide +kernel, by decide +kernel⟩,
   ⟨culm0 {}, 0, 0, 5, 0, by decide +kernel⟩,
   ⟨culm0 {}, 0, 0, 5, 0, ⟨0, 0, false, false, 0⟩, by decide +kernel⟩⟩

theorem test_hyps_holdsTakeEffect_1 :
    (∃ (s : State) (p : Nat), (((s.part p).run.starting.filter fun h => !h.dead s.cc) ≠ [])) ∧
    (∃ (s : State) (p : Nat), (s.part p).run.starting ≠ [] ∧ (∀ h ∈ (s.part p).run.starting, h.dead s.cc = true)) ∧
    (∃ (s : State) (p : Nat), (s.part p).run.starting = []) ∧
    (∃ (s : State) (p : Nat), (s.part p).run.held = true ∧ (((s.part p).run.holds.filter fun h => h.began.isSome) ≠ []) ∧ (∀ h ∈ (s.part
      p).run.holds, h.began.isSome = true → h.dead s.cc = true) ∧ (s.part p).ctl.resume = [] ∧ ((s.part p).run.frame = none ∨ (s.part
      p).run.stepRun = true)) ∧
    (∃ (s : State) (p : Nat), ∃ n, (s.part p).run.held = true ∧ (((s.part p).run.holds.filter fun h => h.began.isSome) ≠ []) ∧ (∀ h ∈ (s.part
      p).run.holds, h.began.isSome = true → h.dead s.cc = true) ∧ (s.part p).ctl.resume = [n] ∧ s.host.accepted.contains n = true ∧ ((s.part
      p).run.frame = none ∨ (s.part p).run.stepRun = true)) :=
  ⟨⟨part { run := { holds := [⟨0, none, 5, none, none, false⟩], logical := 5, heldEnd := 9 } }, 0, by decide +kernel⟩,
   ⟨part { run := { holds := [⟨0, none, 5, some 0, none, false⟩], logical := 5 } }, 0, by decide +kernel, by decide +kernel⟩,
   ⟨mod 3, 0, by decide +kernel⟩,
   ⟨part { run := { holds := [⟨0, none, 5, some 0, some 0, false⟩], held := true } }, 0, by decide +kernel, by decide +kernel, by decide +kernel, by decide +kernel, by decide +kernel⟩,
   ⟨{ part { run := { holds := [⟨6, none, 5, some 0, some 0, false⟩], held := true }, ctl := { resume := [3] } } with host := { accepted := [3] } }, 0, 3, by decide +kernel, by decide +kernel, by decide +kernel, by decide +kernel, by decide +kernel, by decide +kernel⟩⟩

theorem test_hyps_holdsTakeEffect_2 :
    (∃ (s : State) (p : Nat), ∃ f g, (s.part p).run.held = true ∧ (((s.part p).run.holds.filter fun h => h.began.isSome) ≠ []) ∧ (∀ h ∈ (s.part
      p).run.holds, h.began.isSome = true → h.dead s.cc = true) ∧ (s.part p).run.frame = some f ∧ (s.part p).run.stepRun = false ∧ (s.part
      p).img.image = some g) ∧
    (∃ (s : State) (p : Nat), ((s.part p).run.held = false ∨ ∃ h ∈ (s.part p).run.holds, h.began.isSome = true ∧ h.dead s.cc = false)) ∧
    (∃ (s : State) (p b : Nat) (h : Hold), (s.part p).run.holds = [h] ∧ h.began = some b ∧ b + 4194304 ≤ s.cc ∧ h.kind ≤ 3 ∧ h.timedOut = false ∧
      h.dead (b + 4194304) = false) ∧
    (∃ (s : State) (p : Nat), (∀ h ∈ (s.part p).run.holds, 3 < h.kind ∨ h.timedOut = true ∨ h.began = none ∨ ∃ b, h.began = some b ∧ (s.cc < b +
      4194304 ∨ h.dead (b + 4194304) = true))) :=
  ⟨⟨part { run := { holds := [⟨2, none, 5, some 0, some 0, false⟩], held := true, frame := some frame0 }, img := { image := some img0 } }, 0, frame0, img0, by decide +kernel, by decide +kernel, by decide +kernel, by decide +kernel, by decide +kernel, rfl⟩,
   ⟨mod 3, 0, by decide +kernel⟩,
   ⟨{ part { run := { holds := [⟨3, none, 5, none, some 0, false⟩], held := true } } with cc := 4194304 }, 0, 0, ⟨3, none, 5, none, some 0, false⟩, by decide +kernel, by decide +kernel, by decide +kernel, by decide +kernel, by decide +kernel, by decide +kernel⟩,
   ⟨mod 3, 0, (fun _ h => nomatch h)⟩⟩

theorem test_hyps_restartFollows_1 :
    (∃ (s : State) (p : Nat), ∃ f, (((s.part p).run.holds.any fun h => h.kind == 7 && h.began.isSome) = true) ∧ (s.part p).st.live = true ∧ (s.part
      p).ck.replay = none ∧ (s.part p).ck.f1 = some f ∧ f.cause ≠ 0x23 ∧ (s.part p).ck.cls = none) ∧
    (∃ (s : State) (p : Nat), ∃ f1 f2 cls idx, (((s.part p).run.holds.any fun h => h.kind == 7 && h.began.isSome) = true) ∧ (s.part p).st.live = true
      ∧ (s.part p).ck.replay = none ∧ (s.part p).ck.cls = some (f1, cls, idx) ∧ (s.part p).ck.f1 = some f2 ∧ scheduleClass f1.cause = true ∧
      f1.step ≤ f2.step ∧ f1.same f2 = true) ∧
    (∃ (s : State) (p : Nat) (r : Replay) (f : FaultId), (((s.part p).run.holds.any fun h => h.kind == 7 && h.began.isSome) = true) ∧ (s.part
      p).ck.replay = some r ∧ (s.part p).ck.f1 = some f ∧ (s.part p).ck.cls = none) ∧
    (∃ (s : State) (p : Nat), (((s.part p).run.holds.any fun h => h.kind == 7 && h.began.isSome) = false)) ∧
    (∃ (s : State) (p : Nat) (okA okB : Bool) (fits : Ckpt → Bool → Bool) (pick : Option Ckpt), ∃ k g, (s.part p).ck.stage = 2 ∧ ((s.part p).st =
      .restarting ∨ (s.part p).st = .shadow) ∧ (s.part p).ck.leafBad = none ∧ (s.part p).twin.fromLead = false ∧ (fits = (fun k ok => k.valid &&
      ok && ((s.part p).img.onFallback || sub k.bir 6 138 == sub (s.bir p) 6 138))) ∧ pick = (if (s.part p).ck.newest then (if fits (s.part
      p).ck.slotB okB then some (s.part p).ck.slotB else if fits (s.part p).ck.slotA okA then some (s.part p).ck.slotA else none) else if fits
      (s.part p).ck.slotA okA then some (s.part p).ck.slotA else if fits (s.part p).ck.slotB okB then some (s.part p).ck.slotB else none) ∧ pick
      = some k ∧ (s.part p).img.image = some g ∧ ((s.part p).ctl.stop = [] ∨ (s.part p).st = .shadow) ∧ ((s.part p).twin.role = 0 ∨ s.twin.pair ≠
      2 ∨ (s.part p).st = .shadow)) ∧
    (∃ (s : State) (p : Nat) (okA okB : Bool) (fits : Ckpt → Bool → Bool) (pick : Option Ckpt), ∃ k g, (s.part p).ck.stage = 2 ∧ ((s.part p).st =
      .restarting ∨ (s.part p).st = .shadow) ∧ (s.part p).ck.leafBad = none ∧ (s.part p).twin.fromLead = false ∧ (fits = (fun k ok => k.valid &&
      ok && ((s.part p).img.onFallback || sub k.bir 6 138 == sub (s.bir p) 6 138))) ∧ pick = (if (s.part p).ck.newest then (if fits (s.part
      p).ck.slotB okB then some (s.part p).ck.slotB else if fits (s.part p).ck.slotA okA then some (s.part p).ck.slotA else none) else if fits
      (s.part p).ck.slotA okA then some (s.part p).ck.slotA else if fits (s.part p).ck.slotB okB then some (s.part p).ck.slotB else none) ∧ pick
      = some k ∧ (s.part p).img.image = some g ∧ (s.part p).ctl.stop ≠ [] ∧ (s.part p).st = .restarting) ∧
    (∃ (s : State) (p : Nat) (okA okB : Bool) (fits : Ckpt → Bool → Bool) (pick : Option Ckpt), ∃ k g, (s.part p).ck.stage = 2 ∧ ((s.part p).st =
      .restarting ∨ (s.part p).st = .shadow) ∧ (s.part p).ck.leafBad = none ∧ (s.part p).twin.fromLead = false ∧ (fits = (fun k ok => k.valid &&
      ok && ((s.part p).img.onFallback || sub k.bir 6 138 == sub (s.bir p) 6 138))) ∧ pick = (if (s.part p).ck.newest then (if fits (s.part
      p).ck.slotB okB then some (s.part p).ck.slotB else if fits (s.part p).ck.slotA okA then some (s.part p).ck.slotA else none) else if fits
      (s.part p).ck.slotA okA then some (s.part p).ck.slotA else if fits (s.part p).ck.slotB okB then some (s.part p).ck.slotB else none) ∧ pick
      = some k ∧ (s.part p).img.image = some g ∧ (s.part p).ctl.stop = [] ∧ (s.part p).st = .restarting ∧ (s.part p).twin.role ≠ 0 ∧ s.twin.pair
      = 2) :=
  ⟨⟨part { st := .running, run := { holds := [⟨7, none, 5, none, some 0, false⟩] }, ck := { f1 := some ⟨1, 0, 0, 0, 0, none⟩ } }, 0, ⟨1, 0, 0, 0, 0, none⟩, by decide +kernel, by decide +kernel, by decide +kernel, by decide +kernel, by decide +kernel, by decide +kernel⟩,
   ⟨part { st := .running, run := { holds := [⟨7, none, 5, none, some 0, false⟩] }, ck := { f1 := some ⟨1, 0, 0, 0, 0, none⟩, cls := some (⟨1, 0, 0, 0, 0, none⟩, 1, 2) } }, 0, ⟨1, 0, 0, 0, 0, none⟩, ⟨1, 0, 0, 0, 0, none⟩, 1, 2, by decide +kernel, by decide +kernel, by decide +kernel, by decide +kernel, by decide +kernel, by decide +kernel, by decide +kernel, by decide +kernel⟩,
   ⟨part { st := .loaded, run := { holds := [⟨7, none, 5, none, some 0, false⟩] }, ck := { f1 := some ⟨1, 0, 0, 0, 0, none⟩, replay := some replay0 } }, 0, replay0, ⟨1, 0, 0, 0, 0, none⟩, by decide +kernel, by decide +kernel, by decide +kernel, by decide +kernel⟩,
   ⟨mod 3, 0, by decide +kernel⟩,
   ⟨part { st := .restarting, img := { image := some img0, onFallback := true }, ck := { stage := 2, slotA := { valid := true } } }, 0, true, true, _, some { valid := true }, { valid := true }, img0, by decide +kernel, by decide +kernel, by decide +kernel, by decide +kernel, rfl, by decide +kernel, by decide +kernel, rfl, by decide +kernel, by decide +kernel⟩,
   ⟨part { st := .restarting, img := { image := some img0, onFallback := true }, ck := { stage := 2, slotA := { valid := true } }, ctl := { stop := [3] } }, 0, true, true, _, some { valid := true }, { valid := true }, img0, by decide +kernel, by decide +kernel, by decide +kernel, by decide +kernel, rfl, by decide +kernel, by decide +kernel, rfl, by decide +kernel, by decide +kernel⟩,
   ⟨pairSt { st := .restarting, img := { image := some img0, onFallback := true }, ck := { stage := 2, slotA := { valid := true } }, twin := { role := 1 } }, 0, true, true, _, some { valid := true }, { valid := true }, img0, by decide +kernel, by decide +kernel, by decide +kernel, by decide +kernel, rfl, by decide +kernel, by decide +kernel, rfl, by decide +kernel, by decide +kernel, by decide +kernel, by decide +kernel⟩⟩

theorem test_hyps_restartFollows_2 :
    (∃ (s : State) (p : Nat) (okA okB : Bool) (fits : Ckpt → Bool → Bool) (pick : Option Ckpt), (s.part p).ck.stage = 2 ∧ ((s.part p).st =
      .restarting ∨ (s.part p).st = .shadow) ∧ (s.part p).ck.leafBad = none ∧ (s.part p).twin.fromLead = false ∧ (fits = (fun k ok => k.valid &&
      ok && ((s.part p).img.onFallback || sub k.bir 6 138 == sub (s.bir p) 6 138))) ∧ pick = (if (s.part p).ck.newest then (if fits (s.part
      p).ck.slotB okB then some (s.part p).ck.slotB else if fits (s.part p).ck.slotA okA then some (s.part p).ck.slotA else none) else if fits
      (s.part p).ck.slotA okA then some (s.part p).ck.slotA else if fits (s.part p).ck.slotB okB then some (s.part p).ck.slotB else none) ∧ pick
      = none ∧ (s.part p).twin.role ≠ 0 ∧ s.twin.pair = 2) ∧
    (∃ (s : State) (p : Nat) (okA okB : Bool) (fits : Ckpt → Bool → Bool) (pick : Option Ckpt), (s.part p).ck.stage = 2 ∧ ((s.part p).st =
      .restarting ∨ (s.part p).st = .shadow) ∧ (s.part p).ck.leafBad = none ∧ (s.part p).twin.fromLead = false ∧ (fits = (fun k ok => k.valid &&
      ok && ((s.part p).img.onFallback || sub k.bir 6 138 == sub (s.bir p) 6 138))) ∧ pick = (if (s.part p).ck.newest then (if fits (s.part
      p).ck.slotB okB then some (s.part p).ck.slotB else if fits (s.part p).ck.slotA okA then some (s.part p).ck.slotA else none) else if fits
      (s.part p).ck.slotA okA then some (s.part p).ck.slotA else if fits (s.part p).ck.slotB okB then some (s.part p).ck.slotB else none) ∧ pick
      = none ∧ ((s.part p).twin.role = 0 ∨ s.twin.pair ≠ 2)) ∧
    (∃ (s : State) (p : Nat) (_okA _okB : Bool), (s.part p).ck.stage = 2 ∧ ((s.part p).st = .restarting ∨ (s.part p).st = .shadow) ∧ (s.part
      p).ck.leafBad.isSome = true ∧ (s.part p).twin.role ≠ 0 ∧ s.twin.pair = 2) ∧
    (∃ (s : State) (p : Nat) (_okA _okB : Bool), (s.part p).ck.stage = 2 ∧ ((s.part p).st = .restarting ∨ (s.part p).st = .shadow) ∧ (s.part
      p).ck.leafBad.isSome = true ∧ ((s.part p).twin.role = 0 ∨ s.twin.pair ≠ 2)) ∧
    (∃ (s : State) (p : Nat) (_okA _okB : Bool), (s.part p).ck.stage = 2 ∧ ((s.part p).st = .restarting ∨ (s.part p).st = .shadow) ∧ (s.part
      p).ck.leafBad = none ∧ (s.part p).twin.fromLead = true ∧ (s.part p).twin.rxCkpt.length < 512) ∧
    (∃ (s : State) (p : Nat) (_okA _okB : Bool), ∃ g, (s.part p).ck.stage = 2 ∧ ((s.part p).st = .restarting ∨ (s.part p).st = .shadow) ∧ (s.part
      p).ck.leafBad = none ∧ (s.part p).twin.fromLead = true ∧ 512 ≤ (s.part p).twin.rxCkpt.length ∧ (s.part p).img.image = some g) ∧
    (∃ (s : State) (p : Nat) (_okA _okB : Bool), ((s.part p).ck.stage ≠ 2 ∨ ((s.part p).st ≠ .restarting ∧ (s.part p).st ≠ .shadow))) :=
  ⟨⟨pairSt { st := .restarting, ck := { stage := 2 }, twin := { role := 1 } }, 0, true, true, _, none, by decide +kernel, by decide +kernel, by decide +kernel, by decide +kernel, rfl, by decide +kernel, by decide +kernel, by decide +kernel, by decide +kernel⟩,
   ⟨part { st := .restarting, ck := { stage := 2 } }, 0, true, true, _, none, by decide +kernel, by decide +kernel, by decide +kernel, by decide +kernel, rfl, by decide +kernel, by decide +kernel, by decide +kernel⟩,
   ⟨pairSt { st := .restarting, ck := { stage := 2, leafBad := some 0 }, twin := { role := 1 } }, 0, true, true, by decide +kernel, by decide +kernel, by decide +kernel, by decide +kernel, by decide +kernel⟩,
   ⟨part { st := .restarting, ck := { stage := 2, leafBad := some 0 } }, 0, true, true, by decide +kernel, by decide +kernel, by decide +kernel, by decide +kernel⟩,
   ⟨part { st := .restarting, ck := { stage := 2 }, twin := { fromLead := true } }, 0, true, true, by decide +kernel, by decide +kernel, by decide +kernel, by decide +kernel, by decide +kernel⟩,
   ⟨part { st := .restarting, img := { image := some img0 }, ck := { stage := 2 }, twin := { fromLead := true, rxCkpt := zeros 512 } }, 0, true, true, img0, by decide +kernel, by decide +kernel, by decide +kernel, by decide +kernel, by decide +kernel, rfl⟩,
   ⟨mod 3, 0, true, true, by decide +kernel⟩⟩

theorem test_hyps_restartFollows_3 :
    (∃ (s : State) (p : Nat) (j : JEntry) (rest : List JEntry) (g : Image), (s.part p).ck.stage = 3 ∧ ((s.part p).st = .restarting ∨ (s.part p).st =
      .shadow ∨ ∃ r, (s.part p).ck.replay = some r ∧ r.ended = false) ∧ (s.part p).ck.catchUp = j :: rest ∧ (s.part p).img.image = some g ∧
      (s.part p).run.frame = none ∧ (s.part p).run.held = false ∧ (s.part p).run.holds = []) ∧
    (∃ (s : State) (p : Nat), ((s.part p).ck.stage ≠ 3 ∨ (s.part p).ck.catchUp = [] ∨ (s.part p).run.frame.isSome = true ∨ (s.part p).run.held = true
      ∨ (s.part p).run.holds ≠ [])) ∧
    (∃ (s : State) (p : Nat), (s.part p).ck.stage = 3 ∧ ((s.part p).st = .restarting ∨ (s.part p).st = .shadow) ∧ (s.part p).ck.catchUp = [] ∧
      (s.part p).run.frame = none ∧ (s.part p).ck.replay = none) ∧
    (∃ (s : State) (p : Nat), (s.part p).ck.stage = 3 ∧ ((s.part p).st = .restarting ∨ (s.part p).st = .shadow) ∧ ((s.part p).ck.catchUp ≠ [] ∨
      (s.part p).run.frame.isSome = true)) ∧
    (∃ (s : State) (p : Nat), (s.part p).ck.stage = 3 ∧ ((s.part p).st = .restarting ∨ (s.part p).st = .shadow) ∧ (s.part p).ck.lastOverdue +
      150000000000 ≤ s.opTicks) ∧
    (∃ (s : State) (p : Nat), (s.part p).ck.stage = 3 ∧ ((s.part p).st = .restarting ∨ (s.part p).st = .shadow) ∧ s.opTicks < (s.part
      p).ck.lastOverdue + 150000000000) ∧
    (∃ (s : State) (p : Nat), (s.part p).ck.stage ≠ 3) :=
  ⟨⟨part { st := .restarting, img := { image := some img0 }, ck := { stage := 3, catchUp := [⟨0, 0, true, 0, 0, 0, 0, [], 0, []⟩] } }, 0, ⟨0, 0, true, 0, 0, 0, 0, [], 0, []⟩, [], img0, by decide +kernel, .inl rfl, by decide +kernel, rfl, by decide +kernel, by decide +kernel, by decide +kernel⟩,
   ⟨mod 3, 0, by decide +kernel⟩,
   ⟨part { st := .restarting, ck := { stage := 3 } }, 0, by decide +kernel, by decide +kernel, by decide +kernel, by decide +kernel, by decide +kernel⟩,
   ⟨part { st := .restarting, ck := { stage := 3, catchUp := [⟨0, 0, true, 0, 0, 0, 0, [], 0, []⟩] } }, 0, by decide +kernel, by decide +kernel, by decide +kernel⟩,
   ⟨{ part { st := .restarting, ck := { stage := 3 } } with opTicks := 150000000000 }, 0, by decide +kernel, by decide +kernel, by decide +kernel⟩,
   ⟨part { st := .restarting, ck := { stage := 3 } }, 0, by decide +kernel, by decide +kernel, by decide +kernel⟩,
   ⟨mod 3, 0, by decide +kernel⟩⟩

theorem test_hyps_checkpointsCommit_1 :
    (∃ (s : State) (p o : Nat) (l : List Nat) (g : Image), (s.part p).ck.copying = some (l, false) ∧ (s.part p).img.image = some g ∧ o = s.regionOff
      (s.part p) 1 ∧ memWf (s.part p).img.hbm = true ∧ memWf (s.part p).ck.copy.mut_ = true ∧ (∀ a, a < g.mutSize → a / s.stripeBytes ∉ l →
      memGet (s.part p).ck.copy.mut_ a = 0)) ∧
    (∃ (s : State) (p : Nat), (∀ l, (s.part p).ck.copying ≠ some (l, false))) ∧
    (∃ (s : State) (p : Nat) (l : List Nat), (s.part p).ck.copying = some (l, true) ∧ ((s.part p).run.frame.isSome = true ∨ (s.part p).ctl.ckpt = [])
      ∧ ((s.part p).run.frame.isSome = true ∨ (s.part p).ctl.stop = []) ∧ (s.part p).ck.slots = []) ∧
    (∃ (s : State) (p : Nat) (l : List Nat), ∃ n, (s.part p).ck.copying = some (l, true) ∧ ((s.part p).run.frame.isSome = true ∨ (s.part p).ctl.ckpt
      = []) ∧ ((s.part p).run.frame.isSome = true ∨ (s.part p).ctl.stop = []) ∧ (s.part p).ck.slots = [n] ∧ s.host.accepted.contains n = true) ∧
    (∃ (s : State) (p : Nat) (l : List Nat) (g : Image), (s.part p).ck.copying = some (l, true) ∧ (s.part p).run.frame = none ∧ (s.part p).img.image
      = some g ∧ (s.part p).ctl.ckpt ≠ [] ∧ (s.part p).ctl.stop = []) :=
  ⟨⟨part { ck := { copying := some ([0], false) }, img := { image := some img0 } }, 0, _, [0], img0, by decide +kernel, rfl, rfl, by decide +kernel, by decide +kernel, by decide +kernel⟩,
   ⟨mod 3, 0, (fun _ h => nomatch h)⟩,
   ⟨part { ck := { copying := some ([0], true) } }, 0, [0], by decide +kernel, by decide +kernel, by decide +kernel, by decide +kernel⟩,
   ⟨{ part { ck := { copying := some ([0], true), slots := [3] } } with host := { accepted := [3] } }, 0, [0], 3, by decide +kernel, by decide +kernel, by decide +kernel, by decide +kernel, by decide +kernel⟩,
   ⟨part { ck := { copying := some ([0], true) }, img := { image := some img0 }, ctl := { ckpt := [3] } }, 0, [0], img0, by decide +kernel, by decide +kernel, rfl, by decide +kernel, by decide +kernel⟩⟩

theorem test_hyps_checkpointsCommit_2 :
    (∃ (s : State) (p : Nat) (l : List Nat) (g : Image), (s.part p).ck.copying = some (l, true) ∧ (s.part p).run.frame = none ∧ (s.part p).img.image
      = some g ∧ (s.part p).ctl.ckpt = [] ∧ (s.part p).ctl.stop ≠ [] ∧ ((s.part p).st = .running ∨ (s.part p).st = .held) ∧ ((s.part p).ck.stage
      = 0 ∨ (s.part p).ck.stage = 4) ∧ (∀ h ∈ (s.part p).run.holds, h.kind ≠ 7)) ∧
    (∃ (s : State) (p : Nat), (∀ l, (s.part p).ck.copying ≠ some (l, true))) ∧
    (∃ (s : State) (p : Nat) (_bad : Bool) (g : Image) (waits : Bool), (s.part p).img.image = some g ∧
      waits = ((s.part p).ck.leaf == 0 && (match (s.part p).ck.leafAt with | some t => decide (s.opMs < t + 1800000) | none => false)) ∧ (waits =
      true ∨ g.constant = [])) ∧
    (∃ (s : State) (p : Nat) (bad : Bool) (g : Image) (waits : Bool), (s.part p).img.image = some g ∧
      waits = ((s.part p).ck.leaf == 0 && (match (s.part p).ck.leafAt with | some t => decide (s.opMs < t + 1800000) | none => false)) ∧ waits =
      false ∧ g.constant ≠ [] ∧ (bad = false ∨ (s.part p).st.live = false)) ∧
    (∃ (s : State) (p : Nat) (bad : Bool) (g : Image) (waits : Bool), (s.part p).img.image = some g ∧
      waits = ((s.part p).ck.leaf == 0 && (match (s.part p).ck.leafAt with | some t => decide (s.opMs < t + 1800000) | none => false)) ∧ waits =
      false ∧ g.constant ≠ [] ∧ bad = true ∧ (s.part p).st.live = true ∧ (∀ h ∈ (s.part p).run.holds, h.kind ≠ 7)) :=
  ⟨⟨part { st := .running, ck := { copying := some ([0], true) }, img := { image := some img0 }, ctl := { stop := [3] } }, 0, [0], img0, by decide +kernel, by decide +kernel, rfl, by decide +kernel, by decide +kernel, by decide +kernel, by decide +kernel, by decide +kernel⟩,
   ⟨mod 3, 0, (fun _ h => nomatch h)⟩,
   ⟨part { img := { image := some img0 } }, 0, true, img0, false, rfl, by decide +kernel, by decide +kernel⟩,
   ⟨part { st := .running, img := { image := some { img0 with constant := [1] } } }, 0, false, { img0 with constant := [1] }, false, rfl, by decide +kernel, by decide +kernel, by decide +kernel, by decide +kernel⟩,
   ⟨part { st := .running, img := { image := some { img0 with constant := [1] } } }, 0, true, { img0 with constant := [1] }, false, rfl, by decide +kernel, by decide +kernel, by decide +kernel, by decide +kernel, by decide +kernel, by decide +kernel⟩⟩

theorem test_hyps_hbmErrorsRefreshAndFailure_1 :
    (∃ (s : State) (p off i row : Nat), s.pcOf (s.part p) (off / 64 * 64) = some (i, row) ∧ s.refreshing i = false) ∧
    (∃ (s : State) (p off i row : Nat), s.pcOf (s.part p) (off / 64 * 64) = some (i, row) ∧ s.refreshing i = false ∧ (s.part
      p).img.hbmPoison.contains (off / 64) = false ∧ (s.pc i).buffered row = false ∧ ((s.pc i).usedBanks.contains (row / 2 ^ 18) = false ∨ (s.pc
      i).marked.contains row = false)) ∧
    (∃ (s : State) (p off i row : Nat), ∃ errs, s.pcOf (s.part p) (off / 64 * 64) = some (i, row) ∧ s.refreshing i = false ∧ (s.part
      p).img.hbmPoison.contains (off / 64) = false ∧ (s.pc i).buffered row = false ∧ ((s.pc i).usedBanks.contains (row / 2 ^ 18) = false ∨ (s.pc
      i).marked.contains row = false) ∧ 2 ≤ errs ∧ off < s.streamsOff (s.part p)) ∧
    (∃ (s : State) (p off i row : Nat), s.pcOf (s.part p) (off / 64 * 64) = some (i, row) ∧ s.refreshing i = false ∧ ((s.part
      p).img.hbmPoison.contains (off / 64) = true ∨ (s.pc i).buffered row = true) ∧ off < s.streamsOff (s.part p)) ∧
    (∃ (s : State) (p off i row _errs : Nat), s.pcOf (s.part p) (off / 64 * 64) = some (i, row) ∧ s.refreshing i = true ∧ off < s.streamsOff (s.part
      p)) ∧
    (∃ (s : State) (pc _errs : Nat) (_newer : Bool) (waits : Bool),
      waits = ((s.pc pc).scrubPos == 0 && (match (s.pc pc).scrubAt with | some t => decide (s.opMs < t + 86400000) | none => false)) ∧ pc / 32 <
      s.stacks ∧ ((s.pc pc).role = 0 ∨ (s.pc pc).role = 2) ∧ s.refreshing pc = false ∧ waits = false ∧ (((s.pc pc).queue.any fun r => r.part == 8
      && r.prio == 6) = false)) ∧
    (∃ (s : State) (pc _errs : Nat) (_newer : Bool) (waits : Bool), ∃ p u row,
      waits = ((s.pc pc).scrubPos == 0 && (match (s.pc pc).scrubAt with | some t => decide (s.opMs < t + 86400000) | none => false)) ∧ pc / 32 <
      s.stacks ∧ ((s.pc pc).role = 0 ∨ (s.pc pc).role = 2) ∧ s.refreshing pc = false ∧ waits = false ∧ (((s.pc pc).queue.any fun r => r.part == 8
      && r.prio == 6) = false) ∧ s.burstAt pc ((s.pc pc).scrubPos * 64) = some (p, false, u) ∧ s.pcOf (s.part p) (u * 64) = some (pc, row) ∧
      (s.part p).img.hbmPoison.contains u = false ∧ (s.pc pc).buffered row = false ∧ ((s.pc pc).usedBanks.contains (row / 2 ^ 18) = false ∨ (s.pc
      pc).marked.contains row = false)) ∧
    (∃ (s : State) (pc _errs : Nat) (_newer : Bool) (waits : Bool),
      waits = ((s.pc pc).scrubPos == 0 && (match (s.pc pc).scrubAt with | some t => decide (s.opMs < t + 86400000) | none => false)) ∧ (s.stacks
      ≤ pc / 32 ∨ (s.pc pc).role = 1 ∨ (s.pc pc).role = 3 ∨ s.refreshing pc = true ∨ waits = true ∨ ((s.pc pc).queue.any fun r => r.part == 8 &&
      r.prio == 6) = true)) :=
  ⟨⟨hbm0, 0, 0, 0, _, rfl, by decide +kernel⟩,
   ⟨hbm0, 0, 64, 0, _, rfl, by decide +kernel, by decide +kernel, by decide +kernel, by decide +kernel⟩,
   ⟨hbm0, 0, 64, 0, _, 2, rfl, by decide +kernel, by decide +kernel, by decide +kernel, by decide +kernel, by decide +kernel, by decide +kernel⟩,
   ⟨(hbm0.modPart 0 fun q => { q with img := { q.img with hbmPoison := [0] } }), 0, 0, 0, _, rfl, by decide +kernel, by decide +kernel, by decide +kernel⟩,
   ⟨{ hbm0 with hbm := { winUsed := [(0, true)] } }, 0, 0, 0, _, 0, rfl, by decide +kernel, by decide +kernel⟩,
   ⟨hbm0, 0, 0, true, _, rfl, by decide +kernel, by decide +kernel, by decide +kernel, by decide +kernel, by decide +kernel⟩,
   ⟨hbm0, 0, 0, true, _, 0, 0, _, rfl, by decide +kernel, by decide +kernel, by decide +kernel, by decide +kernel, by decide +kernel, by decide +kernel, rfl, by decide +kernel, by decide +kernel, by decide +kernel⟩,
   ⟨hbm0, 100000, 0, true, _, rfl, by decide +kernel⟩⟩

theorem test_hyps_hbmErrorsRefreshAndFailure_2 :
    (∃ (s : State) (pc row : Nat) (free : Bool), (free = (inRefresh (pc / 32) s.cc && (!(s.hbm.winUsed.getD (pc / 32) true) || (s.holders (s.pc
      pc).slice).any fun p => (s.part p).st == .restarting))) ∧ (s.pc pc).buffered row = true ∧ free = true) ∧
    (∃ (s : State) (pc row : Nat) (free : Bool), (free = (inRefresh (pc / 32) s.cc && (!(s.hbm.winUsed.getD (pc / 32) true) || (s.holders (s.pc
      pc).slice).any fun p => (s.part p).st == .restarting))) ∧ ((s.pc pc).buffered row = false ∨ free = false)) ∧
    (∃ (s : State) (k : Nat), k < s.stacks ∧ s.cc % 4875 = 150 * k) ∧
    (∃ (s : State) (k : Nat), (s.stacks ≤ k ∨ s.cc % 4875 ≠ 150 * k)) ∧
    (∃ (s : State) (k : Nat) (is : List Nat), (is = (s.slicePcs k).filter (fun i => k != 31 || (s.pc i).role == 1)) ∧ k ≤ 31 ∧ (∀ i ∈ is, (s.pc
      i).lastReq + Config.ccPerMs ≤ s.opTicks) ∧ (∀ p ∈ s.holders k, (s.part p).st.keepsAwake = false)) ∧
    (∃ (s : State) (k : Nat) (is : List Nat), (is = (s.slicePcs k).filter (fun i => k != 31 || (s.pc i).role == 1)) ∧ (31 < k ∨ (∃ i ∈ is, s.opTicks
      < (s.pc i).lastReq + Config.ccPerMs) ∨ ∃ p ∈ s.holders k, (s.part p).st.keepsAwake = true)) ∧
    (∃ (s : State) (pc : Nat) (ps : List Nat), (ps = (s.holders (s.pc pc).slice).filter (fun r => (s.part r).st.live)) ∧ (s.pc pc).role ≠ 1 ∧ (s.pc
      pc).role ≠ 3) ∧
    (∃ (s : State) (pc : Nat) (ps : List Nat), (ps = (s.holders (s.pc pc).slice).filter (fun r => (s.part r).st.live)) ∧ ((s.pc pc).role = 1 ∨ (s.pc
      pc).role = 3)) :=
  ⟨⟨{ mod 5 with hbm := { pcs := [(3, { role := 0, slice := 3, marked := [7] })], winUsed := [(0, false)] } }, 3, 7, true, by decide +kernel, by decide +kernel, by decide +kernel⟩,
   ⟨mod 5, 3, 7, false, by decide +kernel, by decide +kernel⟩,
   ⟨{ mod 5 with cc := 4650 }, 31, by decide +kernel, by decide +kernel⟩,
   ⟨mod 5, 31, by decide +kernel⟩,
   ⟨{ mod 5 with opTicks := Config.ccPerMs }, 0, _, rfl, by decide +kernel, by decide +kernel, by decide +kernel⟩,
   ⟨mod 5, 32, _, rfl, by decide +kernel⟩,
   ⟨hbm0, 0, _, rfl, by decide +kernel, by decide +kernel⟩,
   ⟨{ mod 5 with hbm := { pcs := [(3, { role := 3, slice := 31 })] } }, 3, _, rfl, by decide +kernel⟩⟩

theorem test_hyps_fieldFrames_1 :
    (∃ (s : State) (port _lanes : Nat), (s.port port).mode ≠ 0 ∧ s.board.laneRefBad = false) ∧
    (∃ (s : State) (port _lanes : Nat), ((s.port port).mode = 0 ∨ s.board.laneRefBad = true)) ∧
    (∃ (s : State) (port lanes : Nat), (s.port port).lanes &&& lanes ≠ 0) ∧
    (∃ (s : State) (port lanes : Nat), (s.port port).lanes &&& lanes = 0) ∧
    (∃ (s : State) (port sub : Nat) (sec : SecTag) (f : Bytes) (n : Nat), n = f.length + (if sec = .none then 0 else 32) ∧ ((s.port port).mode = 2 ∨
      (s.port port).mode = 3) ∧ (s.port port).isUp sub = true) ∧
    (∃ (s : State) (port sub : Nat) (sec : SecTag) (f : Bytes) (n : Nat), n = f.length + (if sec = .none then 0 else 32) ∧ (((s.port port).mode ≠ 2 ∧
      (s.port port).mode ≠ 3) ∨ (s.port port).isUp sub = false)) :=
  ⟨⟨portSt 1 [], 0, 0, by decide +kernel, by decide +kernel⟩,
   ⟨mod 3, 0, 0, by decide +kernel⟩,
   ⟨portSt 1 [], 0, 1, by decide +kernel⟩,
   ⟨portSt 1 [], 0, 16, by decide +kernel⟩,
   ⟨portSt 2 [], 0, 0, .none, [], _, rfl, by decide +kernel, by decide +kernel⟩,
   ⟨portSt 1 [], 0, 0, .none, [], _, rfl, by decide +kernel⟩⟩

theorem test_hyps_fieldFrames_2 :
    (∃ (s : State) (port sub msa : Nat) (_f : Bytes) (rx : Nat) (drop : Nat → Tbl Nat), rx = (if (s.port port).mode = 1 then satAdd (s.port port).rx
      1 else (s.port port).rx) ∧ (drop = (fun k => (s.port port).drop.put k (satAdd ((s.port port).drop.getD k 0) 1))) ∧ ((s.port port).isUp sub
      = false ∨ ((s.port port).mode ≠ 1 ∧ msa = 0 ∧ bit (fld ((s.port port).subCfg sub) 3 1) 0 = true))) ∧
    (∃ (s : State) (port sub msa : Nat) (f : Bytes) (rx : Nat) (drop : Nat → Tbl Nat), ∃ k, rx = (if (s.port port).mode = 1 then satAdd (s.port
      port).rx 1 else (s.port port).rx) ∧ (drop = (fun k => (s.port port).drop.put k (satAdd ((s.port port).drop.getD k 0) 1))) ∧ (s.port
      port).isUp sub = true ∧ ((s.port port).mode = 1 ∨ msa ≠ 0 ∨ bit (fld ((s.port port).subCfg sub) 3 1) 0 = false) ∧ haulmCheck f [1] = some
      k) ∧
    (∃ (s : State) (port sub msa : Nat) (f : Bytes) (rx : Nat) (drop : Nat → Tbl Nat), rx = (if (s.port port).mode = 1 then satAdd (s.port port).rx 1
      else (s.port port).rx) ∧ (drop = (fun k => (s.port port).drop.put k (satAdd ((s.port port).drop.getD k 0) 1))) ∧ (s.port port).isUp sub =
      true ∧ ((s.port port).mode = 1 ∨ msa ≠ 0 ∨ bit (fld ((s.port port).subCfg sub) 3 1) 0 = false) ∧ haulmCheck f [1] = none ∧ s.streamPoints
      port sub (fld f 8 4) = []) ∧
    (∃ (s : State) (port sub msa : Nat) (f : Bytes) (rx : Nat) (drop : Nat → Tbl Nat), ∃ q u, rx = (if (s.port port).mode = 1 then satAdd (s.port
      port).rx 1 else (s.port port).rx) ∧ (drop = (fun k => (s.port port).drop.put k (satAdd ((s.port port).drop.getD k 0) 1))) ∧ (s.port
      port).isUp sub = true ∧ ((s.port port).mode = 1 ∨ msa ≠ 0 ∨ bit (fld ((s.port port).subCfg sub) 3 1) 0 = false) ∧ haulmCheck f [1] = none ∧
      s.streamPoints port sub (fld f 8 4) ≠ [] ∧ (s.port port).last.get? (sub * 4294967296 + fld f 8 4) = some (q, u) ∧ (fld f 12 8 ≤ q ∨ timeOf
      (Sys2Proof.sub f 20 12) < u)) ∧
    (∃ (s : State) (port sub msa : Nat) (f : Bytes) (rx : Nat) (drop : Nat → Tbl Nat), rx = (if (s.port port).mode = 1 then satAdd (s.port port).rx 1
      else (s.port port).rx) ∧ (drop = (fun k => (s.port port).drop.put k (satAdd ((s.port port).drop.getD k 0) 1))) ∧ (s.port port).isUp sub =
      true ∧ ((s.port port).mode = 1 ∨ msa ≠ 0 ∨ bit (fld ((s.port port).subCfg sub) 3 1) 0 = false) ∧ haulmCheck f [1] = none ∧ s.streamPoints
      port sub (fld f 8 4) ≠ [] ∧ (∀ q u, (s.port port).last.get? (sub * 4294967296 + fld f 8 4) = some (q, u) → q < fld f 12 8 ∧ u ≤ timeOf
      (Sys2Proof.sub f 20 12))) ∧
    (∃ (s : State) (port sub : Nat) (target _source cfg : Bytes), cfg = (s.port port).subCfg sub ∧ (target = Sys2Proof.sub cfg 16 16 ∨ target =
      Sys2Proof.sub cfg 32 16) ∧ ((s.port port).mode = 2 ∨ (s.port port).mode = 3) ∧ s.inWindow port = false ∧ bit (fld cfg 3 1) 0 = false ∧
      (s.port port).isUp sub = true) :=
  ⟨⟨mod 3, 0, 0, 0, [], _, _, rfl, rfl, by decide +kernel⟩,
   ⟨portSt 1 [], 0, 0, 0, [], _, _, 0, rfl, rfl, by decide +kernel, by decide +kernel, by decide +kernel⟩,
   ⟨portSt 1 [], 0, 0, 0, haulm0, _, _, rfl, rfl, by decide +kernel, by decide +kernel, by decide +kernel, by decide +kernel⟩,
   ⟨{ portSt 1 [(9, point0)] with field := { ports := [(0, { mode := 1, lanes := 15, last := [(5, (1, 0))] })], points := [(9, point0)] } }, 0, 0, 0, haulm0, _, _, 1, 0, rfl, rfl, by decide +kernel, by decide +kernel, by decide +kernel, by decide +kernel, by decide +kernel, by decide +kernel⟩,
   ⟨portSt 1 [(9, point0)], 0, 0, 0, haulm0, _, _, rfl, rfl, by decide +kernel, by decide +kernel, by decide +kernel, by decide +kernel, (fun _ _ h => nomatch h)⟩,
   ⟨portSt 2 [], 0, 0, zeros 16, [], _, rfl, by decide +kernel, by decide +kernel, by decide +kernel, by decide +kernel, by decide +kernel⟩⟩

theorem test_hyps_fieldFrames_3 :
    (∃ (s : State) (port sub : Nat) (target _source cfg : Bytes), ∃ k a an, cfg = (s.port port).subCfg sub ∧ (target = Sys2Proof.sub cfg 16 16 ∨
      target = Sys2Proof.sub cfg 32 16) ∧ ((s.port port).mode = 2 ∨ (s.port port).mode = 3) ∧ s.inWindow port = false ∧ bit (fld cfg 3 1) 0 =
      true ∧ (s.port port).isUp sub = true ∧ k ≠ 0 ∧ s.field.assocs.get? k = some a ∧ ((s.field.assocs.find? fun y => y.2.transmit && y.2.port ==
      port && y.2.sub == sub) = some (k, a)) ∧ a.an = some an ∧ a.pns.getD an 1 < 2 ^ 64 - 1) ∧
    (∃ (s : State) (port sub : Nat) (target _source cfg : Bytes), cfg = (s.port port).subCfg sub ∧ (target = Sys2Proof.sub cfg 16 16 ∨ target =
      Sys2Proof.sub cfg 32 16) ∧ ((s.port port).mode = 2 ∨ (s.port port).mode = 3) ∧ s.inWindow port = false ∧ ((s.port port).isUp sub = false ∨
      (bit (fld cfg 3 1) 0 = true ∧ ∀ y ∈ s.field.assocs, ¬(y.2.transmit = true ∧ y.2.port = port ∧ y.2.sub = sub)))) ∧
    (∃ (s : State) (port sub : Nat) (target _source cfg : Bytes), cfg = (s.port port).subCfg sub ∧ ((target ≠ Sys2Proof.sub cfg 16 16 ∧ target ≠
      Sys2Proof.sub cfg 32 16) ∨ ((s.port port).mode ≠ 2 ∧ (s.port port).mode ≠ 3) ∨ s.inWindow port = true)) ∧
    (∃ (s : State) (v _smp _conf _syn : Nat) (_values : List (Nat × Nat)) (_tr : Option Track), (s.field.subs.get? v = none ∨ ∃ sb, s.field.subs.get?
      v = some sb ∧ (bit (fld sb.raw 1 1) 0 = false ∨ ((s.port (fld sb.raw 26 1 % 8)).mode ≠ 2 ∧ (s.port (fld sb.raw 26 1 % 8)).mode ≠ 3) ∨
      (s.port (fld sb.raw 26 1 % 8)).isUp (fld sb.raw 26 1 / 8 % 4) = false))) ∧
    (∃ (s : State) (v smp _conf syn port now : Nat) (_values : List (Nat × Nat)) (sb : SvSub) (pts : List (Nat × Point)), s.field.subs.get? v = some
      sb ∧ bit (fld sb.raw 1 1) 0 = true ∧ port = fld sb.raw 26 1 % 8 ∧ ((s.port port).mode = 2 ∨ (s.port port).mode = 3) ∧ (s.port port).isUp
      (fld sb.raw 26 1 / 8 % 4) = true ∧ (pts = (s.field.points.filter fun y => y.2.owned && y.2.valid? && !y.2.output && y.2.src == 1 &&
      y.2.stream == v)) ∧ now = svStamp sb.raw s.now smp syn) ∧
    (∃ (s : State) (v smp _conf syn port now : Nat) (_values : List (Nat × Nat)) (sb : SvSub) (pts : List (Nat × Point)), s.field.subs.get? v = some
      sb ∧ bit (fld sb.raw 1 1) 0 = true ∧ port = fld sb.raw 26 1 % 8 ∧ ((s.port port).mode = 2 ∨ (s.port port).mode = 3) ∧ (s.port port).isUp
      (fld sb.raw 26 1 / 8 % 4) = true ∧ (pts = (s.field.points.filter fun y => y.2.owned && y.2.valid? && !y.2.output && y.2.src == 1 &&
      y.2.stream == v)) ∧ now = svStamp sb.raw s.now smp syn) :=
  ⟨⟨{ mod 3 with field := { ports := [(0, { mode := 2, lanes := 15, cfg := [(0, [0, 0, 0, 1] ++ zeros 60)] })], assocs := [(1, { assoc0 with an := some 0 })] } }, 0, 0, zeros 16, [], _, 1, { assoc0 with an := some 0 }, 0, rfl, by decide +kernel, by decide +kernel, by decide +kernel, by decide +kernel, by decide +kernel, by decide +kernel, by decide +kernel, by decide +kernel, by decide +kernel, by decide +kernel⟩,
   ⟨{ mod 3 with field := { ports := [(0, { mode := 2 })] } }, 0, 0, zeros 16, [], _, rfl, by decide +kernel, by decide +kernel, by decide +kernel, by decide +kernel⟩,
   ⟨mod 3, 0, 0, [1], [], _, rfl, by decide +kernel⟩,
   ⟨mod 3, 0, 0, 0, 0, [], none, .inl rfl⟩,
   ⟨{ svSt with field := { svSt.field with ports := [(0, { mode := 2, lanes := 15 })] } }, 0, 0, 0, 0, _, _, [], { raw := [0, 1] ++ zeros 30 }, _, by decide +kernel, by decide +kernel, rfl, by decide +kernel, by decide +kernel, rfl, rfl⟩,
   ⟨{ svSt with field := { svSt.field with ports := [(0, { mode := 2, lanes := 15 })] } }, 0, 0, 0, 0, _, _, [], { raw := [0, 1] ++ zeros 30 }, _, by decide +kernel, by decide +kernel, rfl, by decide +kernel, by decide +kernel, rfl, rfl⟩⟩

theorem test_hyps_measurementEvents_1 :
    (∃ (s : State) (_l : List (Nat × Int × Track)), s.time.runs = true) ∧
    (∃ (s : State) (_l : List (Nat × Int × Track)), s.time.runs = false) ∧
    (∃ (s : State) (v : Nat), v < 64 ∧ (s.awn (64 + v)).state = 2) ∧
    (∃ (s : State) (v : Nat), (64 ≤ v ∨ (s.awn (64 + v)).state ≠ 2)) ∧
    (∃ (s : State) (lane _vmin _hmin : Nat), s.alive = true ∧ lane < 48) :=
  ⟨⟨{ mod 3 with time := { runs := true } }, [], by decide +kernel⟩,
   ⟨mod 3, [], by decide +kernel⟩,
   ⟨{ mod 3 with meas := { awn := [(127, { state := 2 })] } }, 63, by decide +kernel, by decide +kernel⟩,
   ⟨mod 3, 64, by decide +kernel⟩,
   ⟨mod 3, 47, 0, 0, by decide +kernel, by decide +kernel⟩⟩

theorem test_hyps_measurementEvents_2 :
    (∃ (s : State) (lane _vmin _hmin : Nat), (s.alive = false ∨ 48 ≤ lane)) ∧
    (∃ (s : State) (lane : Nat) (lost : Bool), s.alive = true ∧ lane < 48 ∧ s.disabled 4 lane = false ∧ (lost = true ∨ ((s.lane lane).low = true ∧
      (s.lane lane).lowSince + 3600000 ≤ s.opMs)) ∧ s.charged 4 lane < 2) ∧
    (∃ (s : State) (lane : Nat) (lost : Bool), s.alive = true ∧ lane < 48 ∧ s.disabled 4 lane = false ∧ (lost = true ∨ ((s.lane lane).low = true ∧
      (s.lane lane).lowSince + 3600000 ≤ s.opMs)) ∧ 2 ≤ s.charged 4 lane ∧ s.units.recs.length < 512) ∧
    (∃ (s : State) (lane : Nat) (lost : Bool), (s.alive = false ∨ 48 ≤ lane ∨ s.disabled 4 lane = true ∨ (lost = false ∧ ((s.lane lane).low = false ∨
      s.opMs < (s.lane lane).lowSince + 3600000)))) ∧
    (∃ (s : State) (u : Nat) (x : Estimate), s.serves = true ∧ unitValid 6 u = true ∧ (s.awn u).est = some x) :=
  ⟨⟨mod 3, 48, 0, 0, by decide +kernel⟩,
   ⟨mod 3, 47, true, by decide +kernel, by decide +kernel, by decide +kernel, by decide +kernel, by decide +kernel⟩,
   ⟨{ mod 3 with units := { charges := [(4, 47, 0), (4, 47, 0)] } }, 47, true, by decide +kernel, by decide +kernel, by decide +kernel, by decide +kernel, by decide +kernel, by decide +kernel⟩,
   ⟨mod 3, 48, true, by decide +kernel⟩,
   ⟨linked { mod 3 with meas := { awn := [(11, { est := some ⟨0, 0, 0, false, []⟩ })] } }, 11, ⟨0, 0, 0, false, []⟩, by decide +kernel, by decide +kernel, by decide +kernel⟩⟩

theorem test_hyps_stookAndItsCommands_1 :
    (∃ (s : State), s.stook.ingress = []) ∧
    (∃ (s : State) (r r1 : Rec) (rest : List Rec), s.stook.ingress = r :: rest ∧ r1 =
      { r with acc := s.stook.next, merged := s.stook.frozen.isSome }) ∧
    (∃ (s : State), s.stook.toSum = []) ∧
    (∃ (s : State) (r : Rec) (rest : List Rec), s.stook.toSum = r :: rest ∧ s.otp.sumFull = true) ∧
    (∃ (s : State) (r : Rec) (rest : List Rec), s.stook.toSum = r :: rest ∧ s.otp.sumFull = false ∧ s.otp.summary.length < 512) ∧
    (∃ (s : State) (f : Nat), s.stook.frozen = some f ∧ f + 150000000000 ≤ s.opTicks) ∧
    (∃ (s : State) (f : Nat), s.stook.frozen = some f ∧ s.opTicks < f + 150000000000) ∧
    (∃ (s : State), s.stook.frozen = none) :=
  ⟨⟨mod 3, by decide +kernel⟩,
   ⟨{ mod 3 with stook := { ingress := [rec1] } }, rec1, _, [], by decide +kernel, rfl⟩,
   ⟨mod 3, by decide +kernel⟩,
   ⟨{ mod 3 with stook := { toSum := [rec1] }, otp := { sumFull := true } }, rec1, [], by decide +kernel, by decide +kernel⟩,
   ⟨{ mod 3 with stook := { toSum := [rec1] } }, rec1, [], by decide +kernel, by decide +kernel, by decide +kernel⟩,
   ⟨{ mod 3 with stook := { frozen := some 0 }, opTicks := 150000000000 }, 0, by decide +kernel, by decide +kernel⟩,
   ⟨{ mod 3 with stook := { frozen := some 1 }, opTicks := 150000000000 }, 1, by decide +kernel, by decide +kernel⟩,
   ⟨mod 3, by decide +kernel⟩⟩

theorem test_hyps_stookAndItsCommands_2 :
    (∃ (s : State) (n : Nat), s.calls n 0x0501 locked4 false anyForm ∧ s.stook.frozen = none) ∧
    (∃ (s : State) (n : Nat), s.calls n 0x0501 locked4 false anyForm ∧ s.stook.frozen.isSome = true) ∧
    (∃ (s : State) (n : Nat), s.calls n 0x0502 locked4 false anyForm ∧ s.stook.frozen = none) ∧
    (∃ (s : State) (n : Nat), ∃ (f first want sev off : Nat) (b : Bytes), s.calls n 0x0502 locked4 false anyForm ∧ s.stook.frozen = some f ∧ b =
      s.payload (s.slot n) ∧ fld b 0 4 = first ∧ fld b 4 4 = want ∧ fld b 8 1 = sev ∧ fld b 16 8 = off ∧ (payOk b 24 [(9, 7)] = false ∨ 7 < sev ∨
      (off ≠ 0 ∧ s.outputOk off (32 * want) = false))) ∧
    (∃ (s : State) (n : Nat), ∃ (f first want sev off : Nat) (b : Bytes), s.calls n 0x0502 locked4 false anyForm ∧ s.stook.frozen = some f ∧ b =
      s.payload (s.slot n) ∧ fld b 0 4 = first ∧ fld b 4 4 = want ∧ fld b 8 1 = sev ∧ fld b 16 8 = off ∧ payOk b 24 [(9, 7)] = true ∧ sev ≤ 7 ∧
      (off = 0 ∨ s.outputOk off (32 * want) = true)) ∧
    (∃ (s : State) (n : Nat), s.calls n 0x0503 locked4 false anyForm ∧ s.stook.frozen = none) ∧
    (∃ (s : State) (n : Nat), s.calls n 0x0503 locked4 false anyForm ∧ s.stook.frozen.isSome = true) :=
  ⟨⟨mailed 2 0x0501 [] (mod 2), 0, mailed_calls (by decide +kernel), by decide +kernel⟩,
   ⟨mailed 2 0x0501 [] { mod 2 with stook := { frozen := some 0 } }, 0, mailed_calls (by decide +kernel), by decide +kernel⟩,
   ⟨mailed 2 0x0502 [] (mod 2), 0, mailed_calls (by decide +kernel), by decide +kernel⟩,
   ⟨mailed 2 0x0502 (zeros 8 ++ [8] ++ zeros 15) { mod 2 with stook := { frozen := some 0 } }, 0, 0, 0, 0, 8, 0, _, mailed_calls (by decide +kernel), by decide +kernel, rfl, by decide +kernel, by decide +kernel, by decide +kernel, by decide +kernel, by decide +kernel⟩,
   ⟨mailed 2 0x0502 (zeros 8 ++ [7] ++ zeros 15) { mod 2 with stook := { frozen := some 0 } }, 0, 0, 0, 0, 7, 0, _, mailed_calls (by decide +kernel), by decide +kernel, rfl, by decide +kernel, by decide +kernel, by decide +kernel, by decide +kernel, by decide +kernel, by decide +kernel, by decide +kernel⟩,
   ⟨mailed 2 0x0503 [] (mod 2), 0, mailed_calls (by decide +kernel), by decide +kernel⟩,
   ⟨mailed 2 0x0503 [] { mod 2 with stook := { frozen := some 0 } }, 0, mailed_calls (by decide +kernel), by decide +kernel⟩⟩

theorem test_hyps_hostLinkEvents_1 :
    (∃ (_s : State) (i : Instr), i ∈ [.functionLevelReset, .hotReset, .hostLinkDown, .perstAssert]) ∧
    (∃ (s : State), s.glumeRuns = true ∧ s.board.hostRefBad = false ∧ s.host.link = false) ∧
    (∃ (s : State), (s.glumeRuns = false ∨ s.board.hostRefBad = true ∨ s.host.link = true)) ∧
    (∃ (s : State), s.host.link = true) ∧
    (∃ (s : State), s.host.link = false) ∧
    (∃ (s : State) (off n : Nat), s.host.link = true ∧ s.glumeRuns = true ∧ n ≠ 0 ∧ off % 64 + n ≤ 64 ∧ off / gib8 < 8 ∧ s.winOk off n = false) :=
  ⟨⟨mod 3, .hotReset, .tail _ (.head _)⟩,
   ⟨bootAt 5, by decide +kernel, by decide +kernel, by decide +kernel⟩,
   ⟨mod 0, by decide +kernel⟩,
   ⟨linked (mod 3), by decide +kernel⟩,
   ⟨mod 3, by decide +kernel⟩,
   ⟨linked (mod 3), 60, 4, by decide +kernel, by decide +kernel, by decide +kernel, by decide +kernel, by decide +kernel, by decide +kernel⟩⟩

theorem test_hyps_hostLinkEvents_2 :
    (∃ (s : State) (off n : Nat), ∃ (d : Bytes), s.host.link = true ∧ s.glumeRuns = true ∧ n ≠ 0 ∧ off % 64 + n ≤ 64 ∧ off / gib8 < 8 ∧ s.winOk off n
      = false ∧ d.length = n) ∧
    (∃ (s : State) (off n : Nat), s.host.link = true ∧ s.glumeRuns = true ∧ n ≠ 0 ∧ off % 64 + n ≤ 64 ∧ off / gib8 < 8 ∧ s.winOk off n = true) ∧
    (∃ (s : State) (off n : Nat), ∃ (d : Bytes), s.host.link = true ∧ s.glumeRuns = true ∧ n ≠ 0 ∧ off % 64 + n ≤ 64 ∧ off / gib8 < 8 ∧ s.winOk off n
      = true ∧ d.length = n) ∧
    (∃ (s : State) (off n : Nat) (w : Option Bytes), (s.host.link = false ∨ s.glumeRuns = false ∨ n = 0 ∨ 64 < off % 64 + n ∨ 8 ≤ off / gib8 ∨ ∃ d, w
      = some d ∧ d.length ≠ n)) ∧
    (∃ (s : State) (off width : Nat) (wr : Bool), s.answers = true ∧ width ≤ 64 ∧ barAccess wr off width = false) ∧
    (∃ (s : State) (off width : Nat) (wr : Bool), (s.answers = false ∨ 64 < width ∨ barAccess wr off width = true)) :=
  ⟨⟨linked (mod 3), 60, 4, zeros 4, by decide +kernel, by decide +kernel, by decide +kernel, by decide +kernel, by decide +kernel, by decide +kernel, by decide +kernel⟩,
   ⟨linked (part { res := { created := true } }), 8589934528, 64, by decide +kernel, by decide +kernel, by decide +kernel, by decide +kernel, by decide +kernel, by decide +kernel⟩,
   ⟨linked (part { res := { created := true } }), 8589934528, 64, zeros 64, by decide +kernel, by decide +kernel, by decide +kernel, by decide +kernel, by decide +kernel, by decide +kernel, by decide +kernel⟩,
   ⟨mod 3, 0, 0, none, .inl rfl⟩,
   ⟨linked (mod 3), 2, 4, true, by decide +kernel, by decide +kernel, by decide +kernel⟩,
   ⟨linked (mod 3), 4, 4, true, by decide +kernel⟩⟩

theorem test_hyps_registerWrites_1 :
    (∃ (s : State) (off width _v : Nat), (s.answers = false ∨ barAccess true off width = false ∨ (0x10000 ≤ off ∧ off < 0x50000))) ∧
    (∃ (_s : State) (off _v : Nat), off % 8 = 0) ∧
    (∃ (s : State) (v : Nat), s.answers = true ∧ v < 4294967296) ∧
    (∃ (s : State) (v : Nat), s.answers = true ∧ v < 4294967296 ∧ s.ctl.bootErr = 0) ∧
    (∃ (s : State) (v : Nat), ∃ w, s.answers = true ∧ v < 4294967296 ∧ s.ctl.bootErr = 0 ∧ w < 32) ∧
    (∃ (s : State) (c r v : Nat), s.answers = true ∧ s.ctl.bootErr = 0 ∧ v < 4294967296 ∧ c < 576 ∧ s.host.uclass = 1 ∧ s.host.uindex = c ∧ r ∈
      [0x160, 0x164, 0x168] ∧ s.debugOn = true) ∧
    (∃ (s : State) (c r v : Nat), s.answers = true ∧ s.ctl.bootErr = 0 ∧ v < 4294967296 ∧ c < 576 ∧ s.host.uclass = 1 ∧ s.host.uindex = c ∧ r ∈
      [0x160, 0x164, 0x168] ∧ s.debugOn = false) ∧
    (∃ (s : State) (u v : Nat), s.answers = true ∧ s.ctl.bootErr = 0 ∧ v < 4294967296 ∧ s.host.uindex = u ∧ u < 48 ∧ s.host.uclass = 4) :=
  ⟨⟨mod 3, 0x400, 4, 0, by decide +kernel⟩,
   ⟨mod 3, 8, 0, by decide +kernel⟩,
   ⟨linked (mod 3), 4294967295, by decide +kernel, by decide +kernel⟩,
   ⟨linked (mod 3), 4294967295, by decide +kernel, by decide +kernel, by decide +kernel⟩,
   ⟨linked (mod 3), 4294967295, 31, by decide +kernel, by decide +kernel, by decide +kernel, by decide +kernel⟩,
   ⟨linked { mod 3 with sec := { unlocked := some 5 }, host := { uclass := 1, uindex := 575 } }, 575, 0x164, 1, by decide +kernel, by decide +kernel, by decide +kernel, by decide +kernel, by decide +kernel, by decide +kernel, by decide +kernel, by decide +kernel⟩,
   ⟨linked { mod 3 with host := { uclass := 1, uindex := 575 } }, 575, 0x168, 1, by decide +kernel, by decide +kernel, by decide +kernel, by decide +kernel, by decide +kernel, by decide +kernel, by decide +kernel, by decide +kernel⟩,
   ⟨linked { mod 3 with host := { uclass := 4, uindex := 47 } }, 47, 1, by decide +kernel, by decide +kernel, by decide +kernel, by decide +kernel, by decide +kernel, by decide +kernel⟩⟩

theorem test_hyps_registerWrites_2 :
    (∃ (s : State) (u v : Nat), s.answers = true ∧ s.ctl.bootErr = 0 ∧ v < 4294967296 ∧ s.host.uindex = u ∧ u < 8 ∧ s.host.uclass = 5) ∧
    (∃ (s : State) (u v : Nat), s.answers = true ∧ s.ctl.bootErr = 0 ∧ v < 4294967296 ∧ s.host.uindex = u ∧ unitValid 6 u = true ∧ s.host.uclass = 6
      ∧ (∀ p, p < 8 → (s.part p).st ≠ .running ∧ (s.part p).st ≠ .held)) ∧
    (∃ (s : State) (u v : Nat), ∃ p, s.answers = true ∧ s.ctl.bootErr = 0 ∧ v < 4294967296 ∧ s.host.uindex = u ∧ unitValid 6 u = true ∧ s.host.uclass
      = 6 ∧ p < 8 ∧ ((s.part p).st = .running ∨ (s.part p).st = .held)) ∧
    (∃ (s : State) (u v : Nat), s.answers = true ∧ s.ctl.bootErr = 0 ∧ v < 4294967296 ∧ s.host.uindex = u ∧ unitValid 6 u = true ∧ s.host.uclass = 6) ∧
    (∃ (s : State) (u v : Nat), ∃ (live : Bool), s.answers = true ∧ s.ctl.bootErr = 0 ∧ v < 4294967296 ∧ s.host.uindex = u ∧ u < 8 ∧ s.host.uclass =
      8 ∧ live = ((s.part u).st == .running || (s.part u).st == .held)) ∧
    (∃ (s : State) (u v : Nat), ∃ (live : Bool), s.answers = true ∧ s.ctl.bootErr = 0 ∧ v < 4294967296 ∧ s.host.uindex = u ∧ u < 8 ∧ s.host.uclass =
      8 ∧ live = ((s.part u).st == .running || (s.part u).st == .held) ∧ s.debugOn = true) ∧
    (∃ (s : State) (u v : Nat), ∃ (live : Bool), s.answers = true ∧ s.ctl.bootErr = 0 ∧ v < 4294967296 ∧ s.host.uindex = u ∧ u < 8 ∧ s.host.uclass =
      8 ∧ live = ((s.part u).st == .running || (s.part u).st == .held) ∧ s.debugOn = false) ∧
    (∃ (s : State) (_v : Nat), s.serves = false) :=
  ⟨⟨linked { mod 3 with host := { uclass := 5, uindex := 7 } }, 7, 1, by decide +kernel, by decide +kernel, by decide +kernel, by decide +kernel, by decide +kernel, by decide +kernel⟩,
   ⟨linked { mod 3 with host := { uclass := 6, uindex := 11 } }, 11, 1, by decide +kernel, by decide +kernel, by decide +kernel, by decide +kernel, by decide +kernel, by decide +kernel, by decide +kernel⟩,
   ⟨linked { part { st := .held } with host := { uclass := 6, uindex := 11 } }, 11, 1, 0, by decide +kernel, by decide +kernel, by decide +kernel, by decide +kernel, by decide +kernel, by decide +kernel, by decide +kernel, by decide +kernel⟩,
   ⟨linked { mod 3 with host := { uclass := 6, uindex := 127 } }, 127, 4, by decide +kernel, by decide +kernel, by decide +kernel, by decide +kernel, by decide +kernel, by decide +kernel⟩,
   ⟨linked { mod 3 with host := { uclass := 8, uindex := 7 } }, 7, 4, false, by decide +kernel, by decide +kernel, by decide +kernel, by decide +kernel, by decide +kernel, by decide +kernel, by decide +kernel⟩,
   ⟨linked { mod 3 with sec := { unlocked := some 5 }, host := { uclass := 8, uindex := 7 } }, 7, 4, false, by decide +kernel, by decide +kernel, by decide +kernel, by decide +kernel, by decide +kernel, by decide +kernel, by decide +kernel, by decide +kernel⟩,
   ⟨linked { part { st := .running } with host := { uclass := 8, uindex := 0 } }, 0, 4, true, by decide +kernel, by decide +kernel, by decide +kernel, by decide +kernel, by decide +kernel, by decide +kernel, by decide +kernel, by decide +kernel⟩,
   ⟨mod 1, 0, by decide +kernel⟩⟩

theorem test_hyps_watcherAndRestart_1 :
    (∃ (s : State) (n off : Nat) (d : Bytes), s.serves = true ∧ n < 1024 ∧ off + d.length ≤ 256 ∧ barAccess true (0x10000 + 256 * n + off) d.length =
      true ∧ slotOwn (s.slot n) = true) ∧
    (∃ (s : State) (n off : Nat) (d : Bytes), ∃ (b : Bytes), s.serves = true ∧ n < 1024 ∧ off + d.length ≤ 256 ∧ barAccess true (0x10000 + 256 * n +
      off) d.length = true ∧ slotOwn (s.slot n) = false ∧ b = (s.slot n).take off ++ d ++ (s.slot n).drop (off + d.length)) ∧
    (∃ (s : State) (n off : Nat) (d : Bytes), (s.serves = false ∨ 1024 ≤ n ∨ 256 < off + d.length ∨ barAccess true (0x10000 + 256 * n + off) d.length
      = false)) ∧
    (∃ (s : State) (v : Nat), v ∈ s.host.vecWait ∧ (∀ u, s.host.vecLast.get? v = some u → u + s.host.holdoff * 2500 ≤ s.opTicks) ∧ s.host.cmplIrq =
      true ∧ s.host.link = true) ∧
    (∃ (s : State) (v : Nat), (v ∉ s.host.vecWait ∨ (∃ u, s.host.vecLast.get? v = some u ∧ s.opTicks < u + s.host.holdoff * 2500) ∨ s.host.cmplIrq =
      false ∨ s.host.link = false)) :=
  ⟨⟨linked { mod 3 with host := { slots := [(1023, 1 :: zeros 255)] } }, 1023, 192, zeros 64, by decide +kernel, by decide +kernel, by decide +kernel, by decide +kernel, by decide +kernel⟩,
   ⟨linked (mod 3), 1023, 255, [9], _, by decide +kernel, by decide +kernel, by decide +kernel, by decide +kernel, by decide +kernel, rfl⟩,
   ⟨linked (mod 3), 1023, 255, zeros 2, by decide +kernel⟩,
   ⟨{ mod 3 with host := { link := true, cmplIrq := true, vecWait := [63], holdoff := 4 }, opTicks := 10000 }, 63, by decide +kernel, (fun _ h => nomatch h), by decide +kernel, by decide +kernel⟩,
   ⟨mod 3, 63, .inl (by decide +kernel)⟩⟩

theorem test_hyps_watcherAndRestart_2 :
    (∃ (s : State), s.host.ready = true) ∧
    (∃ (s : State), s.host.ready = false) ∧
    (∃ (s : State), s.host.restart = false) ∧
    (∃ (s : State) (kept : Nat → Bool), s.host.restart = true ∧ (kept = (fun m => slotCode (s.slot m) == 0x0107 || slotCode (s.slot m) == 0x0109 ||
      s.parts.any fun x => x.2.ctl.resume.contains m))) :=
  ⟨⟨linked (mod 3), by decide +kernel⟩,
   ⟨mod 3, by decide +kernel⟩,
   ⟨mod 3, by decide +kernel⟩,
   ⟨{ mod 3 with host := { restart := true } }, _, by decide +kernel, rfl⟩⟩

theorem test_hyps_mailboxChecks_1 :
    (∃ (_s : State) (_n st : Nat) (reply : Bytes), reply.length ≤ 224 ∧ st < 256) ∧
    (∃ (_s : State) (n st : Nat) (reply : Bytes), ∃ m, reply.length ≤ 224 ∧ st < 256 ∧ m ≠ n) ∧
    (∃ (s : State) (n code : Nat) (c : Nat → Instr) (ms : List Nat), (ownerRow c code ms ∨ openRow c code ms ∨ ∃ ps, partRow c code ms ps) ∧
      s.mayBegin n = false) ∧
    (∃ (s : State) (n code : Nat) (c : Nat → Instr) (ms : List Nat), (ownerRow c code ms ∨ openRow c code ms ∨ ∃ ps, partRow c code ms ps) ∧
      s.mayBegin n = true ∧ codes.contains (slotCode (s.slot n)) = false) ∧
    (∃ (s : State) (n code : Nat) (c : Nat → Instr) (ms : List Nat), (ownerRow c code ms ∨ openRow c code ms ∨ ∃ ps, partRow c code ms ps) ∧
      codes.contains (slotCode (s.slot n)) = true ∧ slotCode (s.slot n) ≠ code) ∧
    (∃ (s : State) (n code : Nat) (c : Nat → Instr) (ms : List Nat), (ownerRow c code ms ∨ openRow c code ms ∨ ∃ ps, partRow c code ms ps) ∧
      s.mayBegin n = true ∧ slotCode (s.slot n) = code ∧ (headerOk (s.slot n) = false ∨ s.tagOk n (s.slot n) = false)) ∧
    (∃ (s : State) (n code : Nat) (c : Nat → Instr) (ms : List Nat), (ownerRow c code ms ∨ openRow c code ms ∨ ∃ ps, partRow c code ms ps) ∧
      s.mayBegin n = true ∧ slotCode (s.slot n) = code ∧ headerOk (s.slot n) = true ∧ s.tagOk n (s.slot n) = true ∧ s.mstate ∉ ms) :=
  ⟨⟨mod 3, 1023, 255, zeros 224, by decide +kernel, by decide +kernel⟩,
   ⟨mod 3, 1023, 255, zeros 224, 0, by decide +kernel, by decide +kernel, by decide +kernel⟩,
   ⟨mod 3, 0, 0x0601, .setCap, [3, 4, 5], .inl (by simp [ownerRow]), by decide +kernel⟩,
   ⟨mailed 3 0x0FFF [] (mod 3), 0, 0x0601, .setCap, [3, 4, 5], .inl (by simp [ownerRow]), by decide +kernel, by decide +kernel⟩,
   ⟨mailed 3 0x0602 [] (mod 3), 0, 0x0601, .setCap, [3, 4, 5], .inl (by simp [ownerRow]), by decide +kernel, by decide +kernel⟩,
   ⟨badMail, 0, 0x0601, .setCap, [3, 4, 5], .inl (by simp [ownerRow]), by decide +kernel, by decide +kernel, by decide +kernel⟩,
   ⟨mailed 2 0x0601 [] (mod 2), 0, 0x0601, .setCap, [3, 4, 5], .inl (by simp [ownerRow]), by decide +kernel, by decide +kernel, by decide +kernel, by decide +kernel, by decide +kernel⟩⟩

theorem test_hyps_mailboxChecks_2 :
    (∃ (s : State) (n code : Nat) (c : Nat → Instr) (ms : List Nat), (ownerRow c code ms ∨ openRow c code ms ∨ ∃ ps, partRow c code ms ps) ∧
      s.mayBegin n = true ∧ slotCode (s.slot n) = code ∧ headerOk (s.slot n) = true ∧ s.tagOk n (s.slot n) = true ∧ s.mstate ∈ ms ∧ s.authOk n
      (s.slot n) = false ∧ ¬ openRow c code ms) ∧
    (∃ (s : State) (n code : Nat) (c : Nat → Instr) (ms : List Nat) (ps : List PState), partRow c code ms ps ∧ s.mayBegin n = true ∧ slotCode (s.slot
      n) = code ∧ headerOk (s.slot n) = true ∧ s.tagOk n (s.slot n) = true ∧ s.mstate ∈ ms ∧ s.authOk n (s.slot n) = true ∧ fld (s.payload
      (s.slot n)) 0 1 < 8 ∧ (s.part (fld (s.payload (s.slot n)) 0 1)).st ∉ ps) ∧
    (∃ (s : State) (n code : Nat) (c : Nat → Instr) (ms : List Nat) (ps : List PState), partRow c code ms ps ∧ s.mayBegin n = true ∧ slotCode (s.slot
      n) = code ∧ headerOk (s.slot n) = true ∧ s.tagOk n (s.slot n) = true ∧ s.mstate ∈ ms ∧ s.authOk n (s.slot n) = true ∧ 8 ≤ fld (s.payload
      (s.slot n)) 0 1) ∧
    (∃ (s : State) (n code : Nat) (c : Nat → Instr) (ms : List Nat) (ps : List PState), ∃ e, partRow c code ms ps ∧ s.mayBegin n = true ∧ slotCode
      (s.slot n) = code ∧ headerOk (s.slot n) = true ∧ s.tagOk n (s.slot n) = true ∧ s.mstate ∈ ms ∧ s.authOk n (s.slot n) = true ∧ fld
      (s.payload (s.slot n)) 0 1 < 8 ∧ (s.part (fld (s.payload (s.slot n)) 0 1)).st ∈ ps ∧ s.descOk (s.slot n) = some e) ∧
    (∃ (s : State) (n code e : Nat) (c : Nat → Instr) (ms : List Nat), s.mayBegin n = true ∧ slotCode (s.slot n) = code ∧ headerOk (s.slot n) = true
      ∧ s.tagOk n (s.slot n) = true ∧ s.mstate ∈ ms ∧ s.descOk (s.slot n) = some e ∧ ownerRow c code ms ∧ s.authOk n (s.slot n) = true) ∧
    (∃ (s : State) (n code e : Nat) (c : Nat → Instr) (ms : List Nat), s.mayBegin n = true ∧ slotCode (s.slot n) = code ∧ headerOk (s.slot n) = true
      ∧ s.tagOk n (s.slot n) = true ∧ s.mstate ∈ ms ∧ s.descOk (s.slot n) = some e ∧ openRow c code ms) :=
  ⟨⟨noOwner, 0, 0x0601, .setCap, [3, 4, 5], .inl (by simp [ownerRow]), by decide +kernel, by decide +kernel, by decide +kernel, by decide +kernel, by decide +kernel, by decide +kernel, by simp [openRow]⟩,
   ⟨mailed 3 0x0105 [7] (mod 3), 0, 0x0105, .arm, [3, 5], [.loaded], by simp [partRow], by decide +kernel, by decide +kernel, by decide +kernel, by decide +kernel, by decide +kernel, posted_auth 3 1 0x0105 1 _ _, by decide +kernel, by decide +kernel⟩,
   ⟨mailed 3 0x0105 [8] (mod 3), 0, 0x0105, .arm, [3, 5], [.loaded], by simp [partRow], by decide +kernel, by decide +kernel, by decide +kernel, by decide +kernel, by decide +kernel, posted_auth 3 1 0x0105 1 _ _, by decide +kernel⟩,
   ⟨mailedAt 3 0x0105 0 4096 [] (part { st := .loaded }), 0, 0x0105, .arm, [3, 5], [.loaded], stArg, by simp [partRow], by decide +kernel, by decide +kernel, by decide +kernel, by decide +kernel, by decide +kernel, posted_auth 3 9 0x0105 48 _ _, by decide +kernel, by decide +kernel, by decide +kernel⟩,
   ⟨badDesc, 0, 0x0601, stArg, .setCap, [3, 4, 5], by decide +kernel, by decide +kernel, by decide +kernel, by decide +kernel, by decide +kernel, by decide +kernel, by simp [ownerRow], posted_auth 3 9 0x0601 48 _ _⟩,
   ⟨mailedAt 3 0x0602 0 4096 [] (mod 3), 0, 0x0602, stArg, .powerStatus, [2, 3, 4, 5], by decide +kernel, by decide +kernel, by decide +kernel, by decide +kernel, by decide +kernel, by decide +kernel, by simp [openRow]⟩⟩

theorem test_hyps_readingCommands_1 :
    (∃ (s : State) (n : Nat), s.calls n 0x0001 locked5 false anyForm) ∧
    (∃ (s : State) (n : Nat), s.calls n 0x0002 locked5 false anyForm) ∧
    (∃ (s : State) (n : Nat), s.calls n 0x0602 locked4 false anyForm) ∧
    (∃ (s : State) (n : Nat), s.calls n 0x0202 locked4 false anyForm ∧ payOk (s.payload (s.slot n)) 1 [] = true ∧ fld (s.payload (s.slot n)) 0 1 ≤ 7) ∧
    (∃ (s : State) (n : Nat), s.calls n 0x0202 locked4 false anyForm ∧ (payOk (s.payload (s.slot n)) 1 [] = false ∨ 7 < fld (s.payload (s.slot n)) 0
      1)) ∧
    (∃ (s : State) (n : Nat), s.calls n 0x0211 locked4 false anyForm) ∧
    (∃ (s : State) (n : Nat), s.calls n 0x0403 locked5 false anyForm) :=
  ⟨⟨ask 1 [] (mod 3), 0, mailed_calls (by decide +kernel)⟩,
   ⟨ask 2 [] (mod 3), 0, mailed_calls (by decide +kernel)⟩,
   ⟨ask 0x0602 [] (mod 3), 0, mailed_calls (by decide +kernel)⟩,
   ⟨ask 0x0202 [0] (mod 3), 0, mailed_calls (by decide +kernel), by decide +kernel, by decide +kernel⟩,
   ⟨ask 0x0202 [8] (mod 3), 0, mailed_calls (by decide +kernel), by decide +kernel⟩,
   ⟨ask 0x0211 [] (mod 3), 0, mailed_calls (by decide +kernel)⟩,
   ⟨ask 0x0403 [] (mod 3), 0, mailed_calls (by decide +kernel)⟩⟩

theorem test_hyps_readingCommands_2 :
    (∃ (s : State) (n : Nat), s.calls n 0x0704 locked4 false anyForm) ∧
    (∃ (s : State) (n a k : Nat), s.calls n 0x0208 [3, 4, 5] false anyForm ∧ fld (s.payload (s.slot n)) 0 4 = a ∧ fld (s.payload (s.slot n)) 4 4 = k
      ∧ payOk (s.payload (s.slot n)) 16 [] = true ∧ 1 ≤ k ∧ a + k ≤ 65536 ∧ s.outputOk (fld (s.payload (s.slot n)) 8 8) (64 * k) = true) ∧
    (∃ (s : State) (n a k : Nat), s.calls n 0x0208 [3, 4, 5] false anyForm ∧ fld (s.payload (s.slot n)) 0 4 = a ∧ fld (s.payload (s.slot n)) 4 4 = k
      ∧ (payOk (s.payload (s.slot n)) 16 [] = false ∨ k = 0 ∨ 65536 < a + k ∨ s.outputOk (fld (s.payload (s.slot n)) 8 8) (64 * k) = false)) ∧
    (∃ (s : State) (n p f k : Nat), (s.calls n 0x0104 [3, 5] true (fun b => fld b 1 1 == 1)) ∧ s.callsPart n p [.loaded, .armed, .running, .held] ∧
      fld (s.payload (s.slot n)) 2 2 = f ∧ fld (s.payload (s.slot n)) 4 2 = k ∧ launchArgs true p (s.payload (s.slot n)) s = true ∧ (s.part
      p).ck.replay = none) ∧
    (∃ (s : State) (n p f k : Nat), (s.calls n 0x0104 [3, 5] true (fun b => fld b 1 1 == 1)) ∧ s.callsPart n p [.loaded, .armed, .running, .held] ∧
      fld (s.payload (s.slot n)) 2 2 = f ∧ fld (s.payload (s.slot n)) 4 2 = k ∧ launchArgs true p (s.payload (s.slot n)) s = false) ∧
    (∃ (s : State) (n p f k : Nat), (s.calls n 0x0104 [3, 5] true (fun b => fld b 1 1 == 1)) ∧ s.callsPart n p [.loaded, .armed, .running, .held] ∧
      fld (s.payload (s.slot n)) 2 2 = f ∧ fld (s.payload (s.slot n)) 4 2 = k ∧ launchArgs true p (s.payload (s.slot n)) s = true ∧ (s.part
      p).ck.replay.isSome = true) ∧
    (∃ (s : State) (n : Nat), s.calls n 0x0702 [3, 4, 5] true (form 0) ∧ s.unionArgs (s.payload (s.slot n)) 0 = true) :=
  ⟨⟨ask 0x0704 [] (mod 3), 0, mailed_calls (by decide +kernel)⟩,
   ⟨ask 0x0208 (natLe 4 0 ++ natLe 4 1 ++ outAt) (in0 {}), 0, 0, 1, mailed_calls (by decide +kernel), by decide +kernel, by decide +kernel, by decide +kernel, by decide +kernel, by decide +kernel, by decide +kernel⟩,
   ⟨ask 0x0208 (natLe 4 65535 ++ natLe 4 2 ++ outAt) (in0 {}), 0, 65535, 2, mailed_calls (by decide +kernel), by decide +kernel, by decide +kernel, by decide +kernel⟩,
   ⟨ask 0x0104 ([0, 1] ++ natLe 2 0 ++ natLe 2 1 ++ [0, 0] ++ outAt ++ zeros 32) { in0 { st := .loaded } with ltes := [(0, lte0 5)] }, 0, 0, 0, 1, mailed_calls (by decide +kernel), ⟨by decide +kernel, by decide +kernel, by decide +kernel⟩, by decide +kernel, by decide +kernel, by decide +kernel, by decide +kernel⟩,
   ⟨ask 0x0104 ([0, 1] ++ natLe 2 1024 ++ natLe 2 1 ++ [0, 0] ++ outAt ++ zeros 32) (in0 { st := .loaded }), 0, 0, 1024, 1, mailed_calls (by decide +kernel), ⟨by decide +kernel, by decide +kernel, by decide +kernel⟩, by decide +kernel, by decide +kernel, by decide +kernel⟩,
   ⟨ask 0x0104 ([0, 1] ++ natLe 2 0 ++ natLe 2 1 ++ [0, 0] ++ outAt ++ zeros 32) { in0 { st := .loaded, ck := { replay := some { replay0 with slot := 5 } } } with ltes := [(0, lte0 5)] }, 0, 0, 0, 1, mailed_calls (by decide +kernel), ⟨by decide +kernel, by decide +kernel, by decide +kernel⟩, by decide +kernel, by decide +kernel, by decide +kernel, by decide +kernel⟩,
   ⟨ask 0x0702 ([0] ++ zeros 7 ++ outAt) (in0 {}), 0, mailed_calls (by decide +kernel), by decide +kernel⟩⟩

theorem test_hyps_readingCommands_3 :
    (∃ (s : State) (n : Nat), s.calls n 0x0702 [3, 4, 5] true (form 0) ∧ s.unionArgs (s.payload (s.slot n)) 0 = false) ∧
    (∃ (s : State) (n : Nat), s.calls n 0x0302 locked4 false (form 0)) ∧
    (∃ (s : State) (n : Nat), s.calls n 0x0301 locked4 false (form 1)) ∧
    (∃ (s : State) (n m i : Nat) (nonce : Bytes), s.calls n 0x0301 locked4 false (form 0) ∧ fld (s.payload (s.slot n)) 1 1 = m ∧ sub (s.payload
      (s.slot n)) 8 32 = nonce ∧ fld (s.payload (s.slot n)) 2 2 = i ∧ payOk (s.payload (s.slot n)) 40 [(4, 4)] = false) ∧
    (∃ (s : State) (n m i : Nat) (nonce : Bytes), ∃ q r, s.calls n 0x0301 locked4 false (form 0) ∧ fld (s.payload (s.slot n)) 1 1 = m ∧ sub
      (s.payload (s.slot n)) 8 32 = nonce ∧ fld (s.payload (s.slot n)) 2 2 = i ∧ payOk (s.payload (s.slot n)) 40 [(4, 4)] = true ∧ i = 0 ∧
      (s.makeQuote m nonce).1 = q ∧ chunkReply q 0 = some r) ∧
    (∃ (s : State) (n m i : Nat) (nonce : Bytes), ∃ q r, s.calls n 0x0301 locked4 false (form 0) ∧ fld (s.payload (s.slot n)) 1 1 = m ∧ sub
      (s.payload (s.slot n)) 8 32 = nonce ∧ fld (s.payload (s.slot n)) 2 2 = i ∧ payOk (s.payload (s.slot n)) 40 [(4, 4)] = true ∧ i ≠ 0 ∧
      s.sec.quote = some (m, nonce, q) ∧ chunkReply q i = some r) ∧
    (∃ (s : State) (n m i : Nat) (nonce : Bytes), ∃ q, s.calls n 0x0301 locked4 false (form 0) ∧ fld (s.payload (s.slot n)) 1 1 = m ∧ sub (s.payload
      (s.slot n)) 8 32 = nonce ∧ fld (s.payload (s.slot n)) 2 2 = i ∧ payOk (s.payload (s.slot n)) 40 [(4, 4)] = true ∧ i ≠ 0 ∧ s.sec.quote =
      some (m, nonce, q) ∧ chunkReply q i = none) :=
  ⟨⟨ask 0x0702 [0, 1] (in0 {}), 0, mailed_calls (by decide +kernel), by decide +kernel⟩,
   ⟨ask 0x0302 (zeros 4) (mod 3), 0, mailed_calls (by decide +kernel)⟩,
   ⟨ask 0x0301 [1, 0, 0, 0] (mod 3), 0, mailed_calls (by decide +kernel)⟩,
   ⟨ask 0x0301 ([0, 0, 0, 0, 1] ++ zeros 35) (mod 3), 0, 0, 0, zeros 32, mailed_calls (by decide +kernel), by decide +kernel, by decide +kernel, by decide +kernel, by decide +kernel⟩,
   ⟨ask 0x0301 (zeros 40) (mod 3), 0, 0, 0, zeros 32, _, _, mailed_calls (by decide +kernel), by decide +kernel, by decide +kernel, by decide +kernel, by decide +kernel, by decide +kernel, rfl, got _ (by decide +kernel)⟩,
   ⟨ask 0x0301 ([0, 0, 1, 0] ++ zeros 36) { mod 3 with sec := { quote := some (0, zeros 32, zeros 300) } }, 0, 0, 1, zeros 32, zeros 300, _, mailed_calls (by decide +kernel), by decide +kernel, by decide +kernel, by decide +kernel, by decide +kernel, by decide +kernel, by decide +kernel, got _ (by decide +kernel)⟩,
   ⟨ask 0x0301 ([0, 0, 5, 0] ++ zeros 36) { mod 3 with sec := { quote := some (0, zeros 32, zeros 300) } }, 0, 0, 5, zeros 32, zeros 300, mailed_calls (by decide +kernel), by decide +kernel, by decide +kernel, by decide +kernel, by decide +kernel, by decide +kernel, by decide +kernel, by decide +kernel⟩⟩

theorem test_hyps_readingCommands_4 :
    (∃ (s : State) (n m i : Nat) (nonce : Bytes), s.calls n 0x0301 locked4 false (form 0) ∧ fld (s.payload (s.slot n)) 1 1 = m ∧ sub (s.payload
      (s.slot n)) 8 32 = nonce ∧ fld (s.payload (s.slot n)) 2 2 = i ∧ payOk (s.payload (s.slot n)) 40 [(4, 4)] = true ∧ i ≠ 0 ∧ (∀ q, s.sec.quote
      ≠ some (m, nonce, q))) ∧
    (∃ (s : State) (addr : Nat) (req b : Bytes) (reply : Nat → Bytes → List Out), b = fit 40 req ∧ (reply = (fun st r => s.out ++ [⟨12, 0, natBe 4
      0x0000D96B ++ [0x81] ++ natLe 1 st ++ r⟩])) ∧ s.glumeRuns = true ∧ addr = 0x60 + s.board.straps % 4 ∧ s.mstate ∉ [2, 3, 4, 5]) ∧
    (∃ (s : State) (addr : Nat) (req b : Bytes) (reply : Nat → Bytes → List Out), b = fit 40 req ∧ (reply = (fun st r => s.out ++ [⟨12, 0, natBe 4
      0x0000D96B ++ [0x81] ++ natLe 1 st ++ r⟩])) ∧ s.glumeRuns = true ∧ addr = 0x60 + s.board.straps % 4 ∧ s.mstate ∈ [2, 3, 4, 5] ∧ bit (fld
      s.policy 4 1) 2 = false) ∧
    (∃ (s : State) (addr : Nat) (req b : Bytes) (reply : Nat → Bytes → List Out), ∃ r, b = fit 40 req ∧ (reply = (fun st r => s.out ++ [⟨12, 0, natBe
      4 0x0000D96B ++ [0x81] ++ natLe 1 st ++ r⟩])) ∧ s.glumeRuns = true ∧ addr = 0x60 + s.board.straps % 4 ∧ s.mstate ∈ [2, 3, 4, 5] ∧ bit (fld
      s.policy 4 1) 2 = true ∧ fld b 0 1 = 1 ∧ chunkReply certificate (fld b 2 2) = some r) ∧
    (∃ (s : State) (addr : Nat) (req b : Bytes) (reply : Nat → Bytes → List Out), ∃ m nonce q r, b = fit 40 req ∧ (reply = (fun st r => s.out ++
      [⟨12, 0, natBe 4 0x0000D96B ++ [0x81] ++ natLe 1 st ++ r⟩])) ∧ s.glumeRuns = true ∧ addr = 0x60 + s.board.straps % 4 ∧ s.mstate ∈ [2, 3, 4,
      5] ∧ bit (fld s.policy 4 1) 2 = true ∧ fld b 0 1 = 0 ∧ payOk b 40 [(4, 4)] = true ∧ fld b 1 1 = m ∧ sub b 8 32 = nonce ∧ fld b 2 2 = 0 ∧
      (s.makeQuote m nonce).1 = q ∧ chunkReply q 0 = some r) ∧
    (∃ (s : State) (addr : Nat) (req b : Bytes) (reply : Nat → Bytes → List Out), b = fit 40 req ∧ (reply = (fun st r => s.out ++ [⟨12, 0, natBe 4
      0x0000D96B ++ [0x81] ++ natLe 1 st ++ r⟩])) ∧ s.glumeRuns = true ∧ addr = 0x60 + s.board.straps % 4 ∧ s.mstate ∈ [2, 3, 4, 5] ∧ bit (fld
      s.policy 4 1) 2 = true ∧ 2 ≤ fld b 0 1) ∧
    (∃ (s : State) (addr : Nat) (req b : Bytes) (reply : Nat → Bytes → List Out), b = fit 40 req ∧ (reply = (fun st r => s.out ++ [⟨12, 0, natBe 4
      0x0000D96B ++ [0x81] ++ natLe 1 st ++ r⟩])) ∧ (s.glumeRuns = false ∨ addr ≠ 0x60 + s.board.straps % 4)) :=
  ⟨⟨ask 0x0301 ([0, 0, 1, 0] ++ zeros 36) (mod 3), 0, 0, 1, zeros 32, mailed_calls (by decide +kernel), by decide +kernel, by decide +kernel, by decide +kernel, by decide +kernel, by decide +kernel, (fun _ h => nomatch h)⟩,
   ⟨bootAt 5, 0x60, [], _, _, rfl, rfl, by decide +kernel, by decide +kernel, by decide +kernel⟩,
   ⟨{ mod 3 with otp := { work := [(4, zeros 64)] } }, 0x60, [], _, _, rfl, rfl, by decide +kernel, by decide +kernel, by decide +kernel, by decide +kernel⟩,
   ⟨{ mod 3 with otp := { work := [(4, zeros 4 ++ [4] ++ zeros 59)] } }, 0x60, [1, 0, 0, 0], _, _, _, rfl, rfl, by decide +kernel, by decide +kernel, by decide +kernel, by decide +kernel, by decide +kernel, got _ (by decide +kernel)⟩,
   ⟨{ mod 3 with otp := { work := [(4, zeros 4 ++ [4] ++ zeros 59)] } }, 0x60, zeros 40, _, _, 0, zeros 32, _, _, rfl, rfl, by decide +kernel, by decide +kernel, by decide +kernel, by decide +kernel, by decide +kernel, by decide +kernel, by decide +kernel, by decide +kernel, by decide +kernel, rfl, got _ (by decide +kernel)⟩,
   ⟨{ mod 3 with otp := { work := [(4, zeros 4 ++ [4] ++ zeros 59)] } }, 0x60, [2], _, _, rfl, rfl, by decide +kernel, by decide +kernel, by decide +kernel, by decide +kernel, by decide +kernel⟩,
   ⟨mod 3, 0x61, [], _, _, rfl, rfl, by decide +kernel⟩⟩

theorem test_hyps_createAndDestroy :
    (∃ (s : State) (n p : Nat) (b : Bytes), s.calls n 0x0101 [3, 5] true anyForm ∧ s.callsPart n p [.empty] ∧ s.payload (s.slot n) = b ∧ (s.part
      p).res.created = true) ∧
    (∃ (s : State) (n p : Nat) (b : Bytes), s.calls n 0x0101 [3, 5] true anyForm ∧ s.callsPart n p [.empty] ∧ s.payload (s.slot n) = b ∧ (s.part
      p).res.created = false ∧ createArgs p b s = false) ∧
    (∃ (s : State) (n p : Nat) (b : Bytes), ∃ r, s.calls n 0x0101 [3, 5] true anyForm ∧ s.callsPart n p [.empty] ∧ s.payload (s.slot n) = b ∧ (s.part
      p).res.created = false ∧ (s.part p).ck.replay = none ∧ createArgs p b s = true ∧ s.createFits b = true ∧ s.placeFor p (fld b 2 2) = some r) ∧
    (∃ (s : State) (n p : Nat) (b : Bytes), s.calls n 0x0101 [3, 5] true anyForm ∧ s.callsPart n p [.empty] ∧ s.payload (s.slot n) = b ∧ (s.part
      p).res.created = false ∧ (s.part p).ck.replay = none ∧ createArgs p b s = true ∧ (s.createFits b = false ∨ s.placeFor p (fld b 2 2) =
      none)) ∧
    (∃ (s : State) (n p : Nat), s.calls n 0x010B [3, 4, 5] true anyForm ∧ s.callsPart n p [.empty, .loaded, .armed, .faulted] ∧ payOk (s.payload
      (s.slot n)) 1 [] = true ∧ (s.part p).ck.replay = none) ∧
    (∃ (s : State) (n p : Nat), s.calls n 0x010B [3, 4, 5] true anyForm ∧ s.callsPart n p [.empty, .loaded, .armed, .faulted] ∧ payOk (s.payload
      (s.slot n)) 1 [] = true ∧ (s.part p).ck.replay.isSome = true) :=
  ⟨⟨ask 0x0101 [0] (in0 {}), 0, 0, _, mailed_calls (by decide +kernel), ⟨by decide +kernel, by decide +kernel, by decide +kernel⟩, rfl, by decide +kernel⟩,
   ⟨ask 0x0101 [0] (mod 3), 0, 0, _, mailed_calls (by decide +kernel), ⟨by decide +kernel, by decide +kernel, by decide +kernel⟩, rfl, by decide +kernel, by decide +kernel⟩,
   ⟨ask 0x0101 ([0, 0] ++ natLe 2 8 ++ natLe 4 1 ++ [1, 0] ++ natLe 2 0 ++ natLe 2 1) (mod 3), 0, 0, _, _, mailed_calls (by decide +kernel), ⟨by decide +kernel, by decide +kernel, by decide +kernel⟩, rfl, by decide +kernel, by decide +kernel, by decide +kernel, by decide +kernel, got _ (by decide +kernel)⟩,
   ⟨ask 0x0101 ([0, 0] ++ natLe 2 8 ++ natLe 4 1 ++ [1, 0] ++ natLe 2 0 ++ natLe 2 1) { mod 3 with ltes := [(0, lte0 5)] }, 0, 0, _, mailed_calls (by decide +kernel), ⟨by decide +kernel, by decide +kernel, by decide +kernel⟩, rfl, by decide +kernel, by decide +kernel, by decide +kernel, by decide +kernel⟩,
   ⟨ask 0x010B [0] (in0 { st := .loaded }), 0, 0, mailed_calls (by decide +kernel), ⟨by decide +kernel, by decide +kernel, by decide +kernel⟩, by decide +kernel, by decide +kernel⟩,
   ⟨ask 0x010B [0] (in0 { st := .loaded, ck := { replay := some { replay0 with slot := 5 } } }), 0, 0, mailed_calls (by decide +kernel), ⟨by decide +kernel, by decide +kernel, by decide +kernel⟩, by decide +kernel, by decide +kernel⟩⟩

theorem test_hyps_imagesPointsAndEntries_1 :
    (∃ (s : State) (n p : Nat) (b : Bytes) (_v : ImageView), s.calls n 0x0102 [3, 5] true anyForm ∧ s.callsPart n p [.empty, .faulted] ∧ ((s.part
      p).st = .faulted ∨ (s.part p).res.created = true) ∧ s.payload (s.slot n) = b ∧ segmentArgs p b s = false) ∧
    (∃ (s : State) (n p : Nat) (b : Bytes) (_v : ImageView), s.calls n 0x0102 [3, 5] true anyForm ∧ s.callsPart n p [.empty, .faulted] ∧ ((s.part
      p).st = .faulted ∨ (s.part p).res.created = true) ∧ s.payload (s.slot n) = b ∧ segmentArgs p b s = true ∧ (s.part p).ck.replay.isSome =
      true) ∧
    (∃ (s : State) (n p : Nat) (b : Bytes) (_v : ImageView), s.calls n 0x0102 [3, 5] true anyForm ∧ s.callsPart n p [.empty, .faulted] ∧ ((s.part
      p).st = .faulted ∨ (s.part p).res.created = true) ∧ s.payload (s.slot n) = b ∧ segmentArgs p b s = true ∧ (s.part p).ck.replay = none ∧
      segmentNext b (s.part p).img.loading = false) ∧
    (∃ (s : State) (n p : Nat) (b : Bytes) (_v : ImageView), s.calls n 0x0102 [3, 5] true anyForm ∧ s.callsPart n p [.empty, .faulted] ∧ ((s.part
      p).st = .faulted ∨ (s.part p).res.created = true) ∧ s.payload (s.slot n) = b ∧ segmentArgs p b s = true ∧ (s.part p).ck.replay = none ∧
      segmentNext b (s.part p).img.loading = true ∧ bit (fld b 1 1) 1 = false) ∧
    (∃ (s : State) (n p : Nat) (b : Bytes) (v : ImageView), s.calls n 0x0102 [3, 5] true anyForm ∧ s.callsPart n p [.empty, .faulted] ∧ ((s.part
      p).st = .faulted ∨ (s.part p).res.created = true) ∧ s.payload (s.slot n) = b ∧ segmentArgs p b s = true ∧ (s.part p).ck.replay = none ∧
      segmentNext b (s.part p).img.loading = true ∧ bit (fld b 1 1) 1 = true ∧ v.typ ≠ 1 ∧ v.typ ≠ 5) ∧
    (∃ (s : State) (n p : Nat) (b : Bytes) (v : ImageView), ∃ st, s.calls n 0x0102 [3, 5] true anyForm ∧ s.callsPart n p [.empty, .faulted] ∧
      ((s.part p).st = .faulted ∨ (s.part p).res.created = true) ∧ s.payload (s.slot n) = b ∧ segmentArgs p b s = true ∧ (s.part p).ck.replay =
      none ∧ segmentNext b (s.part p).img.loading = true ∧ bit (fld b 1 1) 1 = true ∧ (v.typ = 1 ∨ v.typ = 5) ∧ s.imageCheck p v = some st) ∧
    (∃ (s : State) (n p : Nat) (b : Bytes) (v : ImageView), s.calls n 0x0102 [3, 5] true anyForm ∧ s.callsPart n p [.empty, .faulted] ∧ ((s.part
      p).st = .faulted ∨ (s.part p).res.created = true) ∧ s.payload (s.slot n) = b ∧ segmentArgs p b s = true ∧ (s.part p).ck.replay = none ∧
      segmentNext b (s.part p).img.loading = true ∧ bit (fld b 1 1) 1 = true ∧ v.typ = 1 ∧ s.imageCheck p v = none ∧ s.replaceFor p v.image.floor
      = none) ∧
    (∃ (s : State) (n p : Nat) (b : Bytes) (v : ImageView), ∃ r, s.calls n 0x0102 [3, 5] true anyForm ∧ s.callsPart n p [.empty, .faulted] ∧ ((s.part
      p).st = .faulted ∨ (s.part p).res.created = true) ∧ s.payload (s.slot n) = b ∧ segmentArgs p b s = true ∧ (s.part p).ck.replay = none ∧
      segmentNext b (s.part p).img.loading = true ∧ bit (fld b 1 1) 1 = true ∧ v.typ = 1 ∧ s.imageCheck p v = none ∧ s.replaceFor p v.image.floor
      = some r) :=
  ⟨⟨ask 0x0102 [0] (in0 {}), 0, 0, _, view0, mailed_calls (by decide +kernel), ⟨by decide +kernel, by decide +kernel, by decide +kernel⟩, by decide +kernel, rfl, by decide +kernel⟩,
   ⟨ask 0x0102 (seg 0 0 0 0 4096) (in0 { ck := { replay := some replay5 } }), 0, 0, _, view0, mailed_calls (by decide +kernel), ⟨by decide +kernel, by decide +kernel, by decide +kernel⟩, by decide +kernel, rfl, by decide +kernel, by decide +kernel⟩,
   ⟨ask 0x0102 (seg 0 0 0 0 4096) (in0 {}), 0, 0, _, view0, mailed_calls (by decide +kernel), ⟨by decide +kernel, by decide +kernel, by decide +kernel⟩, by decide +kernel, rfl, by decide +kernel, by decide +kernel, by decide +kernel⟩,
   ⟨ask 0x0102 (seg 0 1 0 0 4096) (in0 {}), 0, 0, _, view0, mailed_calls (by decide +kernel), ⟨by decide +kernel, by decide +kernel, by decide +kernel⟩, by decide +kernel, rfl, by decide +kernel, by decide +kernel, by decide +kernel, by decide +kernel⟩,
   ⟨ask 0x0102 (seg 0 3 0 0 4096) (in0 {}), 0, 0, _, viewOf 8 2, mailed_calls (by decide +kernel), ⟨by decide +kernel, by decide +kernel, by decide +kernel⟩, by decide +kernel, rfl, by decide +kernel, by decide +kernel, by decide +kernel, by decide +kernel, by decide +kernel, by decide +kernel⟩,
   ⟨ask 0x0102 (seg 0 3 0 0 4096) (in0 {}), 0, 0, _, viewOf 8 5, stArg, mailed_calls (by decide +kernel), ⟨by decide +kernel, by decide +kernel, by decide +kernel⟩, by decide +kernel, rfl, by decide +kernel, by decide +kernel, by decide +kernel, by decide +kernel, by decide +kernel, by decide +kernel⟩,
   ⟨ask 0x0102 (seg 0 3 0 0 4096) { in0 { res := { floor := 8, slices := slices } } with units := { overlay := (List.range 576).map fun c => (1, c) } }, 0, 0, _, viewOf 8 1, mailed_calls (by decide +kernel), ⟨by decide +kernel, by decide +kernel, by decide +kernel⟩, by decide +kernel, rfl, by decide +kernel, by decide +kernel, by decide +kernel, by decide +kernel, by decide +kernel, by unfold State.imageCheck; rw [digest_ok]; decide +kernel, by decide +kernel⟩,
   ⟨ask 0x0102 (seg 0 3 0 0 4096) (in0 { res := { floor := 8, slices := slices } }), 0, 0, _, viewOf 8 1, _, mailed_calls (by decide +kernel), ⟨by decide +kernel, by decide +kernel, by decide +kernel⟩, by decide +kernel, rfl, by decide +kernel, by decide +kernel, by decide +kernel, by decide +kernel, by decide +kernel, by unfold State.imageCheck; rw [digest_ok]; decide +kernel, got _ (by decide +kernel)⟩⟩

theorem test_hyps_imagesPointsAndEntries_2 :
    (∃ (s : State) (n p : Nat) (b : Bytes) (_v : ImageView), s.calls n 0x010A [3, 5] true anyForm ∧ s.callsPart n p [.loaded, .armed, .running,
      .held, .faulted] ∧ (s.part p).ck.replay = none ∧ s.payload (s.slot n) = b ∧ segmentArgs p b s = true ∧ segmentNext b (s.part
      p).img.loadingF = false) ∧
    (∃ (s : State) (n p : Nat) (b : Bytes) (_v : ImageView), s.calls n 0x010A [3, 5] true anyForm ∧ s.callsPart n p [.loaded, .armed, .running,
      .held, .faulted] ∧ (s.part p).ck.replay = none ∧ s.payload (s.slot n) = b ∧ segmentArgs p b s = true ∧ segmentNext b (s.part
      p).img.loadingF = true ∧ bit (fld b 1 1) 1 = false) ∧
    (∃ (s : State) (n p : Nat) (b : Bytes) (v : ImageView), s.calls n 0x010A [3, 5] true anyForm ∧ s.callsPart n p [.loaded, .armed, .running, .held,
      .faulted] ∧ (s.part p).ck.replay = none ∧ s.payload (s.slot n) = b ∧ segmentArgs p b s = true ∧ segmentNext b (s.part p).img.loadingF =
      true ∧ bit (fld b 1 1) 1 = true ∧ v.typ = 2 ∧ s.imageCheck p v = none) ∧
    (∃ (s : State) (n p : Nat) (b : Bytes) (v : ImageView), ∃ st, s.calls n 0x010A [3, 5] true anyForm ∧ s.callsPart n p [.loaded, .armed, .running,
      .held, .faulted] ∧ (s.part p).ck.replay = none ∧ s.payload (s.slot n) = b ∧ segmentArgs p b s = true ∧ segmentNext b (s.part
      p).img.loadingF = true ∧ bit (fld b 1 1) 1 = true ∧ (v.typ = 2 ∨ v.typ = 5) ∧ s.imageCheck p v = some st) ∧
    (∃ (s : State) (n p : Nat) (b : Bytes) (v : ImageView), s.calls n 0x010A [3, 5] true anyForm ∧ s.callsPart n p [.loaded, .armed, .running, .held,
      .faulted] ∧ (s.part p).ck.replay = none ∧ s.payload (s.slot n) = b ∧ segmentArgs p b s = true ∧ segmentNext b (s.part p).img.loadingF =
      true ∧ bit (fld b 1 1) 1 = true ∧ v.typ ≠ 2 ∧ v.typ ≠ 5) ∧
    (∃ (s : State) (n p f k : Nat) (b d : Bytes) (raw : Nat → Bytes) (live : Bool) (ok : Prop), s.calls n 0x0103 [3, 5] true anyForm ∧ s.callsPart n
      p [.loaded, .armed, .running, .held] ∧ (s.part p).ck.replay = none ∧ s.payload (s.slot n) = b ∧ bindArgs p b s = true ∧ fld b 4 4 = f ∧ fld
      b 8 4 = k ∧ s.winRead (fld b 12 8) (64 * k) = d ∧ (raw = (fun i => ptRw (sub d (64 * i) 64))) ∧ live = ((s.part p).st == .running ||
      (s.part p).st == .held) ∧ (ok = ((∀ i, i < k → pointForm (sub d (64 * i) 64) = true) ∧ (∀ i, i < k → ({ raw := raw i } : Point).valid? =
      true → s.pointOk p { raw := raw i } = true) ∧ pointsOk (s.boundAfter p f ((List.range k).map raw)) = true)) ∧ Config.shake d 32 ≠ sub b 20
      32) ∧
    (∃ (s : State) (n p f k : Nat) (b d : Bytes) (raw : Nat → Bytes) (live : Bool) (ok : Prop), ∃ i, s.calls n 0x0103 [3, 5] true anyForm ∧
      s.callsPart n p [.loaded, .armed, .running, .held] ∧ (s.part p).ck.replay = none ∧ s.payload (s.slot n) = b ∧ bindArgs p b s = true ∧ fld b
      4 4 = f ∧ fld b 8 4 = k ∧ s.winRead (fld b 12 8) (64 * k) = d ∧ (raw = (fun i => ptRw (sub d (64 * i) 64))) ∧ live = ((s.part p).st ==
      .running || (s.part p).st == .held) ∧ (ok = ((∀ i, i < k → pointForm (sub d (64 * i) 64) = true) ∧ (∀ i, i < k → ({ raw := raw i } :
      Point).valid? = true → s.pointOk p { raw := raw i } = true) ∧ pointsOk (s.boundAfter p f ((List.range k).map raw)) = true)) ∧ Config.shake
      d 32 = sub b 20 32 ∧ live = true ∧ i < k ∧ guardOnly { raw := raw i } (s.point (f + i)) = false) ∧
    (∃ (s : State) (n p f k : Nat) (b d : Bytes) (raw : Nat → Bytes) (live : Bool) (ok : Prop), s.calls n 0x0103 [3, 5] true anyForm ∧ s.callsPart n
      p [.loaded, .armed, .running, .held] ∧ (s.part p).ck.replay = none ∧ s.payload (s.slot n) = b ∧ bindArgs p b s = true ∧ fld b 4 4 = f ∧ fld
      b 8 4 = k ∧ s.winRead (fld b 12 8) (64 * k) = d ∧ (raw = (fun i => ptRw (sub d (64 * i) 64))) ∧ live = ((s.part p).st == .running ||
      (s.part p).st == .held) ∧ (ok = ((∀ i, i < k → pointForm (sub d (64 * i) 64) = true) ∧ (∀ i, i < k → ({ raw := raw i } : Point).valid? =
      true → s.pointOk p { raw := raw i } = true) ∧ pointsOk (s.boundAfter p f ((List.range k).map raw)) = true)) ∧ Config.shake d 32 = sub b 20
      32 ∧ (live = true → ∀ i, i < k → guardOnly { raw := raw i } (s.point (f + i)) = true) ∧ ¬ ok) :=
  ⟨⟨ask 0x010A (seg 0 0 0 0 4096) (in0 { st := .loaded }), 0, 0, _, view0, mailed_calls (by decide +kernel), ⟨by decide +kernel, by decide +kernel, by decide +kernel⟩, by decide +kernel, rfl, by decide +kernel, by decide +kernel⟩,
   ⟨ask 0x010A (seg 0 1 0 0 4096) (in0 { st := .loaded }), 0, 0, _, view0, mailed_calls (by decide +kernel), ⟨by decide +kernel, by decide +kernel, by decide +kernel⟩, by decide +kernel, rfl, by decide +kernel, by decide +kernel, by decide +kernel⟩,
   ⟨ask 0x010A (seg 0 3 0 0 4096) (in0 { st := .loaded, res := { floor := 512, slices := slices }, img := { image := some (imgOf 512) } }), 0, 0, _, viewOf 480 2, mailed_calls (by decide +kernel), ⟨by decide +kernel, by decide +kernel, by decide +kernel⟩, by decide +kernel, rfl, by decide +kernel, by decide +kernel, by decide +kernel, by decide +kernel, by unfold State.imageCheck; rw [digest_ok]; decide +kernel⟩,
   ⟨ask 0x010A (seg 0 3 0 0 4096) (in0 { st := .loaded }), 0, 0, _, { viewOf 480 2 with opens := false }, stIntegrity, mailed_calls (by decide +kernel), ⟨by decide +kernel, by decide +kernel, by decide +kernel⟩, by decide +kernel, rfl, by decide +kernel, by decide +kernel, by decide +kernel, by decide +kernel, by decide +kernel⟩,
   ⟨ask 0x010A (seg 0 3 0 0 4096) (in0 { st := .loaded }), 0, 0, _, viewOf 480 1, mailed_calls (by decide +kernel), ⟨by decide +kernel, by decide +kernel, by decide +kernel⟩, by decide +kernel, rfl, by decide +kernel, by decide +kernel, by decide +kernel, by decide +kernel, by decide +kernel⟩,
   ⟨ask 0x0103 (bindPay (other (zeros 64))) (in0 (loaded0 .loaded)), 0, 0, 0, 1, _, zeros 64, _, _, _, mailed_calls (by decide +kernel), ⟨by decide +kernel, by decide +kernel, by decide +kernel⟩, by decide +kernel, rfl, by decide +kernel, by decide +kernel, by decide +kernel, by decide +kernel, rfl, rfl, rfl, shake_other _⟩,
   ⟨ask 0x0103 (bindPay (Config.shake (zeros 64) 32)) { in0 (loaded0 .running) with field := { points := [(0, { owned := true, part := 0, raw := [1] ++ zeros 63 })] } }, 0, 0, 0, 1, _, zeros 64, _, true, _, 0, mailed_calls (by decide +kernel), ⟨by decide +kernel, by decide +kernel, by decide +kernel⟩, by decide +kernel, rfl, by decide +kernel, by decide +kernel, by decide +kernel, by decide +kernel, rfl, by decide +kernel, rfl, rfl, by decide +kernel, by decide +kernel, by decide +kernel⟩,
   ⟨ask 0x0103 (bindPay (Config.shake (zeros 64) 32)) { in0 (loaded0 .loaded) with field := { points := [(5, { owned := true, part := 0, raw := [1] ++ zeros 63 }), (6, { owned := true, part := 0, raw := [1] ++ zeros 63 })] } }, 0, 0, 0, 1, _, zeros 64, _, false, _, mailed_calls (by decide +kernel), ⟨by decide +kernel, by decide +kernel, by decide +kernel⟩, by decide +kernel, rfl, by decide +kernel, by decide +kernel, by decide +kernel, by decide +kernel, rfl, by decide +kernel, rfl, rfl, by decide +kernel, by decide +kernel⟩⟩

theorem test_hyps_imagesPointsAndEntries_3 :
    (∃ (s : State) (n p f k : Nat) (b d : Bytes) (raw : Nat → Bytes) (live : Bool) (ok : Prop), s.calls n 0x0103 [3, 5] true anyForm ∧ s.callsPart n
      p [.loaded, .armed, .running, .held] ∧ (s.part p).ck.replay = none ∧ s.payload (s.slot n) = b ∧ bindArgs p b s = true ∧ fld b 4 4 = f ∧ fld
      b 8 4 = k ∧ s.winRead (fld b 12 8) (64 * k) = d ∧ (raw = (fun i => ptRw (sub d (64 * i) 64))) ∧ live = ((s.part p).st == .running ||
      (s.part p).st == .held) ∧ (ok = ((∀ i, i < k → pointForm (sub d (64 * i) 64) = true) ∧ (∀ i, i < k → ({ raw := raw i } : Point).valid? =
      true → s.pointOk p { raw := raw i } = true) ∧ pointsOk (s.boundAfter p f ((List.range k).map raw)) = true)) ∧ Config.shake d 32 = sub b 20
      32 ∧ (live = true → ∀ i, i < k → guardOnly { raw := raw i } (s.point (f + i)) = true) ∧ ok) ∧
    (∃ (s : State) (n p f k : Nat) (b d : Bytes) (g : Image) (es later : List (Nat × Bytes)) (on : Prop), (s.calls n 0x0104 [3, 5] true (fun b => fld
      b 1 1 == 0)) ∧ s.callsPart n p [.loaded, .armed, .running, .held] ∧ (s.part p).ck.replay = none ∧ s.payload (s.slot n) = b ∧ launchArgs
      false p b s = true ∧ fld b 2 2 = f ∧ fld b 4 2 = k ∧ s.winRead (fld b 8 8) (64 * k) = d ∧ (s.part p).img.image = some g ∧ (es =
      ((List.range k).map fun i => (f + i, sub d (64 * i) 64))) ∧ (later = ((s.part p).ctl.lteP.filter fun x => decide (x.1 < f ∨ f + k ≤ x.1))
      ++ es) ∧
      (on = (∃ x ∈ s.ltes, x.2.owned = true ∧ x.2.part = p ∧ (match later.reverse.find? (fun e => e.1 == x.1) with | some e => bit (fld e.2 0 1) 0 | none => x.2.en) = true))
      ∧ Config.shake d 32 ≠ sub b 16 32) ∧
    (∃ (s : State) (n p f k : Nat) (b d : Bytes) (g : Image) (es later : List (Nat × Bytes)) (on : Prop), (s.calls n 0x0104 [3, 5] true (fun b => fld
      b 1 1 == 0)) ∧ s.callsPart n p [.loaded, .armed, .running, .held] ∧ (s.part p).ck.replay = none ∧ s.payload (s.slot n) = b ∧ launchArgs
      false p b s = true ∧ fld b 2 2 = f ∧ fld b 4 2 = k ∧ s.winRead (fld b 8 8) (64 * k) = d ∧ (s.part p).img.image = some g ∧ (es =
      ((List.range k).map fun i => (f + i, sub d (64 * i) 64))) ∧ (later = ((s.part p).ctl.lteP.filter fun x => decide (x.1 < f ∨ f + k ≤ x.1))
      ++ es) ∧
      (on = (∃ x ∈ s.ltes, x.2.owned = true ∧ x.2.part = p ∧ (match later.reverse.find? (fun e => e.1 == x.1) with | some e => bit (fld e.2 0 1) 0 | none => x.2.en) = true))
      ∧ Config.shake d 32 = sub b 16 32 ∧ (∃ i, i < k ∧ lteOk g (sub d (64 * i) 64) = false)) ∧
    (∃ (s : State) (n p f k : Nat) (b d : Bytes) (g : Image) (es later : List (Nat × Bytes)) (on : Prop), (s.calls n 0x0104 [3, 5] true (fun b => fld
      b 1 1 == 0)) ∧ s.callsPart n p [.loaded, .armed, .running, .held] ∧ (s.part p).ck.replay = none ∧ s.payload (s.slot n) = b ∧ launchArgs
      false p b s = true ∧ fld b 2 2 = f ∧ fld b 4 2 = k ∧ s.winRead (fld b 8 8) (64 * k) = d ∧ (s.part p).img.image = some g ∧ (es =
      ((List.range k).map fun i => (f + i, sub d (64 * i) 64))) ∧ (later = ((s.part p).ctl.lteP.filter fun x => decide (x.1 < f ∨ f + k ≤ x.1))
      ++ es) ∧
      (on = (∃ x ∈ s.ltes, x.2.owned = true ∧ x.2.part = p ∧ (match later.reverse.find? (fun e => e.1 == x.1) with | some e => bit (fld e.2 0 1) 0 | none => x.2.en) = true))
      ∧ Config.shake d 32 = sub b 16 32 ∧ (∀ i, i < k → lteOk g (sub d (64 * i) 64) = true) ∧ ((s.part p).st = .loaded ∨ (s.part p).st = .armed)) ∧
    (∃ (s : State) (n p f k : Nat) (b d : Bytes) (g : Image) (es later : List (Nat × Bytes)) (on : Prop), (s.calls n 0x0104 [3, 5] true (fun b => fld
      b 1 1 == 0)) ∧ s.callsPart n p [.loaded, .armed, .running, .held] ∧ (s.part p).ck.replay = none ∧ s.payload (s.slot n) = b ∧ launchArgs
      false p b s = true ∧ fld b 2 2 = f ∧ fld b 4 2 = k ∧ s.winRead (fld b 8 8) (64 * k) = d ∧ (s.part p).img.image = some g ∧ (es =
      ((List.range k).map fun i => (f + i, sub d (64 * i) 64))) ∧ (later = ((s.part p).ctl.lteP.filter fun x => decide (x.1 < f ∨ f + k ≤ x.1))
      ++ es) ∧
      (on = (∃ x ∈ s.ltes, x.2.owned = true ∧ x.2.part = p ∧ (match later.reverse.find? (fun e => e.1 == x.1) with | some e => bit (fld e.2 0 1) 0 | none => x.2.en) = true))
      ∧ Config.shake d 32 = sub b 16 32 ∧ (∀ i, i < k → lteOk g (sub d (64 * i) 64) = true) ∧ ((s.part p).st = .running ∨ (s.part p).st = .held)
      ∧ ¬ on) ∧
    (∃ (s : State) (n p f k : Nat) (b d : Bytes) (g : Image) (es later : List (Nat × Bytes)) (on : Prop), (s.calls n 0x0104 [3, 5] true (fun b => fld
      b 1 1 == 0)) ∧ s.callsPart n p [.loaded, .armed, .running, .held] ∧ (s.part p).ck.replay = none ∧ s.payload (s.slot n) = b ∧ launchArgs
      false p b s = true ∧ fld b 2 2 = f ∧ fld b 4 2 = k ∧ s.winRead (fld b 8 8) (64 * k) = d ∧ (s.part p).img.image = some g ∧ (es =
      ((List.range k).map fun i => (f + i, sub d (64 * i) 64))) ∧ (later = ((s.part p).ctl.lteP.filter fun x => decide (x.1 < f ∨ f + k ≤ x.1))
      ++ es) ∧
      (on = (∃ x ∈ s.ltes, x.2.owned = true ∧ x.2.part = p ∧ (match later.reverse.find? (fun e => e.1 == x.1) with | some e => bit (fld e.2 0 1) 0 | none => x.2.en) = true))
      ∧ Config.shake d 32 = sub b 16 32 ∧ (∀ i, i < k → lteOk g (sub d (64 * i) 64) = true) ∧ ((s.part p).st = .running ∨ (s.part p).st = .held)
      ∧ on ∧ (s.anyEnabled p = true ∨ (s.part p).run.frame.isSome = true)) ∧
    (∃ (s : State) (n p f k : Nat) (b d : Bytes) (g : Image) (es later : List (Nat × Bytes)) (on : Prop), (s.calls n 0x0104 [3, 5] true (fun b => fld
      b 1 1 == 0)) ∧ s.callsPart n p [.loaded, .armed, .running, .held] ∧ (s.part p).ck.replay = none ∧ s.payload (s.slot n) = b ∧ launchArgs
      false p b s = true ∧ fld b 2 2 = f ∧ fld b 4 2 = k ∧ s.winRead (fld b 8 8) (64 * k) = d ∧ (s.part p).img.image = some g ∧ (es =
      ((List.range k).map fun i => (f + i, sub d (64 * i) 64))) ∧ (later = ((s.part p).ctl.lteP.filter fun x => decide (x.1 < f ∨ f + k ≤ x.1))
      ++ es) ∧
      (on = (∃ x ∈ s.ltes, x.2.owned = true ∧ x.2.part = p ∧ (match later.reverse.find? (fun e => e.1 == x.1) with | some e => bit (fld e.2 0 1) 0 | none => x.2.en) = true))
      ∧ Config.shake d 32 = sub b 16 32 ∧ (∀ i, i < k → lteOk g (sub d (64 * i) 64) = true) ∧ ((s.part p).st = .running ∨ (s.part p).st = .held)
      ∧ on ∧ s.anyEnabled p = false ∧ (s.part p).run.frame = none) :=
  ⟨⟨ask 0x0103 (bindPay (Config.shake (zeros 64) 32)) (in0 (loaded0 .running)), 0, 0, 0, 1, _, zeros 64, _, true, _, mailed_calls (by decide +kernel), ⟨by decide +kernel, by decide +kernel, by decide +kernel⟩, by decide +kernel, rfl, by decide +kernel, by decide +kernel, by decide +kernel, by decide +kernel, rfl, by decide +kernel, rfl, rfl, by decide +kernel, by decide +kernel⟩,
   ⟨ask 0x0104 (setPay (other (zeros 64))) { in0 (loaded0 .loaded) with ltes := [(0, lte0 5)] }, 0, 0, 0, 1, _, zeros 64, imgOf 8, _, _, _, mailed_calls (by decide +kernel), ⟨by decide +kernel, by decide +kernel, by decide +kernel⟩, by decide +kernel, rfl, by decide +kernel, by decide +kernel, by decide +kernel, by decide +kernel, rfl, rfl, rfl, rfl, shake_other _⟩,
   ⟨ask 0x0104 (setPay (Config.shake (zeros 64) 32)) { in0 (loaded0 .loaded) with ltes := [(0, lte0 5)] }, 0, 0, 0, 1, _, zeros 64, imgOf 8, _, _, _, mailed_calls (by decide +kernel), ⟨by decide +kernel, by decide +kernel, by decide +kernel⟩, by decide +kernel, rfl, by decide +kernel, by decide +kernel, by decide +kernel, by decide +kernel, rfl, rfl, rfl, rfl, rfl, by decide +kernel⟩,
   ⟨setSt .armed 1 (lte0 5), 0, 0, 0, 1, _, lteB 1, imgOf 8, _, _, _, mailed_calls (by decide +kernel), ⟨by decide +kernel, by decide +kernel, by decide +kernel⟩, by decide +kernel, rfl, by decide +kernel, by decide +kernel, by decide +kernel, by decide +kernel, rfl, rfl, rfl, rfl, rfl, by decide +kernel, by decide +kernel⟩,
   ⟨setSt .running 0 (lte0 5), 0, 0, 0, 1, _, lteB 0, imgOf 8, _, _, _, mailed_calls (by decide +kernel), ⟨by decide +kernel, by decide +kernel, by decide +kernel⟩, by decide +kernel, rfl, by decide +kernel, by decide +kernel, by decide +kernel, by decide +kernel, rfl, rfl, rfl, rfl, rfl, by decide +kernel, by decide +kernel, by decide +kernel⟩,
   ⟨setSt .running 1 (lte0 5), 0, 0, 0, 1, _, lteB 1, imgOf 8, _, _, _, mailed_calls (by decide +kernel), ⟨by decide +kernel, by decide +kernel, by decide +kernel⟩, by decide +kernel, rfl, by decide +kernel, by decide +kernel, by decide +kernel, by decide +kernel, rfl, rfl, rfl, rfl, rfl, by decide +kernel, by decide +kernel, by decide +kernel, by decide +kernel⟩,
   ⟨setSt .held 1 { lte0 5 with raw := zeros 64 }, 0, 0, 0, 1, _, lteB 1, imgOf 8, _, _, _, mailed_calls (by decide +kernel), ⟨by decide +kernel, by decide +kernel, by decide +kernel⟩, by decide +kernel, rfl, by decide +kernel, by decide +kernel, by decide +kernel, by decide +kernel, rfl, rfl, rfl, rfl, rfl, by decide +kernel, by decide +kernel, by decide +kernel, by decide +kernel, by decide +kernel⟩⟩

theorem test_hyps_runCommands_1 :
    (∃ (s : State) (n p code : Nat) (c : Nat → Instr) (ms : List Nat) (ps : List PState), partRow c code ms ps ∧ code ≠ 0x0103 ∧ s.calls n code ms
      true anyForm ∧ s.callsPart n p ps ∧ payOk (s.payload (s.slot n)) 1 [] = false) ∧
    (∃ (s : State) (n p code : Nat) (c : Nat → Instr) (ms : List Nat) (ps : List PState), partRow c code ms ps ∧ code ≠ 0x0103 ∧ s.calls n code ms
      true anyForm ∧ s.callsPart n p ps ∧ payOk (s.payload (s.slot n)) 1 [] = true ∧ (s.part p).ck.replay.isSome = true) ∧
    (∃ (s : State) (n p : Nat), s.calls n 0x0105 [3, 5] true anyForm ∧ s.callsPart n p [.loaded] ∧ payOk (s.payload (s.slot n)) 1 [] = true ∧ (s.part
      p).ck.replay = none ∧ s.admits p = false) ∧
    (∃ (s : State) (n p : Nat), s.calls n 0x0105 [3, 5] true anyForm ∧ s.callsPart n p [.loaded] ∧ payOk (s.payload (s.slot n)) 1 [] = true ∧ (s.part
      p).ck.replay = none ∧ s.admits p = true) ∧
    (∃ (s : State) (n p : Nat), s.calls n 0x0106 [3, 5] true anyForm ∧ s.callsPart n p [.armed] ∧ payOk (s.payload (s.slot n)) 1 [] = true ∧ (s.part
      p).ck.replay = none) ∧
    (∃ (s : State) (n p : Nat) (brk catchUp : Prop), s.calls n 0x0107 [3, 5] true anyForm ∧ payOk (s.payload (s.slot n)) 1 [] = true ∧ (s.part
      p).ck.replay = none ∧ brk = ((s.part p).st = .held ∧ (s.part p).run.byBreak = true) ∧ (catchUp = ((s.part p).ck.stage = 3 ∧ (s.part
      p).run.frame = none ∧ ((s.part p).st = .restarting ∨ (s.part p).st = .shadow))) ∧ s.callsPart n p [.armed]) ∧
    (∃ (s : State) (n p : Nat) (brk catchUp : Prop), s.calls n 0x0107 [3, 5] true anyForm ∧ payOk (s.payload (s.slot n)) 1 [] = true ∧ (s.part
      p).ck.replay = none ∧ brk = ((s.part p).st = .held ∧ (s.part p).run.byBreak = true) ∧ (catchUp = ((s.part p).ck.stage = 3 ∧ (s.part
      p).run.frame = none ∧ ((s.part p).st = .restarting ∨ (s.part p).st = .shadow))) ∧ s.callsPart n p [.running, .held, .restarting, .shadow] ∧
      ¬ brk ∧ ¬ catchUp ∧ ((s.part p).run.frame.isSome = true ∨ ((s.part p).ck.stage ≠ 0 ∧ (s.part p).ck.stage ≠ 4) ∨ ∃ h ∈ (s.part p).run.holds,
      h.kind = 7)) ∧
    (∃ (s : State) (n p : Nat) (brk catchUp : Prop), s.calls n 0x0107 [3, 5] true anyForm ∧ payOk (s.payload (s.slot n)) 1 [] = true ∧ (s.part
      p).ck.replay = none ∧ brk = ((s.part p).st = .held ∧ (s.part p).run.byBreak = true) ∧ (catchUp = ((s.part p).ck.stage = 3 ∧ (s.part
      p).run.frame = none ∧ ((s.part p).st = .restarting ∨ (s.part p).st = .shadow))) ∧ s.callsPart n p [.running, .held, .restarting, .shadow] ∧
      (brk ∨ catchUp ∨ ((s.part p).run.frame = none ∧ ((s.part p).ck.stage = 0 ∨ (s.part p).ck.stage = 4) ∧ (∀ h ∈ (s.part p).run.holds, h.kind ≠
      7) ∧ ((s.part p).ctl.ckpt = [] ∨ ((s.part p).ck.copying = none ∧ (s.part p).img.image.isSome = true))))) :=
  ⟨⟨ask 0x0105 [] (in0 (loaded0 .loaded)), 0, 0, 0x0105, .arm, [3, 5], [.loaded], by simp [partRow], by decide +kernel, mailed_calls (by decide +kernel), ⟨by decide +kernel, by decide +kernel, by decide +kernel⟩, by decide +kernel⟩,
   ⟨ask 0x0105 [0] (in0 { loaded0 .loaded with ck := { replay := some replay5 } }), 0, 0, 0x0105, .arm, [3, 5], [.loaded], by simp [partRow], by decide +kernel, mailed_calls (by decide +kernel), ⟨by decide +kernel, by decide +kernel, by decide +kernel⟩, by decide +kernel, by decide +kernel⟩,
   ⟨ask 0x0105 [0] (in0 { loaded0 .loaded with pwr := { full := 20000 } }), 0, 0, mailed_calls (by decide +kernel), ⟨by decide +kernel, by decide +kernel, by decide +kernel⟩, by decide +kernel, by decide +kernel, by decide +kernel⟩,
   ⟨ask 0x0105 [0] { in0 { loaded0 .loaded with pwr := { full := 100, idle := 50 } } with gran := { cap := 12000, thermal := 12000 } }, 0, 0, mailed_calls (by decide +kernel), ⟨by decide +kernel, by decide +kernel, by decide +kernel⟩, by decide +kernel, by decide +kernel, by decide +kernel⟩,
   ⟨ask 0x0106 [0] (in0 (loaded0 .armed)), 0, 0, mailed_calls (by decide +kernel), ⟨by decide +kernel, by decide +kernel, by decide +kernel⟩, by decide +kernel, by decide +kernel⟩,
   ⟨ask 0x0107 [0] (in0 (loaded0 .armed)), 0, 0, _, _, mailed_calls (by decide +kernel), by decide +kernel, by decide +kernel, rfl, rfl, ⟨by decide +kernel, by decide +kernel, by decide +kernel⟩⟩,
   ⟨ask 0x0107 [0] (in0 { loaded0 .running with run := { frame := some frame0 } }), 0, 0, _, _, mailed_calls (by decide +kernel), by decide +kernel, by decide +kernel, rfl, rfl, ⟨by decide +kernel, by decide +kernel, by decide +kernel⟩, by decide +kernel, by decide +kernel, by decide +kernel⟩,
   ⟨ask 0x0107 [0] (in0 (loaded0 .running)), 0, 0, _, _, mailed_calls (by decide +kernel), by decide +kernel, by decide +kernel, rfl, rfl, ⟨by decide +kernel, by decide +kernel, by decide +kernel⟩, by decide +kernel⟩⟩

theorem test_hyps_runCommands_2 :
    (∃ (s : State) (n p : Nat) (brk catchUp : Prop), s.calls n 0x0107 [3, 5] true anyForm ∧ payOk (s.payload (s.slot n)) 1 [] = true ∧ (s.part
      p).ck.replay = none ∧ brk = ((s.part p).st = .held ∧ (s.part p).run.byBreak = true) ∧ (catchUp = ((s.part p).ck.stage = 3 ∧ (s.part
      p).run.frame = none ∧ ((s.part p).st = .restarting ∨ (s.part p).st = .shadow))) ∧ s.callsPart n p [.running, .held, .restarting, .shadow] ∧
      ¬ brk ∧ ¬ catchUp ∧ (s.part p).run.frame = none ∧ ((s.part p).ck.stage = 0 ∨ (s.part p).ck.stage = 4) ∧ (∀ h ∈ (s.part p).run.holds, h.kind
      ≠ 7) ∧ (s.part p).ctl.ckpt ≠ [] ∧ (s.part p).ck.copying.isSome = true) ∧
    (∃ (s : State) (n p : Nat), s.calls n 0x0109 [3, 5] true anyForm ∧ s.callsPart n p [.armed, .running, .held] ∧ payOk (s.payload (s.slot n)) 1 []
      = true ∧ (s.part p).ck.replay = none ∧ (s.part p).run.frame = none ∧ (s.part p).ck.copying = none) ∧
    (∃ (s : State) (n p : Nat), s.calls n 0x0109 [3, 5] true anyForm ∧ s.callsPart n p [.armed, .running, .held] ∧ payOk (s.payload (s.slot n)) 1 []
      = true ∧ (s.part p).ck.replay = none ∧ ((s.part p).run.frame.isSome = true ∨ (s.part p).ck.copying.isSome = true)) ∧
    (∃ (s : State) (n p : Nat) (b : Bytes) (v : SealView) (sealed : Bool), s.calls n 0x0108 [3, 4, 5] true anyForm ∧ s.callsPart n p [.armed,
      .faulted] ∧ (s.part p).ck.replay = none ∧ s.payload (s.slot n) = b ∧ replayArgs p b s = true ∧ sealed = bit (fld b 1 1) 0 ∧ sealed = true ∧
      v.output = true) ∧
    (∃ (s : State) (n p : Nat) (b : Bytes) (v : SealView) (sealed : Bool), s.calls n 0x0108 [3, 4, 5] true anyForm ∧ s.callsPart n p [.armed,
      .faulted] ∧ (s.part p).ck.replay = none ∧ s.payload (s.slot n) = b ∧ replayArgs p b s = true ∧ sealed = bit (fld b 1 1) 0 ∧ sealed = true ∧
      v.output = false ∧ v.opens = false) ∧
    (∃ (s : State) (n p : Nat) (b : Bytes) (v : SealView) (sealed : Bool), s.calls n 0x0108 [3, 4, 5] true anyForm ∧ s.callsPart n p [.armed,
      .faulted] ∧ (s.part p).ck.replay = none ∧ s.payload (s.slot n) = b ∧ replayArgs p b s = true ∧ sealed = bit (fld b 1 1) 0 ∧ (sealed = true
      → v.output = false ∧ v.opens = true) ∧ s.replayPlan p sealed (fld b 8 8) v = none) ∧
    (∃ (s : State) (n p : Nat) (b : Bytes) (v : SealView) (sealed : Bool), ∃ plan, s.calls n 0x0108 [3, 4, 5] true anyForm ∧ s.callsPart n p [.armed,
      .faulted] ∧ (s.part p).ck.replay = none ∧ s.payload (s.slot n) = b ∧ replayArgs p b s = true ∧ sealed = bit (fld b 1 1) 0 ∧ (sealed = true
      → v.output = false ∧ v.opens = true) ∧ s.replayPlan p sealed (fld b 8 8) v = some plan ∧ (s.part p).st = .faulted ∧ s.admits p = false) ∧
    (∃ (s : State) (n p : Nat) (b : Bytes) (v : SealView) (sealed : Bool), ∃ plan, s.calls n 0x0108 [3, 4, 5] true anyForm ∧ s.callsPart n p [.armed,
      .faulted] ∧ (s.part p).ck.replay = none ∧ s.payload (s.slot n) = b ∧ replayArgs p b s = true ∧ sealed = bit (fld b 1 1) 0 ∧ (sealed = true
      → v.output = false ∧ v.opens = true) ∧ s.replayPlan p sealed (fld b 8 8) v = some plan ∧ ((s.part p).st = .armed ∨ s.admits p = true) ∧
      (sub plan.start.bir 6 138 ≠ sub (s.bir p) 6 138 ∨ (sealed = true ∧ v.chainOk = false))) :=
  ⟨⟨ask 0x0107 [0] (in0 { loaded0 .running with ctl := { ckpt := [3] }, ck := { copying := some ([], false) } }), 0, 0, _, _, mailed_calls (by decide +kernel), by decide +kernel, by decide +kernel, rfl, rfl, ⟨by decide +kernel, by decide +kernel, by decide +kernel⟩, by decide +kernel, by decide +kernel, by decide +kernel, by decide +kernel, by decide +kernel, by decide +kernel, by decide +kernel⟩,
   ⟨ask 0x0109 [0] (in0 (loaded0 .armed)), 0, 0, mailed_calls (by decide +kernel), ⟨by decide +kernel, by decide +kernel, by decide +kernel⟩, by decide +kernel, by decide +kernel, by decide +kernel, by decide +kernel⟩,
   ⟨ask 0x0109 [0] (in0 { loaded0 .running with run := { frame := some frame0 } }), 0, 0, mailed_calls (by decide +kernel), ⟨by decide +kernel, by decide +kernel, by decide +kernel⟩, by decide +kernel, by decide +kernel, by decide +kernel⟩,
   ⟨ask 0x0108 sealedPay (in0 (loaded0 .armed)), 0, 0, _, { seal0 with output := true }, true, mailed_calls (by decide +kernel), ⟨by decide +kernel, by decide +kernel, by decide +kernel⟩, by decide +kernel, rfl, by decide +kernel, by decide +kernel, by decide +kernel, by decide +kernel⟩,
   ⟨ask 0x0108 sealedPay (in0 (loaded0 .armed)), 0, 0, _, { seal0 with opens := false }, true, mailed_calls (by decide +kernel), ⟨by decide +kernel, by decide +kernel, by decide +kernel⟩, by decide +kernel, rfl, by decide +kernel, by decide +kernel, by decide +kernel, by decide +kernel, by decide +kernel⟩,
   ⟨replaySt (in0 (loaded0 .armed)), 0, 0, replayPay, seal0, false, mailed_calls (by decide +kernel), ⟨by decide +kernel, by decide +kernel, by decide +kernel⟩, by decide +kernel, by decide +kernel, by decide +kernel, by decide +kernel, by decide +kernel, (rfl : (replaySt (in0 (loaded0 .armed))).replayPlan 0 false (fld replayPay 8 8) seal0 = none)⟩,
   ⟨replaySt (in0 { replayable (zeros 256) with st := .faulted, pwr := { full := 20000 } }), 0, 0, replayPay, seal0, false, plan0 (zeros 256), mailed_calls (by decide +kernel), ⟨by decide +kernel, by decide +kernel, by decide +kernel⟩, by decide +kernel, by decide +kernel, by decide +kernel, by decide +kernel, by decide +kernel, (rfl : (replaySt (in0 { replayable (zeros 256) with st := .faulted, pwr := { full := 20000 } })).replayPlan 0 false (fld replayPay 8 8) seal0 = some (plan0 (zeros 256))), by decide +kernel, by decide +kernel⟩,
   ⟨replaySt (in0 (replayable (zeros 256))), 0, 0, replayPay, seal0, false, plan0 (zeros 256), mailed_calls (by decide +kernel), ⟨by decide +kernel, by decide +kernel, by decide +kernel⟩, by decide +kernel, by decide +kernel, by decide +kernel, by decide +kernel, by decide +kernel, plan_eq _, by decide +kernel, by decide +kernel⟩⟩

theorem test_hyps_runCommands_3 :
    (∃ (s : State) (n p : Nat) (b : Bytes) (v : SealView) (sealed : Bool), ∃ plan, s.calls n 0x0108 [3, 4, 5] true anyForm ∧ s.callsPart n p [.armed,
      .faulted] ∧ (s.part p).ck.replay = none ∧ s.payload (s.slot n) = b ∧ replayArgs p b s = true ∧ sealed = bit (fld b 1 1) 0 ∧ (sealed = true
      → v.output = false ∧ v.opens = true) ∧ s.replayPlan p sealed (fld b 8 8) v = some plan ∧ ((s.part p).st = .armed ∨ s.admits p = true) ∧ sub
      plan.start.bir 6 138 = sub (s.bir p) 6 138 ∧ (sealed = true → v.chainOk = true)) ∧
    (∃ (s : State) (p : Nat) (r : Replay) (g : Image) (reached ended : Bool) (content reply : Bytes), (s.part p).ck.replay = some r ∧ (s.part
      p).img.image = some g ∧ (reached = (r.caps.all fun c => decide (c.2.2 ≤ ((s.core ((s.part p).res.place.getD c.1 0)).eng.getD c.2.1
      {}).issued))) ∧ ended = (r.ended || ((s.part p).ck.catchUp.isEmpty && (s.part p).run.frame.isNone)) ∧ (content = ((s.part
      p).img.fault.captures.map fun c => c.2.2.2).flatten ++ (s.part p).img.fault.mutOut) ∧ (reply = (((s.part p).img.fault.captures.map fun c =>
      c.2.2.2).flatMap fun c => Config.shake c 32) ++ (if r.mutSec then Config.shake (s.part p).img.fault.mutOut 32 else []) ++ fit 32 (s.part
      p).cnt.bir) ∧ ended = false) ∧
    (∃ (s : State) (p : Nat) (r : Replay) (g : Image) (reached ended : Bool) (content reply : Bytes), (s.part p).ck.replay = some r ∧ (s.part
      p).img.image = some g ∧ (reached = (r.caps.all fun c => decide (c.2.2 ≤ ((s.core ((s.part p).res.place.getD c.1 0)).eng.getD c.2.1
      {}).issued))) ∧ ended = (r.ended || ((s.part p).ck.catchUp.isEmpty && (s.part p).run.frame.isNone)) ∧ (content = ((s.part
      p).img.fault.captures.map fun c => c.2.2.2).flatten ++ (s.part p).img.fault.mutOut) ∧ (reply = (((s.part p).img.fault.captures.map fun c =>
      c.2.2.2).flatMap fun c => Config.shake c 32) ++ (if r.mutSec then Config.shake (s.part p).img.fault.mutOut 32 else []) ++ fit 32 (s.part
      p).cnt.bir) ∧ ended = true) ∧
    (∃ (s : State) (p : Nat), (s.part p).ck.replay = none) ∧
    (∃ (s : State) (n p : Nat) (on other : List Hold), s.calls n 0x0801 [3, 4, 5] false anyForm ∧ s.callsPart n p [.held] ∧ (s.part p).run.byBreak =
      true ∧ (on = ((s.part p).run.holds.filter fun h => h.began.isSome)) ∧ (other = (on.filter fun h => h.kind != 6 && !h.dead s.cc)) ∧
      s.debugOn = false) ∧
    (∃ (s : State) (n p : Nat) (on other : List Hold), s.calls n 0x0801 [3, 4, 5] false anyForm ∧ s.callsPart n p [.held] ∧ (s.part p).run.byBreak =
      true ∧ (on = ((s.part p).run.holds.filter fun h => h.began.isSome)) ∧ (other = (on.filter fun h => h.kind != 6 && !h.dead s.cc)) ∧
      s.debugOn = true ∧ (payOk (s.payload (s.slot n)) 2 [] = false ∨ 1 < fld (s.payload (s.slot n)) 1 1)) ∧
    (∃ (s : State) (n p : Nat) (on other : List Hold), s.calls n 0x0801 [3, 4, 5] false anyForm ∧ s.callsPart n p [.held] ∧ (s.part p).run.byBreak =
      true ∧ (on = ((s.part p).run.holds.filter fun h => h.began.isSome)) ∧ (other = (on.filter fun h => h.kind != 6 && !h.dead s.cc)) ∧
      s.debugOn = true ∧ payOk (s.payload (s.slot n)) 2 [] = true ∧ fld (s.payload (s.slot n)) 1 1 ≤ 1 ∧ other = []) ∧
    (∃ (s : State) (n p : Nat) (on other : List Hold), s.calls n 0x0801 [3, 4, 5] false anyForm ∧ s.callsPart n p [.held] ∧ (s.part p).run.byBreak =
      true ∧ (on = ((s.part p).run.holds.filter fun h => h.began.isSome)) ∧ (other = (on.filter fun h => h.kind != 6 && !h.dead s.cc)) ∧
      s.debugOn = true ∧ payOk (s.payload (s.slot n)) 2 [] = true ∧ fld (s.payload (s.slot n)) 1 1 ≤ 1 ∧ other ≠ []) :=
  ⟨⟨replaySt (in0 (replayable ((mod 3).birRecord (imgOf 8)))), 0, 0, replayPay, seal0, false, plan0 _, mailed_calls (by decide +kernel), ⟨by decide +kernel, by decide +kernel, by decide +kernel⟩, by decide +kernel, by decide +kernel, by decide +kernel, by decide +kernel, by decide +kernel, plan_eq _, by decide +kernel, rfl, by decide +kernel⟩,
   ⟨in0 { loaded0 .armed with ck := { replay := some { replay0 with ended := false }, catchUp := [entry0] } }, 0, { replay0 with ended := false }, imgOf 8, _, false, _, _, by decide +kernel, rfl, rfl, by decide +kernel, rfl, rfl, by decide +kernel⟩,
   ⟨in0 { loaded0 .armed with ck := { replay := some replay0 } }, 0, replay0, imgOf 8, _, true, _, _, by decide +kernel, rfl, rfl, by decide +kernel, rfl, rfl, by decide +kernel⟩,
   ⟨mod 3, 0, by decide +kernel⟩,
   ⟨ask 0x0801 [0, 0] (in0 { loaded0 .held with run := { held := true, holds := [hold6] } }), 0, 0, _, _, mailed_calls (by decide +kernel), ⟨by decide +kernel, by decide +kernel, by decide +kernel⟩, by decide +kernel, rfl, rfl, by decide +kernel⟩,
   ⟨ask 0x0801 [0, 2] { in0 { loaded0 .held with run := { held := true, holds := [hold6] } } with sec := { unlocked := some 5 } }, 0, 0, _, _, mailed_calls (by decide +kernel), ⟨by decide +kernel, by decide +kernel, by decide +kernel⟩, by decide +kernel, rfl, rfl, by decide +kernel, by decide +kernel⟩,
   ⟨ask 0x0801 [0, 1] { in0 { loaded0 .held with run := { held := true, holds := [hold6] } } with sec := { unlocked := some 5 } }, 0, 0, _, _, mailed_calls (by decide +kernel), ⟨by decide +kernel, by decide +kernel, by decide +kernel⟩, by decide +kernel, rfl, rfl, by decide +kernel, by decide +kernel, by decide +kernel, by decide +kernel⟩,
   ⟨ask 0x0801 [0, 0] { in0 { loaded0 .held with run := { held := true, holds := [hold6, { hold6 with kind := 0 }] } } with sec := { unlocked := some 5 } }, 0, 0, _, _, mailed_calls (by decide +kernel), ⟨by decide +kernel, by decide +kernel, by decide +kernel⟩, by decide +kernel, rfl, rfl, by decide +kernel, by decide +kernel, by decide +kernel, by decide +kernel⟩⟩

theorem test_hyps_configurationCommands_1 :
    (∃ (s : State) (n p : Nat) (b : Bytes) (moved addr fixed : Bool), s.calls n 0x0201 [3, 4, 5] true anyForm ∧ s.payload (s.slot n) = b ∧ fld b 0 1
      = p ∧ moved = ((s.port p).mode != fld b 2 1) ∧ addr = (sub ((s.port p).subCfg (fld b 1 1)) 8 6 != sub b 8 6 || sub ((s.port p).subCfg (fld
      b 1 1)) 16 32 != sub b 16 32) ∧ fixed = (match s.portOwner p with | some r => portFixed (s.part r).st | none => false) ∧ portConfigOk b =
      false) ∧
    (∃ (s : State) (n p : Nat) (b : Bytes) (moved addr fixed : Bool), s.calls n 0x0201 [3, 4, 5] true anyForm ∧ s.payload (s.slot n) = b ∧ fld b 0 1
      = p ∧ moved = ((s.port p).mode != fld b 2 1) ∧ addr = (sub ((s.port p).subCfg (fld b 1 1)) 8 6 != sub b 8 6 || sub ((s.port p).subCfg (fld
      b 1 1)) 16 32 != sub b 16 32) ∧ fixed = (match s.portOwner p with | some r => portFixed (s.part r).st | none => false) ∧ portConfigOk b =
      true ∧ fixed = true ∧ (moved = true ∨ addr = true)) ∧
    (∃ (s : State) (n p : Nat) (b : Bytes) (moved addr fixed : Bool), s.calls n 0x0201 [3, 4, 5] true anyForm ∧ s.payload (s.slot n) = b ∧ fld b 0 1
      = p ∧ moved = ((s.port p).mode != fld b 2 1) ∧ addr = (sub ((s.port p).subCfg (fld b 1 1)) 8 6 != sub b 8 6 || sub ((s.port p).subCfg (fld
      b 1 1)) 16 32 != sub b 16 32) ∧ fixed = (match s.portOwner p with | some r => portFixed (s.part r).st | none => false) ∧ portConfigOk b =
      true ∧ moved = false ∧ (fixed = false ∨ addr = false)) ∧
    (∃ (s : State) (n p : Nat) (b : Bytes) (moved addr fixed : Bool), s.calls n 0x0201 [3, 4, 5] true anyForm ∧ s.payload (s.slot n) = b ∧ fld b 0 1
      = p ∧ moved = ((s.port p).mode != fld b 2 1) ∧ addr = (sub ((s.port p).subCfg (fld b 1 1)) 8 6 != sub b 8 6 || sub ((s.port p).subCfg (fld
      b 1 1)) 16 32 != sub b 16 32) ∧ fixed = (match s.portOwner p with | some r => portFixed (s.part r).st | none => false) ∧ portConfigOk b =
      true ∧ moved = true ∧ fixed = false) ∧
    (∃ (s : State) (n i : Nat) (b _sak : Bytes) (k : Session) (a : Assoc), s.calls n 0x0203 [3, 4, 5] true anyForm ∧ s.payload (s.slot n) = b ∧ fld b
      0 1 = i ∧ s.sec.owner = some k ∧ a = (s.field.assocs.get? i).getD (newAssoc b) ∧ (saInstallArgs b = false ∨ (s.field.assocs.get? i).isNone
      ≠ bit (fld b 3 1) 0)) ∧
    (∃ (s : State) (n i : Nat) (b _sak : Bytes) (k : Session) (a : Assoc), s.calls n 0x0203 [3, 4, 5] true anyForm ∧ s.payload (s.slot n) = b ∧ fld b
      0 1 = i ∧ s.sec.owner = some k ∧ a = (s.field.assocs.get? i).getD (newAssoc b) ∧ saInstallArgs b = true ∧ (s.field.assocs.get? i).isNone =
      bit (fld b 3 1) 0 ∧ s.field.assocs.get? i = none ∧ s.channelRoom (newAssoc b) = false) ∧
    (∃ (s : State) (n i : Nat) (b sak : Bytes) (k : Session) (a : Assoc), s.calls n 0x0203 [3, 4, 5] true anyForm ∧ s.payload (s.slot n) = b ∧ fld b
      0 1 = i ∧ s.sec.owner = some k ∧ a = (s.field.assocs.get? i).getD (newAssoc b) ∧ saInstallArgs b = true ∧ (s.field.assocs.get? i).isNone =
      bit (fld b 3 1) 0 ∧ (s.field.assocs.get? i = none → s.channelRoom (newAssoc b) = true) ∧ Config.gcm (sub k.keys 32 32) (natLe 8
      (s.host.nums.getD n 0) ++ zeros 4) (sub b 0 32) sak ≠ sub b 32 48) ∧
    (∃ (s : State) (n i : Nat) (b sak : Bytes) (k : Session) (a : Assoc), s.calls n 0x0203 [3, 4, 5] true anyForm ∧ s.payload (s.slot n) = b ∧ fld b
      0 1 = i ∧ s.sec.owner = some k ∧ a = (s.field.assocs.get? i).getD (newAssoc b) ∧ saInstallArgs b = true ∧ (s.field.assocs.get? i).isNone =
      bit (fld b 3 1) 0 ∧ (s.field.assocs.get? i = none → s.channelRoom (newAssoc b) = true) ∧ Config.gcm (sub k.keys 32 32) (natLe 8
      (s.host.nums.getD n 0) ++ zeros 4) (sub b 0 32) sak = sub b 32 48) :=
  ⟨⟨ask 0x0201 [0] (mod 3), 0, 0, _, _, _, _, mailed_calls (by decide +kernel), rfl, by decide +kernel, rfl, rfl, rfl, by decide +kernel⟩,
   ⟨ask 0x0201 ([0, 0, 1] ++ zeros 61) (in0 { loaded0 .running with res := { ports := 1 } }), 0, 0, _, _, _, _, mailed_calls (by decide +kernel), rfl, by decide +kernel, rfl, rfl, rfl, by decide +kernel, by decide +kernel, by decide +kernel⟩,
   ⟨ask 0x0201 (zeros 64) (mod 3), 0, 0, _, _, _, _, mailed_calls (by decide +kernel), rfl, by decide +kernel, rfl, rfl, rfl, by decide +kernel, by decide +kernel, by decide +kernel⟩,
   ⟨ask 0x0201 ([0, 0, 1] ++ zeros 61) (mod 3), 0, 0, _, _, _, _, mailed_calls (by decide +kernel), rfl, by decide +kernel, rfl, rfl, rfl, by decide +kernel, by decide +kernel, by decide +kernel⟩,
   ⟨ask 0x0203 [] (mod 3), 0, 0, _, [], mailKey, _, mailed_calls (by decide +kernel), rfl, by decide +kernel, by decide +kernel, rfl, by decide +kernel⟩,
   ⟨ask 0x0203 ([1, 128, 0, 1] ++ zeros 76) { mod 3 with field := { assocs := [(2, assoc0)] } }, 0, 1, _, [], mailKey, _, mailed_calls (by decide +kernel), rfl, by decide +kernel, by decide +kernel, rfl, by decide +kernel, by decide +kernel, by decide +kernel, by decide +kernel⟩,
   ⟨ask 0x0203 (saHead ++ bump saWrap) (mod 3), 0, 1, _, zeros 32, mailKey, _, mailed_calls (by decide +kernel), rfl, by decide +kernel, by decide +kernel, rfl, by decide +kernel, by decide +kernel, by decide +kernel, ne_bump _ (by decide)⟩,
   ⟨ask 0x0203 (saHead ++ saWrap) (mod 3), 0, 1, _, zeros 32, mailKey, _, mailed_calls (by decide +kernel), rfl, by decide +kernel, by decide +kernel, rfl, by decide +kernel, by decide +kernel, by decide +kernel, rfl⟩⟩

theorem test_hyps_configurationCommands_2 :
    (∃ (s : State) (n i an : Nat) (b : Bytes), s.payload (s.slot n) = b ∧ fld b 0 1 = i ∧ fld b 1 1 = an ∧ s.calls n 0x0204 [3, 4, 5] true anyForm ∧
      (payOk b 2 [] = false ∨ s.field.assocs.get? i = none ∨ ∃ a, s.field.assocs.get? i = some a ∧ (a.transmit = false ∨ a.saks.get? an = none))) ∧
    (∃ (s : State) (n i an : Nat) (b : Bytes), ∃ (a : Assoc) (sak : Bytes) (live : Bool), s.payload (s.slot n) = b ∧ fld b 0 1 = i ∧ fld b 1 1 = an ∧
      s.calls n 0x0204 [3, 4, 5] true anyForm ∧ payOk b 2 [] = true ∧ s.field.assocs.get? i = some a ∧ a.transmit = true ∧ a.saks.get? an = some
      sak ∧ live = (match s.portOwner a.port with | some p => (s.part p).st == .running || (s.part p).st == .held | none => false)) ∧
    (∃ (s : State) (n i an : Nat) (b : Bytes), s.payload (s.slot n) = b ∧ fld b 0 1 = i ∧ fld b 1 1 = an ∧ s.calls n 0x0205 [3, 4, 5] true anyForm ∧
      (payOk b 2 [] = false ∨ s.field.assocs.get? i = none ∨ (an = 255 ∧ s.assocNamed i = true) ∨ ∃ a, s.field.assocs.get? i = some a ∧ an ≠ 255
      ∧ (a.saks.get? an = none ∨ (a.transmit = true ∧ a.an = some an)))) ∧
    (∃ (s : State) (n i an : Nat) (b : Bytes), ∃ a, s.payload (s.slot n) = b ∧ fld b 0 1 = i ∧ fld b 1 1 = an ∧ s.calls n 0x0205 [3, 4, 5] true
      anyForm ∧ payOk b 2 [] = true ∧ s.field.assocs.get? i = some a ∧ an = 255 ∧ s.assocNamed i = false) ∧
    (∃ (s : State) (n i an : Nat) (b : Bytes), ∃ a sak, s.payload (s.slot n) = b ∧ fld b 0 1 = i ∧ fld b 1 1 = an ∧ s.calls n 0x0205 [3, 4, 5] true
      anyForm ∧ payOk b 2 [] = true ∧ s.field.assocs.get? i = some a ∧ an ≠ 255 ∧ a.saks.get? an = some sak ∧ (a.transmit = false ∨ a.an ≠ some
      an)) ∧
    (∃ (s : State) (n : Nat) (b : Bytes), ∃ (ok : Prop), s.payload (s.slot n) = b ∧ s.calls n 0x0206 [3, 4, 5] true anyForm ∧ (ok = (payOk b 35 [] =
      true ∧ fld b 0 2 ≤ 4095 ∧ fld b 2 1 ≤ 3 ∧ fld b 3 1 < 32 ∧ (bit (fld b 2 1) 0 = true ∨ s.destUsed (s.field.dests.getD (fld b 0 2) []) =
      false))) ∧ ok) ∧
    (∃ (s : State) (n : Nat) (b : Bytes), ∃ (ok : Prop), s.payload (s.slot n) = b ∧ s.calls n 0x0206 [3, 4, 5] true anyForm ∧ (ok = (payOk b 35 [] =
      true ∧ fld b 0 2 ≤ 4095 ∧ fld b 2 1 ≤ 3 ∧ fld b 3 1 < 32 ∧ (bit (fld b 2 1) 0 = true ∨ s.destUsed (s.field.dests.getD (fld b 0 2) []) =
      false))) ∧ ¬ ok) ∧
    (∃ (s : State) (n : Nat) (b : Bytes), s.payload (s.slot n) = b ∧ s.calls n 0x0207 [3, 4, 5] true anyForm ∧ svArgs b = false) :=
  ⟨⟨ask 0x0204 [1] assocSt, 0, 1, 0, _, rfl, by decide +kernel, by decide +kernel, mailed_calls (by decide +kernel), .inl (by decide +kernel)⟩,
   ⟨ask 0x0204 [1, 0] assocSt, 0, 1, 0, _, assoc0, [], _, rfl, by decide +kernel, by decide +kernel, mailed_calls (by decide +kernel), by decide +kernel, by decide +kernel, by decide +kernel, by decide +kernel, rfl⟩,
   ⟨ask 0x0205 [1] assocSt, 0, 1, 0, _, rfl, by decide +kernel, by decide +kernel, mailed_calls (by decide +kernel), .inl (by decide +kernel)⟩,
   ⟨ask 0x0205 [1, 255] assocSt, 0, 1, 255, _, assoc0, rfl, by decide +kernel, by decide +kernel, mailed_calls (by decide +kernel), by decide +kernel, by decide +kernel, by decide +kernel, by decide +kernel⟩,
   ⟨ask 0x0205 [1, 0] assocSt, 0, 1, 0, _, assoc0, [], rfl, by decide +kernel, by decide +kernel, mailed_calls (by decide +kernel), by decide +kernel, by decide +kernel, by decide +kernel, by decide +kernel, by decide +kernel⟩,
   ⟨ask 0x0206 (natLe 2 5 ++ [1, 0] ++ zeros 31) (mod 3), 0, _, _, rfl, mailed_calls (by decide +kernel), rfl, by decide +kernel⟩,
   ⟨ask 0x0206 [] (mod 3), 0, _, _, rfl, mailed_calls (by decide +kernel), rfl, by decide +kernel⟩,
   ⟨ask 0x0207 [] (mod 3), 0, _, rfl, mailed_calls (by decide +kernel), by decide +kernel⟩⟩

theorem test_hyps_configurationCommands_3 :
    (∃ (s : State) (n : Nat) (b : Bytes), s.payload (s.slot n) = b ∧ s.calls n 0x0207 [3, 4, 5] true anyForm ∧ svArgs b = true) ∧
    (∃ (s : State) (n : Nat) (b : Bytes), ∃ p, s.payload (s.slot n) = b ∧ s.calls n 0x0209 [3, 4, 5] true anyForm ∧ s.callsPart n p [.loaded, .armed]
      ∧ payOk b 16 [(1, 7)] = true) ∧
    (∃ (s : State) (n : Nat) (b : Bytes), ∃ p, s.payload (s.slot n) = b ∧ s.calls n 0x0209 [3, 4, 5] true anyForm ∧ s.callsPart n p [.loaded, .armed]
      ∧ payOk b 16 [(1, 7)] = false) ∧
    (∃ (s : State) (n : Nat) (b : Bytes), ∃ p, s.payload (s.slot n) = b ∧ s.calls n 0x0209 [3, 4, 5] true anyForm ∧ s.callsPart n p [.empty,
      .running, .held, .restarting, .faulted, .shadow]) ∧
    (∃ (s : State) (n : Nat) (b : Bytes), s.payload (s.slot n) = b ∧ s.calls n 0x0210 [3, 4, 5] true anyForm ∧ timeConfigOk b = false) ∧
    (∃ (s : State) (n : Nat) (b : Bytes), s.payload (s.slot n) = b ∧ s.calls n 0x0210 [3, 4, 5] true anyForm ∧ timeConfigOk b = true) ∧
    (∃ (s : State) (n : Nat) (b : Bytes), s.payload (s.slot n) = b ∧ s.calls n 0x0212 [3, 4, 5] true anyForm ∧ (s.time.state = 1 ∨ s.time.state = 2 ∨
      s.mayStep = false)) ∧
    (∃ (s : State) (n : Nat) (b : Bytes), s.payload (s.slot n) = b ∧ s.calls n 0x0212 [3, 4, 5] true anyForm ∧ s.time.state ≠ 1 ∧ s.time.state ≠ 2 ∧
      s.mayStep = true ∧ (payOk b 12 [] = false ∨ 1000000000 ≤ fld b 2 4)) :=
  ⟨⟨ask 0x0207 (zeros 92) (mod 3), 0, _, rfl, mailed_calls (by decide +kernel), by decide +kernel⟩,
   ⟨ask 0x0209 (zeros 16) (in0 (loaded0 .loaded)), 0, _, 0, rfl, mailed_calls (by decide +kernel), ⟨by decide +kernel, by decide +kernel, by decide +kernel⟩, by decide +kernel⟩,
   ⟨ask 0x0209 [0, 1] (in0 (loaded0 .loaded)), 0, _, 0, rfl, mailed_calls (by decide +kernel), ⟨by decide +kernel, by decide +kernel, by decide +kernel⟩, by decide +kernel⟩,
   ⟨ask 0x0209 (zeros 16) (in0 (loaded0 .running)), 0, _, 0, rfl, mailed_calls (by decide +kernel), ⟨by decide +kernel, by decide +kernel, by decide +kernel⟩⟩,
   ⟨ask 0x0210 [] (mod 3), 0, _, rfl, mailed_calls (by decide +kernel), by decide +kernel⟩,
   ⟨ask 0x0210 [255, 255, 0, 0, 0, 0, 3, 0, 0, 0] (mod 3), 0, _, rfl, mailed_calls (by decide +kernel), by decide +kernel⟩,
   ⟨ask 0x0212 (zeros 12) { mod 3 with time := { state := 1 } }, 0, _, rfl, mailed_calls (by decide +kernel), by decide +kernel⟩,
   ⟨ask 0x0212 [] (mod 3), 0, _, rfl, mailed_calls (by decide +kernel), by decide +kernel, by decide +kernel, by decide +kernel, by decide +kernel⟩⟩

theorem test_hyps_configurationCommands_4 :
    (∃ (s : State) (n : Nat) (b : Bytes), s.payload (s.slot n) = b ∧ s.calls n 0x0212 [3, 4, 5] true anyForm ∧ s.time.state ≠ 1 ∧ s.time.state ≠ 2 ∧
      s.mayStep = true ∧ payOk b 12 [] = true ∧ fld b 2 4 < 1000000000) ∧
    (∃ (s : State) (n : Nat) (b : Bytes), s.payload (s.slot n) = b ∧ s.calls n 0x0402 [3, 4, 5] true anyForm ∧ (payOk b 20 [(2, 2)] = false ∨
      calIndexes.contains (fld b 0 2) = false ∨ calOk (fld b 0 2) (sub b 4 16) = false)) ∧
    (∃ (s : State) (n : Nat) (b : Bytes), s.payload (s.slot n) = b ∧ s.calls n 0x0402 [3, 4, 5] true anyForm ∧ payOk b 20 [(2, 2)] = true ∧
      calIndexes.contains (fld b 0 2) = true ∧ calOk (fld b 0 2) (sub b 4 16) = true) ∧
    (∃ (s : State) (n : Nat) (b : Bytes), s.payload (s.slot n) = b ∧ s.calls n 0x0601 [3, 4, 5] true anyForm ∧ (payOk b 8 [(2, 6)] = false ∨ fld b 0
      2 < 6000 ∨ s.capMax < fld b 0 2)) ∧
    (∃ (s : State) (n : Nat) (b : Bytes), s.payload (s.slot n) = b ∧ s.calls n 0x0601 [3, 4, 5] true anyForm ∧ payOk b 8 [(2, 6)] = true ∧ 6000 ≤ fld
      b 0 2 ∧ fld b 0 2 ≤ s.capMax ∧ (({ s with gran := { s.gran with cap := fld b 0 2 } } : State).gMax < (s.granted.map fun p => (s.part
      p).pwr.idle + 100).sum)) ∧
    (∃ (s : State) (n : Nat) (b : Bytes), s.payload (s.slot n) = b ∧ s.calls n 0x0601 [3, 4, 5] true anyForm ∧ payOk b 8 [(2, 6)] = true ∧ 6000 ≤ fld
      b 0 2 ∧ fld b 0 2 ≤ s.capMax ∧ ((s.granted.map fun p => (s.part p).pwr.idle + 100).sum ≤
      ({ s with gran := { s.gran with cap := fld b 0 2 } } : State).gMax)) :=
  ⟨⟨ask 0x0212 (zeros 12) (mod 3), 0, _, rfl, mailed_calls (by decide +kernel), by decide +kernel, by decide +kernel, by decide +kernel, by decide +kernel, by decide +kernel⟩,
   ⟨ask 0x0402 [] (mod 3), 0, _, rfl, mailed_calls (by decide +kernel), by decide +kernel⟩,
   ⟨ask 0x0402 (zeros 4 ++ natLe 4 0x3F800000 ++ zeros 12) (mod 3), 0, _, rfl, mailed_calls (by decide +kernel), by decide +kernel, by decide +kernel, by decide +kernel⟩,
   ⟨ask 0x0601 (natLe 2 100 ++ zeros 6) (mod 3), 0, _, rfl, mailed_calls (by decide +kernel), by decide +kernel⟩,
   ⟨ask 0x0601 (natLe 2 6000 ++ zeros 6) (in0 { loaded0 .armed with pwr := { grant := 1, idle := 8000 } }), 0, _, rfl, mailed_calls (by decide +kernel), by decide +kernel, by decide +kernel, by decide +kernel, by decide +kernel⟩,
   ⟨ask 0x0601 (natLe 2 6000 ++ zeros 6) (mod 3), 0, _, rfl, mailed_calls (by decide +kernel), by decide +kernel, by decide +kernel, by decide +kernel, by decide +kernel⟩⟩

theorem test_hyps_trustCommands_1 :
    (∃ (s : State) (n i : Nat) (b : Bytes) (ok : Bool), ∃ (c : Instr), s.calls n 0x0010 locked4 false (s.authRow i) ∧ s.payload (s.slot n) = b ∧ ((i
      = 1 ∧ c = .authOwnerSession n ok) ∨ (i = 2 ∧ c = .authOwnerRecord n ok) ∨ (i = 3 ∧ c = .authOwnerPolicy n ok)) ∧ fld b 0 1 ≠ 0) ∧
    (∃ (s : State) (n i : Nat) (b : Bytes) (ok : Bool), ∃ (c : Instr), s.calls n 0x0010 locked4 false (s.authRow i) ∧ s.payload (s.slot n) = b ∧ ((i
      = 1 ∧ c = .authOwnerSession n ok) ∨ (i = 2 ∧ c = .authOwnerRecord n ok) ∨ (i = 3 ∧ c = .authOwnerPolicy n ok)) ∧ fld b 0 1 = 0 ∧ (segArgs b
      = false ∨ s.segOrder authKey b = false)) ∧
    (∃ (s : State) (n i : Nat) (b : Bytes) (ok : Bool), ∃ (c : Instr), s.calls n 0x0010 locked4 false (s.authRow i) ∧ s.payload (s.slot n) = b ∧ ((i
      = 1 ∧ c = .authOwnerSession n ok) ∨ (i = 2 ∧ c = .authOwnerRecord n ok) ∨ (i = 3 ∧ c = .authOwnerPolicy n ok)) ∧ fld b 0 1 = 0 ∧ segArgs b
      = true ∧ s.segOrder authKey b = true ∧ segLast b = false) ∧
    (∃ (s : State) (n i : Nat) (b : Bytes) (ok : Bool), ∃ (c : Instr), s.calls n 0x0010 locked4 false (s.authRow i) ∧ s.payload (s.slot n) = b ∧ ((i
      = 1 ∧ c = .authOwnerSession n ok) ∨ (i = 2 ∧ c = .authOwnerRecord n ok) ∨ (i = 3 ∧ c = .authOwnerPolicy n ok)) ∧ fld b 0 1 = 0 ∧ segArgs b
      = true ∧ s.segOrder authKey b = true ∧ segLast b = true ∧ objKind (s.segData authKey b) ≠ i) ∧
    (∃ (s : State) (n : Nat) (b o : Bytes) (_ok : Bool), s.calls n 0x0010 locked4 false (s.authRow 1) ∧ s.payload (s.slot n) = b ∧ fld b 0 1 = 0 ∧
      segArgs b = true ∧ s.segOrder authKey b = true ∧ segLast b = true ∧ s.segData authKey b = o ∧ objKind o = 1 ∧ objForm o 0 = false) ∧
    (∃ (s : State) (n : Nat) (b o : Bytes) (ok : Bool), s.calls n 0x0010 locked4 false (s.authRow 1) ∧ s.payload (s.slot n) = b ∧ fld b 0 1 = 0 ∧
      segArgs b = true ∧ s.segOrder authKey b = true ∧ segLast b = true ∧ s.segData authKey b = o ∧ objKind o = 1 ∧ objForm o 0 = true ∧ (ok =
      false ∨ sub o 8 16 ≠ Config.serial ∨ s.byOwner o = false ∨ (∀ k ∈ s.sec.sess, k.num ≠ objArg o) ∨ ∃ k, (s.sec.sess.find? fun x => x.num ==
      objArg o) = some k ∧ sub o 24 32 ≠ k.bind)) ∧
    (∃ (s : State) (n : Nat) (b o : Bytes) (ok : Bool), ∃ k, s.calls n 0x0010 locked4 false (s.authRow 1) ∧ s.payload (s.slot n) = b ∧ fld b 0 1 = 0
      ∧ segArgs b = true ∧ s.segOrder authKey b = true ∧ segLast b = true ∧ s.segData authKey b = o ∧ objKind o = 1 ∧ objForm o 0 = true ∧ ok =
      true ∧ sub o 8 16 = Config.serial ∧ s.byOwner o = true ∧ ((s.sec.sess.find? fun x => x.num == objArg o) = some k) ∧ sub o 24 32 = k.bind) :=
  ⟨⟨ask 0x0010 [1] (mod 3), 0, 1, _, true, .authOwnerSession 0 true, mailed_calls (by decide +kernel), rfl, .inl ⟨rfl, rfl⟩, by decide +kernel⟩,
   ⟨ask 0x0010 [0] (mod 3), 0, 1, _, true, .authOwnerSession 0 true, mailed_calls (by decide +kernel), rfl, .inl ⟨rfl, rfl⟩, by decide +kernel, by decide +kernel⟩,
   ⟨ask 0x0010 ([0, 1, 0, 0, 1] ++ zeros 12) (mod 3), 0, 1, _, true, .authOwnerSession 0 true, mailed_calls (by decide +kernel), rfl, .inl ⟨rfl, rfl⟩, by decide +kernel, by decide +kernel, by decide +kernel, by decide +kernel⟩,
   ⟨authSt (signed 9 0 0 (zeros 32) []) {}, 0, 1, _, true, .authOwnerSession 0 true, mailed_calls (by decide +kernel), rfl, .inl ⟨rfl, rfl⟩, by decide +kernel, by decide +kernel, by decide +kernel, by decide +kernel, by decide +kernel⟩,
   ⟨authSt (signed 1 0 1 (zeros 32) [0]) {}, 0, _, _, true, mailed_calls (by decide +kernel), rfl, by decide +kernel, by decide +kernel, by decide +kernel, by decide +kernel, rfl, by decide +kernel, by decide +kernel⟩,
   ⟨authSt (signed 1 0 1 (zeros 32) []) {}, 0, _, _, false, mailed_calls (by decide +kernel), rfl, by decide +kernel, by decide +kernel, by decide +kernel, by decide +kernel, rfl, by decide +kernel, by decide +kernel, .inl rfl⟩,
   ⟨authSt (signed 1 0 1 (zeros 32) []) { owners := [owner0], sess := [{ num := 1, keys := [], bind := zeros 32 }] }, 0, _, _, true, _, mailed_calls (by decide +kernel), rfl, by decide +kernel, by decide +kernel, by decide +kernel, by decide +kernel, rfl, by decide +kernel, by decide +kernel, by decide +kernel, rfl, by decide +kernel, got _ (by decide +kernel), by decide +kernel⟩⟩

theorem test_hyps_trustCommands_2 :
    (∃ (s : State) (n : Nat) (b o : Bytes) (_ok signer : Bool), s.calls n 0x0010 locked4 false (s.authRow 2) ∧ s.payload (s.slot n) = b ∧ fld b 0 1 =
      0 ∧ segArgs b = true ∧ s.segOrder authKey b = true ∧ segLast b = true ∧ s.segData authKey b = o ∧ objKind o = 2 ∧ signer = (if
      s.sec.ownerSlot = none then decide (128 ≤ objSigner o) && s.sec.vendorOk (objSigner o - 128) else s.byOwner o) ∧ s.ownerAgain o = true) ∧
    (∃ (s : State) (n : Nat) (b o : Bytes) (_ok signer : Bool), s.calls n 0x0010 locked4 false (s.authRow 2) ∧ s.payload (s.slot n) = b ∧ fld b 0 1 =
      0 ∧ segArgs b = true ∧ s.segOrder authKey b = true ∧ segLast b = true ∧ s.segData authKey b = o ∧ objKind o = 2 ∧ signer = (if
      s.sec.ownerSlot = none then decide (128 ≤ objSigner o) && s.sec.vendorOk (objSigner o - 128) else s.byOwner o) ∧ s.ownerAgain o = false ∧
      objForm o 3520 = false) ∧
    (∃ (s : State) (n : Nat) (b o : Bytes) (ok signer : Bool), s.calls n 0x0010 locked4 false (s.authRow 2) ∧ s.payload (s.slot n) = b ∧ fld b 0 1 =
      0 ∧ segArgs b = true ∧ s.segOrder authKey b = true ∧ segLast b = true ∧ s.segData authKey b = o ∧ objKind o = 2 ∧ signer = (if
      s.sec.ownerSlot = none then decide (128 ≤ objSigner o) && s.sec.vendorOk (objSigner o - 128) else s.byOwner o) ∧ s.ownerAgain o = false ∧
      objForm o 3520 = true ∧ (ok = false ∨ sub o 8 16 ≠ Config.serial ∨ sub o 24 32 ≠ zeros 32 ∨ signer = false)) ∧
    (∃ (s : State) (n : Nat) (b o : Bytes) (ok signer : Bool), s.calls n 0x0010 locked4 false (s.authRow 2) ∧ s.payload (s.slot n) = b ∧ fld b 0 1 =
      0 ∧ segArgs b = true ∧ s.segOrder authKey b = true ∧ segLast b = true ∧ s.segData authKey b = o ∧ objKind o = 2 ∧ signer = (if
      s.sec.ownerSlot = none then decide (128 ≤ objSigner o) && s.sec.vendorOk (objSigner o - 128) else s.byOwner o) ∧ s.ownerAgain o = false ∧
      objForm o 3520 = true ∧ ok = true ∧ sub o 8 16 = Config.serial ∧ sub o 24 32 = zeros 32 ∧ signer = true ∧ 8 ≤ s.sec.owners.length) ∧
    (∃ (s : State) (n : Nat) (b o : Bytes) (ok signer : Bool), s.calls n 0x0010 locked4 false (s.authRow 2) ∧ s.payload (s.slot n) = b ∧ fld b 0 1 =
      0 ∧ segArgs b = true ∧ s.segOrder authKey b = true ∧ segLast b = true ∧ s.segData authKey b = o ∧ objKind o = 2 ∧ signer = (if
      s.sec.ownerSlot = none then decide (128 ≤ objSigner o) && s.sec.vendorOk (objSigner o - 128) else s.byOwner o) ∧ s.ownerAgain o = false ∧
      objForm o 3520 = true ∧ ok = true ∧ sub o 8 16 = Config.serial ∧ sub o 24 32 = zeros 32 ∧ signer = true ∧ s.sec.owners.length < 8 ∧ objArg
      o ≠ s.sec.owners.length) ∧
    (∃ (s : State) (n : Nat) (b o : Bytes) (ok signer : Bool), s.calls n 0x0010 locked4 false (s.authRow 2) ∧ s.payload (s.slot n) = b ∧ fld b 0 1 =
      0 ∧ segArgs b = true ∧ s.segOrder authKey b = true ∧ segLast b = true ∧ s.segData authKey b = o ∧ objKind o = 2 ∧ signer = (if
      s.sec.ownerSlot = none then decide (128 ≤ objSigner o) && s.sec.vendorOk (objSigner o - 128) else s.byOwner o) ∧ s.ownerAgain o = false ∧
      objForm o 3520 = true ∧ ok = true ∧ sub o 8 16 = Config.serial ∧ sub o 24 32 = zeros 32 ∧ signer = true ∧ s.sec.owners.length < 8 ∧ objArg
      o = s.sec.owners.length) ∧
    (∃ (s : State) (n : Nat) (b o : Bytes) (_ok : Bool), s.calls n 0x0010 locked4 false (s.authRow 3) ∧ s.payload (s.slot n) = b ∧ fld b 0 1 = 0 ∧
      segArgs b = true ∧ s.segOrder authKey b = true ∧ segLast b = true ∧ s.segData authKey b = o ∧ objKind o = 3 ∧ objForm o 64 = false) :=
  ⟨⟨authSt (record0 0) { ownerLost := true, owners := [ownerKeyOf (record0 0 ++ [0]) 0] }, 0, _, record0 0 ++ [0], true, _, mailed_calls (by decide +kernel), rfl, by decide +kernel, by decide +kernel, by decide +kernel, by decide +kernel, rfl, by decide +kernel, rfl, again (o := record0 0 ++ [0]) rfl rfl (by decide +kernel)⟩,
   ⟨authSt (signed 2 128 0 (zeros 32) []) {}, 0, _, _, true, _, mailed_calls (by decide +kernel), rfl, by decide +kernel, by decide +kernel, by decide +kernel, by decide +kernel, rfl, by decide +kernel, rfl, by decide +kernel, by decide +kernel⟩,
   ⟨authSt (record0 0) {}, 0, _, _, false, _, mailed_calls (by decide +kernel), rfl, by decide +kernel, by decide +kernel, by decide +kernel, by decide +kernel, rfl, by decide +kernel, rfl, by decide +kernel, by decide +kernel, .inl rfl⟩,
   ⟨authSt (signed 2 7 8 (zeros 32) (zeros 3520)) { owners := List.replicate 8 owner0 }, 0, _, _, true, _, mailed_calls (by decide +kernel), rfl, by decide +kernel, by decide +kernel, by decide +kernel, by decide +kernel, rfl, by decide +kernel, rfl, by decide +kernel, by decide +kernel, by decide +kernel, rfl, by decide +kernel, by decide +kernel, by decide +kernel⟩,
   ⟨authSt (record0 1) {}, 0, _, _, true, _, mailed_calls (by decide +kernel), rfl, by decide +kernel, by decide +kernel, by decide +kernel, by decide +kernel, rfl, by decide +kernel, rfl, by decide +kernel, by decide +kernel, by decide +kernel, rfl, by decide +kernel, by decide +kernel, by decide +kernel, by decide +kernel⟩,
   ⟨authSt (record0 0) {}, 0, _, _, true, _, mailed_calls (by decide +kernel), rfl, by decide +kernel, by decide +kernel, by decide +kernel, by decide +kernel, rfl, by decide +kernel, rfl, by decide +kernel, by decide +kernel, by decide +kernel, rfl, by decide +kernel, by decide +kernel, by decide +kernel, by decide +kernel⟩,
   ⟨authSt (signed 3 0 0 (zeros 32) []) {}, 0, _, _, true, mailed_calls (by decide +kernel), rfl, by decide +kernel, by decide +kernel, by decide +kernel, by decide +kernel, rfl, by decide +kernel, by decide +kernel⟩⟩

theorem test_hyps_trustCommands_3 :
    (∃ (s : State) (n : Nat) (b o : Bytes) (ok : Bool), s.calls n 0x0010 locked4 false (s.authRow 3) ∧ s.payload (s.slot n) = b ∧ fld b 0 1 = 0 ∧
      segArgs b = true ∧ s.segOrder authKey b = true ∧ segLast b = true ∧ s.segData authKey b = o ∧ objKind o = 3 ∧ objForm o 64 = true ∧ (ok =
      false ∨ sub o 8 16 ≠ Config.serial ∨ sub o 24 32 ≠ zeros 32 ∨ s.byOwner o = false)) ∧
    (∃ (s : State) (n : Nat) (b o : Bytes) (ok : Bool), s.calls n 0x0010 locked4 false (s.authRow 3) ∧ s.payload (s.slot n) = b ∧ fld b 0 1 = 0 ∧
      segArgs b = true ∧ s.segOrder authKey b = true ∧ segLast b = true ∧ s.segData authKey b = o ∧ objKind o = 3 ∧ objForm o 64 = true ∧ ok =
      true ∧ sub o 8 16 = Config.serial ∧ sub o 24 32 = zeros 32 ∧ s.byOwner o = true ∧ (objArg o ≠ 0 ∨ policyOk (sub o 64 64) = false ∨ fld (sub
      o 64 64) 16 4 ≤ fld s.policy 16 4 ∨ fld (sub o 64 64) 0 4 < fld s.policy 0 4)) ∧
    (∃ (s : State) (n : Nat) (b o : Bytes) (ok : Bool), s.calls n 0x0010 locked4 false (s.authRow 3) ∧ s.payload (s.slot n) = b ∧ fld b 0 1 = 0 ∧
      segArgs b = true ∧ s.segOrder authKey b = true ∧ segLast b = true ∧ s.segData authKey b = o ∧ objKind o = 3 ∧ objForm o 64 = true ∧ ok =
      true ∧ sub o 8 16 = Config.serial ∧ sub o 24 32 = zeros 32 ∧ s.byOwner o = true ∧ objArg o = 0 ∧ policyOk (sub o 64 64) = true ∧ fld
      s.policy 16 4 < fld (sub o 64 64) 16 4 ∧ fld s.policy 0 4 ≤ fld (sub o 64 64) 0 4) ∧
    (∃ (s : State) (n : Nat) (b o : Bytes) (good : Prop), s.calls n 0x0302 locked4 false (form 1) ∧ s.payload (s.slot n) = b ∧ segArgs b = true ∧
      s.segOrder 0x030201 b = true ∧ segLast b = true ∧ s.segData 0x030201 b = o ∧ good = (o.length = 1696 ∧ fld o 0 4 = 0x4553394B ∧ fld o 4 4 =
      0 ∧ fld o 24 40 = 0 ∧ sub o 8 16 = Config.serial) ∧ ¬ good) ∧
    (∃ (s : State) (n : Nat) (b o : Bytes) (good : Prop), s.calls n 0x0302 locked4 false (form 1) ∧ s.payload (s.slot n) = b ∧ segArgs b = true ∧
      s.segOrder 0x030201 b = true ∧ segLast b = true ∧ s.segData 0x030201 b = o ∧ good = (o.length = 1696 ∧ fld o 0 4 = 0x4553394B ∧ fld o 4 4 =
      0 ∧ fld o 24 40 = 0 ∧ sub o 8 16 = Config.serial) ∧ good ∧ sub o 64 64 ≠ Config.shake s.offer 64) ∧
    (∃ (s : State) (n : Nat) (b o : Bytes) (good : Prop), s.calls n 0x0302 locked4 false (form 1) ∧ s.payload (s.slot n) = b ∧ segArgs b = true ∧
      s.segOrder 0x030201 b = true ∧ segLast b = true ∧ s.segData 0x030201 b = o ∧ good = (o.length = 1696 ∧ fld o 0 4 = 0x4553394B ∧ fld o 4 4 =
      0 ∧ fld o 24 40 = 0 ∧ sub o 8 16 = Config.serial) ∧ good ∧ sub o 64 64 = Config.shake s.offer 64) ∧
    (∃ (s : State) (n key : Nat) (b : Bytes) (ok : Bool) (c : Instr) (code : Nat) (ms : List Nat), ((c = .kemSessionEstablish n ∧ key = 0x030201 ∧
      code = 0x0302 ∧ ms = locked4) ∨ (c = .debugUnlock n ok ∧ key = 0x030301 ∧ code = 0x0303 ∧ ms = [3, 4, 5]) ∨ (c = .zeroise n ok ∧ key =
      0x030401 ∧ code = 0x0304 ∧ ms = locked4)) ∧ s.calls n code ms false (form 1) ∧ s.payload (s.slot n) = b ∧ (segArgs b = false ∨ s.segOrder
      key b = false)) :=
  ⟨⟨authSt (signed 3 0 0 (zeros 32) policy0) {}, 0, _, _, false, mailed_calls (by decide +kernel), rfl, by decide +kernel, by decide +kernel, by decide +kernel, by decide +kernel, rfl, by decide +kernel, by decide +kernel, .inl rfl⟩,
   ⟨authSt (signed 3 0 1 (zeros 32) policy0) { owners := [owner0] }, 0, _, _, true, mailed_calls (by decide +kernel), rfl, by decide +kernel, by decide +kernel, by decide +kernel, by decide +kernel, rfl, by decide +kernel, by decide +kernel, by decide +kernel, rfl, by decide +kernel, by decide +kernel, by decide +kernel⟩,
   ⟨authSt (signed 3 0 0 (zeros 32) policy0) { owners := [owner0] }, 0, _, _, true, mailed_calls (by decide +kernel), rfl, by decide +kernel, by decide +kernel, by decide +kernel, by decide +kernel, rfl, by decide +kernel, by decide +kernel, by decide +kernel, rfl, by decide +kernel, by decide +kernel, by decide +kernel, by decide +kernel, by decide +kernel, by decide +kernel⟩,
   ⟨ask 0x0302 (lastSeg 1) (segd 0x030201 (zeros 10) {} (mod 3)), 0, _, _, _, mailed_calls (by decide +kernel), rfl, by decide +kernel, by decide +kernel, by decide +kernel, rfl, rfl, by decide +kernel⟩,
   ⟨ask 0x0302 (lastSeg 1) (segd 0x030201 (kemObj (bump (Config.shake (mod 3).offer 64))) {} (mod 3)), 0, _, _, _, mailed_calls (by decide +kernel), rfl, by decide +kernel, by decide +kernel, by decide +kernel, rfl, rfl, ⟨by decide +kernel, by decide +kernel, by decide +kernel, by decide +kernel, rfl⟩, (ne_bump (Config.shake (mod 3).offer 64) (by decide)).symm⟩,
   ⟨ask 0x0302 (lastSeg 1) (segd 0x030201 (kemObj (Config.shake (mod 3).offer 64)) {} (mod 3)), 0, _, _, _, mailed_calls (by decide +kernel), rfl, by decide +kernel, by decide +kernel, by decide +kernel, rfl, rfl, ⟨by decide +kernel, by decide +kernel, by decide +kernel, by decide +kernel, rfl⟩, rfl⟩,
   ⟨ask 0x0302 [1] (mod 3), 0, 0x030201, _, true, .kemSessionEstablish 0, 0x0302, locked4, .inl ⟨rfl, rfl, rfl, rfl⟩, mailed_calls (by decide +kernel), rfl, by decide +kernel⟩⟩

theorem test_hyps_trustCommands_4 :
    (∃ (s : State) (n key : Nat) (b : Bytes) (ok : Bool) (c : Instr) (code : Nat) (ms : List Nat), ((c = .kemSessionEstablish n ∧ key = 0x030201 ∧
      code = 0x0302 ∧ ms = locked4) ∨ (c = .debugUnlock n ok ∧ key = 0x030301 ∧ code = 0x0303 ∧ ms = [3, 4, 5]) ∨ (c = .zeroise n ok ∧ key =
      0x030401 ∧ code = 0x0304 ∧ ms = locked4)) ∧ s.calls n code ms false (form 1) ∧ s.payload (s.slot n) = b ∧ segArgs b = true ∧ s.segOrder key
      b = true ∧ segLast b = false) ∧
    (∃ (s : State) (n : Nat), s.calls n 0x0302 locked4 false (form 2) ∧ s.authOk n (s.slot n) = true) ∧
    (∃ (s : State) (n : Nat), s.calls n 0x0302 locked4 false (form 2) ∧ s.authOk n (s.slot n) = false) ∧
    (∃ (s : State), ∃ k, s.sec.owner = some k) ∧
    (∃ (s : State), s.sec.owner = none) ∧
    (∃ (s : State) (n : Nat), s.calls n 0x0303 [3, 4, 5] false (form 0)) ∧
    (∃ (s : State) (n : Nat), s.calls n 0x0304 locked4 false (form 0)) :=
  ⟨⟨ask 0x0302 ([1, 1, 0, 0, 1] ++ zeros 12) (mod 3), 0, 0x030201, _, true, .kemSessionEstablish 0, 0x0302, locked4, .inl ⟨rfl, rfl, rfl, rfl⟩, mailed_calls (by decide +kernel), rfl, by decide +kernel, by decide +kernel, by decide +kernel⟩,
   ⟨ask 0x0302 [2] (mod 3), 0, mailed_calls (by decide +kernel), posted_auth _ _ _ _ _ _⟩,
   ⟨{ ask 0x0302 [2] (mod 3) with sec := {} }, 0, ⟨by decide, by decide, by decide, by decide, by decide, by decide, (fun h => absurd h (by decide)), by decide⟩, by decide +kernel⟩,
   ⟨{ mod 3 with sec := { owner := some mailKey } }, mailKey, by decide +kernel⟩,
   ⟨mod 3, by decide +kernel⟩,
   ⟨ask 0x0303 [0] (mod 3), 0, mailed_calls (by decide +kernel)⟩,
   ⟨ask 0x0304 [0] (mod 3), 0, mailed_calls (by decide +kernel)⟩⟩

theorem test_hyps_trustCommands_5 :
    (∃ (s : State) (n : Nat) (b o : Bytes) (ok : Bool) (still good : Prop), s.calls n 0x0303 [3, 4, 5] false (form 1) ∧ s.payload (s.slot n) = b ∧
      segArgs b = true ∧ s.segOrder 0x030301 b = true ∧ segLast b = true ∧ s.segData 0x030301 b = o ∧ (still = (∀ p, p < 8 → (s.part p).st ∈
      [.empty, .loaded, .armed, .faulted])) ∧ good = (ok = true ∧ objKind o = 4 ∧ sub o 8 16 = Config.serial ∧ s.byOwner o = true ∧
      s.sec.dbgNonce = some (sub o 24 32)) ∧ ¬ still) ∧
    (∃ (s : State) (n : Nat) (b o : Bytes) (ok : Bool) (still good : Prop), s.calls n 0x0303 [3, 4, 5] false (form 1) ∧ s.payload (s.slot n) = b ∧
      segArgs b = true ∧ s.segOrder 0x030301 b = true ∧ segLast b = true ∧ s.segData 0x030301 b = o ∧ (still = (∀ p, p < 8 → (s.part p).st ∈
      [.empty, .loaded, .armed, .faulted])) ∧ good = (ok = true ∧ objKind o = 4 ∧ sub o 8 16 = Config.serial ∧ s.byOwner o = true ∧
      s.sec.dbgNonce = some (sub o 24 32)) ∧ still ∧ (bit (fld s.policy 4 1) 0 = false ∨ (objForm o 0 = true ∧ ¬ good))) ∧
    (∃ (s : State) (n : Nat) (b o : Bytes) (ok : Bool) (still good : Prop), s.calls n 0x0303 [3, 4, 5] false (form 1) ∧ s.payload (s.slot n) = b ∧
      segArgs b = true ∧ s.segOrder 0x030301 b = true ∧ segLast b = true ∧ s.segData 0x030301 b = o ∧ (still = (∀ p, p < 8 → (s.part p).st ∈
      [.empty, .loaded, .armed, .faulted])) ∧ good = (ok = true ∧ objKind o = 4 ∧ sub o 8 16 = Config.serial ∧ s.byOwner o = true ∧
      s.sec.dbgNonce = some (sub o 24 32)) ∧ still ∧ bit (fld s.policy 4 1) 0 = true ∧ objForm o 0 = true ∧ good ∧ (objArg o = 0 ∨ fld s.policy 8
      4 < objArg o)) ∧
    (∃ (s : State) (n : Nat) (b o : Bytes) (ok : Bool) (still good : Prop), s.calls n 0x0303 [3, 4, 5] false (form 1) ∧ s.payload (s.slot n) = b ∧
      segArgs b = true ∧ s.segOrder 0x030301 b = true ∧ segLast b = true ∧ s.segData 0x030301 b = o ∧ (still = (∀ p, p < 8 → (s.part p).st ∈
      [.empty, .loaded, .armed, .faulted])) ∧ good = (ok = true ∧ objKind o = 4 ∧ sub o 8 16 = Config.serial ∧ s.byOwner o = true ∧
      s.sec.dbgNonce = some (sub o 24 32)) ∧ still ∧ bit (fld s.policy 4 1) 0 = true ∧ objForm o 0 = true ∧ good ∧ 1 ≤ objArg o ∧ objArg o ≤ fld
      s.policy 8 4) ∧
    (∃ (s : State) (n : Nat), s.calls n 0x0303 [3, 4, 5] false (form 2) ∧ s.debugOn = false) ∧
    (∃ (s : State) (n : Nat), s.calls n 0x0303 [3, 4, 5] false (form 2) ∧ s.debugOn = true) ∧
    (∃ (s : State), ∃ x, s.sec.unlocked = some x ∧ s.opMs < x) :=
  ⟨⟨ask 0x0303 (lastSeg 1) (segd 0x030301 (signed 4 0 5 (zeros 32) []) {} (in0 (loaded0 .running))), 0, _, _, true, _, _, mailed_calls (by decide +kernel), rfl, by decide +kernel, by decide +kernel, by decide +kernel, rfl, rfl, rfl, by decide +kernel⟩,
   ⟨debugSt 5 {} (zeros 64), 0, _, _, true, _, _, mailed_calls (by decide +kernel), rfl, by decide +kernel, by decide +kernel, by decide +kernel, rfl, rfl, rfl, by decide +kernel, .inl (by decide +kernel)⟩,
   ⟨debugSt 0 { owners := [owner0], dbgNonce := some (zeros 32) } policy0, 0, _, _, true, _, _, mailed_calls (by decide +kernel), rfl, by decide +kernel, by decide +kernel, by decide +kernel, rfl, rfl, rfl, by decide +kernel, by decide +kernel, by decide +kernel, ⟨rfl, by decide +kernel, rfl, by decide +kernel, by decide +kernel⟩, by decide +kernel⟩,
   ⟨debugSt 5 { owners := [owner0], dbgNonce := some (zeros 32) } policy0, 0, _, _, true, _, _, mailed_calls (by decide +kernel), rfl, by decide +kernel, by decide +kernel, by decide +kernel, rfl, rfl, rfl, by decide +kernel, by decide +kernel, by decide +kernel, ⟨rfl, by decide +kernel, rfl, by decide +kernel, by decide +kernel⟩, by decide +kernel, by decide +kernel⟩,
   ⟨ask 0x0303 [2] (mod 3), 0, mailed_calls (by decide +kernel), by decide +kernel⟩,
   ⟨ask 0x0303 [2] { mod 3 with sec := { unlocked := some 5 } }, 0, mailed_calls (by decide +kernel), by decide +kernel⟩,
   ⟨{ mod 3 with sec := { unlocked := some 5 } }, 5, by decide +kernel, by decide +kernel⟩⟩

theorem test_hyps_trustCommands_6 :
    (∃ (s : State), ∃ x, s.sec.unlocked = some x ∧ x ≤ s.opMs) ∧
    (∃ (s : State), s.sec.unlocked = none) ∧
    (∃ (s : State) (n : Nat) (b o : Bytes) (ok : Bool) (good : Prop), s.calls n 0x0304 locked4 false (form 1) ∧ s.payload (s.slot n) = b ∧ segArgs b
      = true ∧ s.segOrder 0x030401 b = true ∧ segLast b = true ∧ s.segData 0x030401 b = o ∧ good = (ok = true ∧ objKind o = 5 ∧ sub o 8 16 =
      Config.serial ∧ s.byOwner o = true ∧ s.sec.zeroNonce = some (sub o 24 32)) ∧ objArg o = 1 ∧ s.ctl.mstate ≠ 4) ∧
    (∃ (s : State) (n : Nat) (b o : Bytes) (ok : Bool) (good : Prop), s.calls n 0x0304 locked4 false (form 1) ∧ s.payload (s.slot n) = b ∧ segArgs b
      = true ∧ s.segOrder 0x030401 b = true ∧ segLast b = true ∧ s.segData 0x030401 b = o ∧ good = (ok = true ∧ objKind o = 5 ∧ sub o 8 16 =
      Config.serial ∧ s.byOwner o = true ∧ s.sec.zeroNonce = some (sub o 24 32)) ∧ ((objArg o = 1 ∧ s.ctl.mstate = 4 ∧ bit (fld s.policy 4 1) 1 =
      false) ∨ ((objArg o ≠ 1 ∨ s.ctl.mstate = 4) ∧ objForm o 0 = true ∧ ¬ good))) ∧
    (∃ (s : State) (n : Nat) (b o : Bytes) (ok : Bool) (good : Prop), s.calls n 0x0304 locked4 false (form 1) ∧ s.payload (s.slot n) = b ∧ segArgs b
      = true ∧ s.segOrder 0x030401 b = true ∧ segLast b = true ∧ s.segData 0x030401 b = o ∧ good = (ok = true ∧ objKind o = 5 ∧ sub o 8 16 =
      Config.serial ∧ s.byOwner o = true ∧ s.sec.zeroNonce = some (sub o 24 32)) ∧ objArg o ≠ 1 ∧ objForm o 0 = false) ∧
    (∃ (s : State) (n : Nat) (b o : Bytes) (ok : Bool) (good : Prop), s.calls n 0x0304 locked4 false (form 1) ∧ s.payload (s.slot n) = b ∧ segArgs b
      = true ∧ s.segOrder 0x030401 b = true ∧ segLast b = true ∧ s.segData 0x030401 b = o ∧ good = (ok = true ∧ objKind o = 5 ∧ sub o 8 16 =
      Config.serial ∧ s.byOwner o = true ∧ s.sec.zeroNonce = some (sub o 24 32)) ∧ objForm o 0 = true ∧ good ∧ 2 ≤ objArg o) ∧
    (∃ (s : State) (n : Nat) (b o : Bytes) (ok : Bool) (good : Prop), s.calls n 0x0304 locked4 false (form 1) ∧ s.payload (s.slot n) = b ∧ segArgs b
      = true ∧ s.segOrder 0x030401 b = true ∧ segLast b = true ∧ s.segData 0x030401 b = o ∧ good = (ok = true ∧ objKind o = 5 ∧ sub o 8 16 =
      Config.serial ∧ s.byOwner o = true ∧ s.sec.zeroNonce = some (sub o 24 32)) ∧ objForm o 0 = true ∧ good ∧ (objArg o = 0 ∨ (objArg o = 1 ∧
      s.ctl.mstate = 4 ∧ bit (fld s.policy 4 1) 1 = true))) :=
  ⟨⟨{ mod 3 with sec := { unlocked := some 0 } }, 0, by decide +kernel, by decide +kernel⟩,
   ⟨mod 3, by decide +kernel⟩,
   ⟨zeroSt 1 [] {}, 0, _, _, true, _, mailed_calls (by decide +kernel), rfl, by decide +kernel, by decide +kernel, by decide +kernel, rfl, rfl, by decide +kernel, by decide +kernel⟩,
   ⟨zeroSt 0 [] {}, 0, _, _, false, _, mailed_calls (by decide +kernel), rfl, by decide +kernel, by decide +kernel, by decide +kernel, rfl, rfl, .inr ⟨by decide +kernel, by decide +kernel, fun h => absurd h.1 (by decide)⟩⟩,
   ⟨zeroSt 0 [0] {}, 0, _, _, true, _, mailed_calls (by decide +kernel), rfl, by decide +kernel, by decide +kernel, by decide +kernel, rfl, rfl, by decide +kernel, by decide +kernel⟩,
   ⟨zeroSt 2 [] { owners := [owner0], zeroNonce := some (zeros 32) }, 0, _, _, true, _, mailed_calls (by decide +kernel), rfl, by decide +kernel, by decide +kernel, by decide +kernel, rfl, rfl, by decide +kernel, ⟨rfl, by decide +kernel, rfl, by decide +kernel, by decide +kernel⟩, by decide +kernel⟩,
   ⟨zeroSt 0 [] { owners := [owner0], zeroNonce := some (zeros 32) }, 0, _, _, true, _, mailed_calls (by decide +kernel), rfl, by decide +kernel, by decide +kernel, by decide +kernel, rfl, rfl, by decide +kernel, ⟨rfl, by decide +kernel, rfl, by decide +kernel, by decide +kernel⟩, .inl (by decide +kernel)⟩⟩

theorem test_hyps_serviceAndStoreCommands_1 :
    (∃ (s : State) (n : Nat), s.calls n 0x0003 [3, 4, 5] true (form 1) ∧ (∃ p, p < 8 ∧ (s.part p).st ∉ [.empty, .loaded, .armed, .faulted])) ∧
    (∃ (s : State) (n : Nat), s.calls n 0x0003 [3, 4, 5] true (form 1) ∧ (∀ p, p < 8 → (s.part p).st ∈ [.empty, .loaded, .armed, .faulted])) ∧
    (∃ (s : State) (n : Nat), s.calls n 0x0003 [3, 4, 5] true (form 0) ∧ s.mstate = 4) ∧
    (∃ (s : State) (n : Nat), s.calls n 0x0003 [3, 4, 5] true (form 0) ∧ s.mstate ≠ 4) ∧
    (∃ (s : State) (n : Nat) (b : Bytes) (img : FwImg) (good : Prop), s.calls n 0x0020 [3, 4, 5] true anyForm ∧ s.payload (s.slot n) = b ∧ good =
      (Config.shake (s.winRead (fld b 0 8) (fld b 8 4)) 32 = sub b 12 32 ∧ img.ok = true ∧ s.sec.vendorOk img.slot = true ∧ fld s.policy 0 4 ≤
      img.svn) ∧ (payOk b 44 [] = false ∨ s.intakeOk (fld b 0 8) (fld b 8 4) = false)) ∧
    (∃ (s : State) (n : Nat) (b : Bytes) (img : FwImg) (good : Prop), s.calls n 0x0020 [3, 4, 5] true anyForm ∧ s.payload (s.slot n) = b ∧ good =
      (Config.shake (s.winRead (fld b 0 8) (fld b 8 4)) 32 = sub b 12 32 ∧ img.ok = true ∧ s.sec.vendorOk img.slot = true ∧ fld s.policy 0 4 ≤
      img.svn) ∧ payOk b 44 [] = true ∧ s.intakeOk (fld b 0 8) (fld b 8 4) = true ∧ ¬ good) ∧
    (∃ (s : State) (n : Nat) (b : Bytes) (img : FwImg) (good : Prop), s.calls n 0x0020 [3, 4, 5] true anyForm ∧ s.payload (s.slot n) = b ∧ good =
      (Config.shake (s.winRead (fld b 0 8) (fld b 8 4)) 32 = sub b 12 32 ∧ img.ok = true ∧ s.sec.vendorOk img.slot = true ∧ fld s.policy 0 4 ≤
      img.svn) ∧ payOk b 44 [] = true ∧ s.intakeOk (fld b 0 8) (fld b 8 4) = true ∧ good) ∧
    (∃ (s : State) (n : Nat) (img : FwImg) (good : Prop), s.calls n 0x0021 [4] true anyForm ∧ img = (if s.sec.letter = 0 then s.sec.flashB else
      s.sec.flashA) ∧ (good = (img.ok = true ∧ s.sec.vendorOk img.slot = true ∧ fld (s.otp.inForce 4) 0 4 ≤ img.svn ∧ ∃ y ∈ s.sec.vendorAfter
      img, y.2.revoked = false)) ∧ ¬ good) :=
  ⟨⟨ask 0x0003 [1] (in0 (loaded0 .running)), 0, mailed_calls (by decide +kernel), by decide +kernel⟩,
   ⟨ask 0x0003 [1] (mod 3), 0, mailed_calls (by decide +kernel), by decide +kernel⟩,
   ⟨mailed 4 0x0003 [0] (mod 3), 0, mailed_calls (by decide +kernel), by decide +kernel⟩,
   ⟨ask 0x0003 [0] (mod 3), 0, mailed_calls (by decide +kernel), by decide +kernel⟩,
   ⟨ask 0x0020 [] (in0 {}), 0, _, {}, _, mailed_calls (by decide +kernel), rfl, rfl, by decide +kernel⟩,
   ⟨ask 0x0020 stagePay (in0 {}), 0, _, {}, _, mailed_calls (by decide +kernel), rfl, rfl, by decide +kernel, by decide +kernel, (fun h => absurd h.2.1 (by decide))⟩,
   ⟨ask 0x0020 stagePay (in0 {}), 0, _, { ok := true, svn := 5 }, _, mailed_calls (by decide +kernel), rfl, rfl, by decide +kernel, by decide +kernel, ⟨rfl, by decide, by decide +kernel, by decide +kernel⟩⟩,
   ⟨mailed 4 0x0021 [] { mod 3 with sec := { flashB := {} } }, 0, _, _, mailed_calls (by decide +kernel), rfl, rfl, by decide +kernel⟩⟩

theorem test_hyps_serviceAndStoreCommands_2 :
    (∃ (s : State) (n : Nat) (img : FwImg) (good : Prop), s.calls n 0x0021 [4] true anyForm ∧ img = (if s.sec.letter = 0 then s.sec.flashB else
      s.sec.flashA) ∧ (good = (img.ok = true ∧ s.sec.vendorOk img.slot = true ∧ fld (s.otp.inForce 4) 0 4 ≤ img.svn ∧ ∃ y ∈ s.sec.vendorAfter
      img, y.2.revoked = false)) ∧ good) ∧
    (∃ (s : State) (n blk cap : Nat) (b w : Bytes) (s1 : State), s.calls n 0x0401 [4] true anyForm ∧ s.payload (s.slot n) = b ∧ fld b 0 1 = blk ∧ fld
      b 1 1 = cap ∧ w = (if cap = 1 then s.captured else s.working blk) ∧ s1 = (if cap = 1 then
      { s.asOwner with otp := { s.otp with work := s.otp.work.put 5 w } } else s.asOwner) ∧ (payOk b 40 [(2, 6)] = false ∨ blk < 4 ∨ 6 < blk ∨ 1
      < cap ∨ (cap = 1 ∧ blk ≠ 5))) ∧
    (∃ (s : State) (n blk cap : Nat) (b w : Bytes) (s1 : State), s.calls n 0x0401 [4] true anyForm ∧ s.payload (s.slot n) = b ∧ fld b 0 1 = blk ∧ fld
      b 1 1 = cap ∧ w = (if cap = 1 then s.captured else s.working blk) ∧ s1 = (if cap = 1 then
      { s.asOwner with otp := { s.otp with work := s.otp.work.put 5 w } } else s.asOwner) ∧ payOk b 40 [(2, 6)] = true ∧ 4 ≤ blk ∧ blk ≤ 6 ∧ (cap
      = 0 ∨ (cap = 1 ∧ blk = 5)) ∧ Config.shake w 32 ≠ sub b 8 32) ∧
    (∃ (s : State) (n blk cap : Nat) (b w : Bytes) (s1 : State), s.calls n 0x0401 [4] true anyForm ∧ s.payload (s.slot n) = b ∧ fld b 0 1 = blk ∧ fld
      b 1 1 = cap ∧ w = (if cap = 1 then s.captured else s.working blk) ∧ s1 = (if cap = 1 then
      { s.asOwner with otp := { s.otp with work := s.otp.work.put 5 w } } else s.asOwner) ∧ payOk b 40 [(2, 6)] = true ∧ 4 ≤ blk ∧ blk ≤ 6 ∧ (cap
      = 0 ∨ (cap = 1 ∧ blk = 5)) ∧ Config.shake w 32 = sub b 8 32 ∧ w = s.otp.inForce blk) ∧
    (∃ (s : State) (n blk cap : Nat) (b w : Bytes) (s1 : State), s.calls n 0x0401 [4] true anyForm ∧ s.payload (s.slot n) = b ∧ fld b 0 1 = blk ∧ fld
      b 1 1 = cap ∧ w = (if cap = 1 then s.captured else s.working blk) ∧ s1 = (if cap = 1 then
      { s.asOwner with otp := { s.otp with work := s.otp.work.put 5 w } } else s.asOwner) ∧ payOk b 40 [(2, 6)] = true ∧ 4 ≤ blk ∧ blk ≤ 6 ∧ (cap
      = 0 ∨ (cap = 1 ∧ blk = 5)) ∧ Config.shake w 32 = sub b 8 32 ∧ w ≠ s.otp.inForce blk ∧ s.otp.spares blk = 0) ∧
    (∃ (s : State) (n blk cap : Nat) (b w : Bytes) (s1 : State), s.calls n 0x0401 [4] true anyForm ∧ s.payload (s.slot n) = b ∧ fld b 0 1 = blk ∧ fld
      b 1 1 = cap ∧ w = (if cap = 1 then s.captured else s.working blk) ∧ s1 = (if cap = 1 then
      { s.asOwner with otp := { s.otp with work := s.otp.work.put 5 w } } else s.asOwner) ∧ payOk b 40 [(2, 6)] = true ∧ 4 ≤ blk ∧ blk ≤ 6 ∧ (cap
      = 0 ∨ (cap = 1 ∧ blk = 5)) ∧ Config.shake w 32 = sub b 8 32 ∧ w ≠ s.otp.inForce blk ∧ s.otp.spares blk ≠ 0) ∧
    (∃ (s : State) (n blk key : Nat) (b o c : Bytes) (_ok : Bool) (head good : Prop), s.calls n 0x0404 locked4 false anyForm ∧ s.payload (s.slot n) =
      b ∧ fld b 0 1 = blk ∧ key = 0x040400 + blk ∧ s.segData key b = o ∧ sub o 64 (fld o 32 4) = c ∧ head = (fld o 0 4 = 0x564F394B ∧ fld o 4 1 =
      blk ∧ fld o 5 3 = 0 ∧ fld o 36 28 = 0 ∧ o.length = 64 + fld o 32 4 + 3309) ∧ (good = ((blk = 7 ∨ s.otp.spares blk = 0) ∧ (blk = 4 →
      policyOk c = true ∧ fld o 32 4 = 64) ∧ (blk = 5 → fld o 32 4 ≤ 5056) ∧ (blk = 6 → fld o 32 4 = 16 * calIndexes.length) ∧ (blk = 7 →
      (overlayUnits c).isSome = true))) ∧ (blk < 4 ∨ 7 < blk)) ∧
    (∃ (s : State) (n blk key : Nat) (b o c : Bytes) (_ok : Bool) (head good : Prop), s.calls n 0x0404 locked4 false anyForm ∧ s.payload (s.slot n) =
      b ∧ fld b 0 1 = blk ∧ key = 0x040400 + blk ∧ s.segData key b = o ∧ sub o 64 (fld o 32 4) = c ∧ head = (fld o 0 4 = 0x564F394B ∧ fld o 4 1 =
      blk ∧ fld o 5 3 = 0 ∧ fld o 36 28 = 0 ∧ o.length = 64 + fld o 32 4 + 3309) ∧ (good = ((blk = 7 ∨ s.otp.spares blk = 0) ∧ (blk = 4 →
      policyOk c = true ∧ fld o 32 4 = 64) ∧ (blk = 5 → fld o 32 4 ≤ 5056) ∧ (blk = 6 → fld o 32 4 = 16 * calIndexes.length) ∧ (blk = 7 →
      (overlayUnits c).isSome = true))) ∧ 4 ≤ blk ∧ blk ≤ 7 ∧ (segArgs b = false ∨ s.segOrder key b = false)) :=
  ⟨⟨mailed 4 0x0021 [] (mod 3), 0, _, _, mailed_calls (by decide +kernel), rfl, rfl, by decide +kernel⟩,
   ⟨mailed 4 0x0401 [] (mod 3), 0, 0, 0, _, _, _, mailed_calls (by decide +kernel), rfl, by decide +kernel, by decide +kernel, rfl, rfl, by decide +kernel⟩,
   ⟨mailed 4 0x0401 (commitPay (bump (Config.shake ((mod 3).working 4) 32))) (mod 3), 0, 4, 0, _, (mod 3).working 4, _, mailed_calls (by decide +kernel), rfl, by decide +kernel, by decide +kernel, rfl, rfl, by decide +kernel, by decide +kernel, by decide +kernel, by decide +kernel, ne_bump _ (by decide)⟩,
   ⟨mailed 4 0x0401 (commitPay (Config.shake ((mod 3).working 4) 32)) (mod 3), 0, 4, 0, _, (mod 3).working 4, _, mailed_calls (by decide +kernel), rfl, by decide +kernel, by decide +kernel, rfl, rfl, by decide +kernel, by decide +kernel, by decide +kernel, by decide +kernel, rfl, rfl⟩,
   ⟨mailed 4 0x0401 (commitPay (Config.shake (zeros 64) 32)) (spentSt 4), 0, 4, 0, _, zeros 64, _, mailed_calls (by decide +kernel), rfl, by decide +kernel, by decide +kernel, by decide +kernel, rfl, by decide +kernel, by decide +kernel, by decide +kernel, by decide +kernel, rfl, by decide +kernel, by decide +kernel⟩,
   ⟨mailed 4 0x0401 (commitPay (Config.shake (zeros 64) 32)) (spentSt 6), 0, 4, 0, _, zeros 64, _, mailed_calls (by decide +kernel), rfl, by decide +kernel, by decide +kernel, by decide +kernel, rfl, by decide +kernel, by decide +kernel, by decide +kernel, by decide +kernel, rfl, by decide +kernel, by decide +kernel⟩,
   ⟨ask 0x0404 [0] (mod 3), 0, 0, _, _, _, _, true, _, _, mailed_calls (by decide +kernel), rfl, by decide +kernel, rfl, rfl, rfl, rfl, rfl, by decide +kernel⟩,
   ⟨ask 0x0404 [6] (mod 3), 0, 6, _, _, _, _, true, _, _, mailed_calls (by decide +kernel), rfl, by decide +kernel, rfl, rfl, rfl, rfl, rfl, by decide +kernel, by decide +kernel, by decide +kernel⟩⟩

theorem test_hyps_serviceAndStoreCommands_3 :
    (∃ (s : State) (n blk key : Nat) (b o c : Bytes) (_ok : Bool) (head good : Prop), s.calls n 0x0404 locked4 false anyForm ∧ s.payload (s.slot n) =
      b ∧ fld b 0 1 = blk ∧ key = 0x040400 + blk ∧ s.segData key b = o ∧ sub o 64 (fld o 32 4) = c ∧ head = (fld o 0 4 = 0x564F394B ∧ fld o 4 1 =
      blk ∧ fld o 5 3 = 0 ∧ fld o 36 28 = 0 ∧ o.length = 64 + fld o 32 4 + 3309) ∧ (good = ((blk = 7 ∨ s.otp.spares blk = 0) ∧ (blk = 4 →
      policyOk c = true ∧ fld o 32 4 = 64) ∧ (blk = 5 → fld o 32 4 ≤ 5056) ∧ (blk = 6 → fld o 32 4 = 16 * calIndexes.length) ∧ (blk = 7 →
      (overlayUnits c).isSome = true))) ∧ 4 ≤ blk ∧ blk ≤ 7 ∧ segArgs b = true ∧ s.segOrder key b = true ∧ segLast b = false) ∧
    (∃ (s : State) (n blk key : Nat) (b o c : Bytes) (_ok : Bool) (head good : Prop), s.calls n 0x0404 locked4 false anyForm ∧ s.payload (s.slot n) =
      b ∧ fld b 0 1 = blk ∧ key = 0x040400 + blk ∧ s.segData key b = o ∧ sub o 64 (fld o 32 4) = c ∧ head = (fld o 0 4 = 0x564F394B ∧ fld o 4 1 =
      blk ∧ fld o 5 3 = 0 ∧ fld o 36 28 = 0 ∧ o.length = 64 + fld o 32 4 + 3309) ∧ (good = ((blk = 7 ∨ s.otp.spares blk = 0) ∧ (blk = 4 →
      policyOk c = true ∧ fld o 32 4 = 64) ∧ (blk = 5 → fld o 32 4 ≤ 5056) ∧ (blk = 6 → fld o 32 4 = 16 * calIndexes.length) ∧ (blk = 7 →
      (overlayUnits c).isSome = true))) ∧ 4 ≤ blk ∧ blk ≤ 7 ∧ segArgs b = true ∧ s.segOrder key b = true ∧ segLast b = true ∧ ¬ head) ∧
    (∃ (s : State) (n blk key : Nat) (b o c : Bytes) (ok : Bool) (head good : Prop), s.calls n 0x0404 locked4 false anyForm ∧ s.payload (s.slot n) =
      b ∧ fld b 0 1 = blk ∧ key = 0x040400 + blk ∧ s.segData key b = o ∧ sub o 64 (fld o 32 4) = c ∧ head = (fld o 0 4 = 0x564F394B ∧ fld o 4 1 =
      blk ∧ fld o 5 3 = 0 ∧ fld o 36 28 = 0 ∧ o.length = 64 + fld o 32 4 + 3309) ∧ (good = ((blk = 7 ∨ s.otp.spares blk = 0) ∧ (blk = 4 →
      policyOk c = true ∧ fld o 32 4 = 64) ∧ (blk = 5 → fld o 32 4 ≤ 5056) ∧ (blk = 6 → fld o 32 4 = 16 * calIndexes.length) ∧ (blk = 7 →
      (overlayUnits c).isSome = true))) ∧ 4 ≤ blk ∧ blk ≤ 7 ∧ segArgs b = true ∧ s.segOrder key b = true ∧ segLast b = true ∧ head ∧ (ok = false
      ∨ s.sec.ownerLost = true ∨ s.sec.ownerSlot = none)) ∧
    (∃ (s : State) (n blk key : Nat) (b o c : Bytes) (ok : Bool) (head good : Prop), s.calls n 0x0404 locked4 false anyForm ∧ s.payload (s.slot n) =
      b ∧ fld b 0 1 = blk ∧ key = 0x040400 + blk ∧ s.segData key b = o ∧ sub o 64 (fld o 32 4) = c ∧ head = (fld o 0 4 = 0x564F394B ∧ fld o 4 1 =
      blk ∧ fld o 5 3 = 0 ∧ fld o 36 28 = 0 ∧ o.length = 64 + fld o 32 4 + 3309) ∧ (good = ((blk = 7 ∨ s.otp.spares blk = 0) ∧ (blk = 4 →
      policyOk c = true ∧ fld o 32 4 = 64) ∧ (blk = 5 → fld o 32 4 ≤ 5056) ∧ (blk = 6 → fld o 32 4 = 16 * calIndexes.length) ∧ (blk = 7 →
      (overlayUnits c).isSome = true))) ∧ 4 ≤ blk ∧ blk ≤ 7 ∧ segArgs b = true ∧ s.segOrder key b = true ∧ segLast b = true ∧ head ∧ ok = true ∧
      s.sec.ownerLost = false ∧ s.sec.ownerSlot.isSome = true ∧ sub o 16 16 ≠ Config.serial) ∧
    (∃ (s : State) (n blk key : Nat) (b o c : Bytes) (ok : Bool) (head good : Prop), s.calls n 0x0404 locked4 false anyForm ∧ s.payload (s.slot n) =
      b ∧ fld b 0 1 = blk ∧ key = 0x040400 + blk ∧ s.segData key b = o ∧ sub o 64 (fld o 32 4) = c ∧ head = (fld o 0 4 = 0x564F394B ∧ fld o 4 1 =
      blk ∧ fld o 5 3 = 0 ∧ fld o 36 28 = 0 ∧ o.length = 64 + fld o 32 4 + 3309) ∧ (good = ((blk = 7 ∨ s.otp.spares blk = 0) ∧ (blk = 4 →
      policyOk c = true ∧ fld o 32 4 = 64) ∧ (blk = 5 → fld o 32 4 ≤ 5056) ∧ (blk = 6 → fld o 32 4 = 16 * calIndexes.length) ∧ (blk = 7 →
      (overlayUnits c).isSome = true))) ∧ 4 ≤ blk ∧ blk ≤ 7 ∧ segArgs b = true ∧ s.segOrder key b = true ∧ segLast b = true ∧ head ∧ ok = true ∧
      s.sec.ownerLost = false ∧ s.sec.ownerSlot.isSome = true ∧ sub o 16 16 = Config.serial ∧ ¬ good) ∧
    (∃ (s : State) (n blk key : Nat) (b o c : Bytes) (ok : Bool) (head good : Prop), s.calls n 0x0404 locked4 false anyForm ∧ s.payload (s.slot n) =
      b ∧ fld b 0 1 = blk ∧ key = 0x040400 + blk ∧ s.segData key b = o ∧ sub o 64 (fld o 32 4) = c ∧ head = (fld o 0 4 = 0x564F394B ∧ fld o 4 1 =
      blk ∧ fld o 5 3 = 0 ∧ fld o 36 28 = 0 ∧ o.length = 64 + fld o 32 4 + 3309) ∧ (good = ((blk = 7 ∨ s.otp.spares blk = 0) ∧ (blk = 4 →
      policyOk c = true ∧ fld o 32 4 = 64) ∧ (blk = 5 → fld o 32 4 ≤ 5056) ∧ (blk = 6 → fld o 32 4 = 16 * calIndexes.length) ∧ (blk = 7 →
      (overlayUnits c).isSome = true))) ∧ 4 ≤ blk ∧ blk ≤ 7 ∧ segArgs b = true ∧ s.segOrder key b = true ∧ segLast b = true ∧ head ∧ ok = true ∧
      s.sec.ownerLost = false ∧ s.sec.ownerSlot.isSome = true ∧ sub o 16 16 = Config.serial ∧ good) :=
  ⟨⟨ask 0x0404 ([6, 1, 0, 0, 1] ++ zeros 12) (mod 3), 0, 6, _, _, _, _, true, _, _, mailed_calls (by decide +kernel), rfl, by decide +kernel, rfl, rfl, rfl, rfl, rfl, by decide +kernel, by decide +kernel, by decide +kernel, by decide +kernel, by decide +kernel⟩,
   ⟨overlaySt 6 (zeros 10) {} (mod 3), 0, 6, _, _, _, _, true, _, _, mailed_calls (by decide +kernel), rfl, by decide +kernel, rfl, rfl, rfl, rfl, rfl, by decide +kernel, by decide +kernel, by decide +kernel, by decide +kernel, by decide +kernel, by decide +kernel⟩,
   ⟨overlaySt 7 (overlayOf 7 Config.serial) {} (mod 3), 0, 7, _, _, _, _, false, _, _, mailed_calls (by decide +kernel), rfl, by decide +kernel, rfl, rfl, rfl, rfl, rfl, by decide +kernel, by decide +kernel, by decide +kernel, by decide +kernel, by decide +kernel, by decide +kernel, .inl rfl⟩,
   ⟨overlaySt 7 (overlayOf 7 (bump Config.serial)) { owners := [owner0] } (mod 3), 0, 7, _, _, _, _, true, _, _, mailed_calls (by decide +kernel), rfl, by decide +kernel, rfl, rfl, rfl, rfl, rfl, by decide +kernel, by decide +kernel, by decide +kernel, by decide +kernel, by decide +kernel, by decide +kernel, by decide +kernel, by decide +kernel, by decide +kernel, (ne_bump Config.serial (by decide)).symm⟩,
   ⟨overlaySt 6 (overlayOf 6 Config.serial) { owners := [owner0] } (mod 3), 0, 6, _, _, _, _, true, _, _, mailed_calls (by decide +kernel), rfl, by decide +kernel, rfl, rfl, rfl, rfl, rfl, by decide +kernel, by decide +kernel, by decide +kernel, by decide +kernel, by decide +kernel, by decide +kernel, by decide +kernel, by decide +kernel, by decide +kernel, rfl, by decide +kernel⟩,
   ⟨overlaySt 7 (overlayOf 7 Config.serial) { owners := [owner0] } (mod 3), 0, 7, _, _, _, _, true, _, _, mailed_calls (by decide +kernel), rfl, by decide +kernel, rfl, rfl, rfl, rfl, rfl, by decide +kernel, by decide +kernel, by decide +kernel, by decide +kernel, by decide +kernel, by decide +kernel, by decide +kernel, by decide +kernel, by decide +kernel, rfl, by decide +kernel⟩⟩

theorem test_hyps_twinLinkEvents_1 :
    (∃ (s : State) (m : Nat) (_crossed : Bool) (up : Twin), up =
      { s.twin with lanes := (s.twin.lanes ||| m % 65536) &&& (65535 ^^^ (s.twin.retired &&& 65535)) } ∧ (s.alive = false ∨ s.board.laneRefBad =
      true)) ∧
    (∃ (s : State) (m : Nat) (crossed : Bool) (up : Twin), up =
      { s.twin with lanes := (s.twin.lanes ||| m % 65536) &&& (65535 ^^^ (s.twin.retired &&& 65535)) } ∧ s.alive = true ∧ s.board.laneRefBad =
      false ∧ crossed = true) ∧
    (∃ (s : State) (m : Nat) (crossed : Bool) (up : Twin), up =
      { s.twin with lanes := (s.twin.lanes ||| m % 65536) &&& (65535 ^^^ (s.twin.retired &&& 65535)) } ∧ s.alive = true ∧ s.board.laneRefBad =
      false ∧ crossed = false ∧ (s.linkUp = true ∨ popcount 16 up.lanes < 8 ∨ s.twin.pair ≠ 2)) ∧
    (∃ (s : State) (m : Nat) (crossed : Bool) (up : Twin), up =
      { s.twin with lanes := (s.twin.lanes ||| m % 65536) &&& (65535 ^^^ (s.twin.retired &&& 65535)) } ∧ s.alive = true ∧ s.board.laneRefBad =
      false ∧ crossed = false ∧ s.linkUp = false ∧ 8 ≤ popcount 16 up.lanes ∧ s.twin.pair = 2) ∧
    (∃ (s : State) (m : Nat) (down : Twin), down = { s.twin with lanes := s.twin.lanes &&& (65535 ^^^ (m % 65536)) } ∧ (s.linkUp = false ∨ 8 ≤
      popcount 16 down.lanes)) ∧
    (∃ (s : State) (m : Nat) (down : Twin), down = { s.twin with lanes := s.twin.lanes &&& (65535 ^^^ (m % 65536)) } ∧ s.linkUp = true ∧ popcount 16
      down.lanes < 8 ∧ s.twin.pair = 1 ∧ s.twin.slot = none) ∧
    (∃ (s : State) (m : Nat) (down : Twin), ∃ n, down = { s.twin with lanes := s.twin.lanes &&& (65535 ^^^ (m % 65536)) } ∧ s.linkUp = true ∧
      popcount 16 down.lanes < 8 ∧ s.twin.pair = 1 ∧ s.twin.slot = some n ∧ n ∈ s.host.accepted) ∧
    (∃ (s : State) (m : Nat) (down : Twin), down = { s.twin with lanes := s.twin.lanes &&& (65535 ^^^ (m % 65536)) } ∧ s.linkUp = true ∧ popcount 16
      down.lanes < 8 ∧ s.twin.pair ≠ 1) :=
  ⟨⟨mod 0, 0, true, _, rfl, by decide +kernel⟩,
   ⟨mod 3, 1, true, _, rfl, by decide +kernel, by decide +kernel, by decide +kernel⟩,
   ⟨mod 3, 1, false, _, rfl, by decide +kernel, by decide +kernel, by decide +kernel, by decide +kernel⟩,
   ⟨{ mod 3 with twin := { pair := 2 } }, 65535, false, _, rfl, by decide +kernel, by decide +kernel, by decide +kernel, by decide +kernel, by decide +kernel, by decide +kernel⟩,
   ⟨mod 3, 0, _, rfl, by decide +kernel⟩,
   ⟨helloSt none, 65535, _, rfl, by decide +kernel, by decide +kernel, by decide +kernel, by decide +kernel⟩,
   ⟨helloSt (some 0), 65535, _, 0, rfl, by decide +kernel, by decide +kernel, by decide +kernel, by decide +kernel, by decide +kernel⟩,
   ⟨pairSt {}, 65535, _, rfl, by decide +kernel, by decide +kernel, by decide +kernel⟩⟩

theorem test_hyps_twinLinkEvents_2 :
    (∃ (s : State) (c : Nat) (ok : Bool) (b : Bytes) (i : Instr), i ∈ [.cutFrame c ok b, .digestFrame c ok b false, .digestFrame c ok b true,
      .stateBlock c ok b false, .stateBlock c ok b true, .seedBlock c ok b, .mapBlock c ok b, .ckptBlock c ok b, .journalBlock c ok b,
      .valuesBlock c ok b, .constBlock c ok b, .redigestBlock c ok b] ∧ s.linkUp = false) ∧
    (∃ (s : State) (c : Nat) (ok : Bool) (b : Bytes) (i : Instr), i ∈ [.cutFrame c ok b, .digestFrame c ok b false, .digestFrame c ok b true,
      .stateBlock c ok b false, .stateBlock c ok b true, .seedBlock c ok b, .mapBlock c ok b, .ckptBlock c ok b, .journalBlock c ok b,
      .valuesBlock c ok b, .constBlock c ok b, .redigestBlock c ok b] ∧ s.linkUp = true ∧ (s.twin.pair ≠ 2 ∨ ok = false ∨ c < s.twin.rx)) ∧
    (∃ (s : State) (c : Nat) (ok : Bool) (b : Bytes) (i : Instr), i ∈ [.cutFrame c ok b, .digestFrame c ok b false, .digestFrame c ok b true,
      .stateBlock c ok b false, .stateBlock c ok b true, .seedBlock c ok b, .mapBlock c ok b, .ckptBlock c ok b, .journalBlock c ok b,
      .valuesBlock c ok b, .constBlock c ok b, .redigestBlock c ok b] ∧ s.linkUp = true ∧ s.twin.pair = 2 ∧ ok = true ∧ s.twin.rx ≤ c ∧ (∀ k,
      blockOk b k = false) ∧ (haulmCheck b [3]).isSome = true ∧ (haulmCheck b [4]).isSome = true) ∧
    (∃ (s : State) (b _ss his : Bytes) (_cert _owners _classes : Bool), his = sub b (b.length - 16) 16 ∧ s.linkUp = false) ∧
    (∃ (s : State) (b _ss his : Bytes) (_cert _owners _classes : Bool), his = sub b (b.length - 16) 16 ∧ s.linkUp = true ∧ (s.twin.pair ≠ 1 ∨ blockOk
      b 1 = false)) ∧
    (∃ (s : State) (b _ss his : Bytes) (cert owners classes : Bool), ∃ st, his = sub b (b.length - 16) 16 ∧ s.linkUp = true ∧ s.twin.pair = 1 ∧
      blockOk b 1 = true ∧ ((st = stIntegrity ∧ (cert = false ∨ his ≠ s.twin.partner)) ∨ (st = stAuth ∧ cert = true ∧ his = s.twin.partner ∧
      owners = false) ∨ (st = stArg ∧ cert = true ∧ his = s.twin.partner ∧ owners = true ∧ classes = false)) ∧ s.twin.slot = none) ∧
    (∃ (s : State) (b _ss his : Bytes) (cert owners classes : Bool), ∃ st, ∃ n, his = sub b (b.length - 16) 16 ∧ s.linkUp = true ∧ s.twin.pair = 1 ∧
      blockOk b 1 = true ∧ ((st = stIntegrity ∧ (cert = false ∨ his ≠ s.twin.partner)) ∨ (st = stAuth ∧ cert = true ∧ his = s.twin.partner ∧
      owners = false) ∨ (st = stArg ∧ cert = true ∧ his = s.twin.partner ∧ owners = true ∧ classes = false)) ∧ s.twin.slot = some n ∧ n ∈
      s.host.accepted) ∧
    (∃ (s : State) (b _ss his : Bytes) (cert owners classes : Bool), his = sub b (b.length - 16) 16 ∧ s.linkUp = true ∧ s.twin.pair = 1 ∧ blockOk b 1
      = true ∧ cert = true ∧ his = s.twin.partner ∧ owners = true ∧ classes = true) :=
  ⟨⟨mod 3, 0, true, [], .cutFrame 0 true [], by simp, by decide +kernel⟩,
   ⟨{ mod 3 with twin := { lanes := 65535 } }, 0, true, [], .cutFrame 0 true [], by simp, by decide +kernel, by decide +kernel⟩,
   ⟨pairSt {}, 0, true, [], .cutFrame 0 true [], by simp, by decide +kernel, by decide +kernel, by decide +kernel, by decide +kernel, (fun _ => rfl), by decide +kernel, by decide +kernel⟩,
   ⟨mod 3, [], [], _, true, true, true, rfl, by decide +kernel⟩,
   ⟨pairSt {}, [], [], _, true, true, true, rfl, by decide +kernel, by decide +kernel⟩,
   ⟨helloSt none, blockB 1 (zeros 16), [], zeros 16, false, true, true, stIntegrity, by decide +kernel, by decide +kernel, by decide +kernel, by decide +kernel, .inl ⟨rfl, .inl rfl⟩, by decide +kernel⟩,
   ⟨helloSt (some 0), blockB 1 (zeros 16), [], zeros 16, false, true, true, stIntegrity, 0, by decide +kernel, by decide +kernel, by decide +kernel, by decide +kernel, .inl ⟨rfl, .inl rfl⟩, by decide +kernel, by decide +kernel⟩,
   ⟨helloSt (some 0), blockB 1 (zeros 16), [], zeros 16, true, true, true, by decide +kernel, by decide +kernel, by decide +kernel, by decide +kernel, by decide +kernel, by decide +kernel, by decide +kernel, by decide +kernel⟩⟩

theorem test_hyps_twinLinkEvents_3 :
    (∃ (s : State) (c p e cut : Nat) (b : Bytes), s.paired = true ∧ s.twin.rx ≤ c ∧ haulmCheck b [3] = none ∧ fld b 8 4 = p ∧ fld b 36 2 = e ∧ timeOf
      (sub b 20 12) = cut ∧ (7 < p ∨ s.following p = false ∨ (s.lte e).owned = false ∨ (s.lte e).part ≠ p)) ∧
    (∃ (s : State) (c p e cut : Nat) (b : Bytes), ∃ (im : Image) (ts : List Trigger) (g : Trigger) (fits : Trigger → Bool), s.paired = true ∧
      s.twin.rx ≤ c ∧ haulmCheck b [3] = none ∧ fld b 8 4 = p ∧ fld b 36 2 = e ∧ timeOf (sub b 20 12) = cut ∧ p ≤ 7 ∧ s.following p = true ∧
      (s.lte e).owned = true ∧ (s.lte e).part = p ∧ (s.part p).img.image = some im ∧ (fits = (fun x => x.entry == e && (x.lead == 0 || (x.lead ==
      1 && x.cut == cut)))) ∧ ts = (if (s.part p).run.triggers.any fits then (s.part p).run.triggers else (s.part p).run.triggers ++ [
      { entry := e, at_ := if (s.lte e).trig = 2 then cut else cut + (s.lte e).cutLead * 65536, cut := cut, launch := cut + (s.lte e).cutLead * 65536, buf := (s.part p).run.freeBuf, suppressed := false, data := defaultInputs im }])
      ∧ ts.find? fits = some g) ∧
    (∃ (s : State) (c p step : Nat) (b : Bytes) (flt : Bool) (got : List (Nat × Bytes × Bool)), s.paired = true ∧ s.twin.rx ≤ c ∧ haulmCheck b [4] =
      none ∧ fld b 8 4 = p ∧ fld b 40 8 = step ∧ got = (s.part p).twin.partner ++ [(step, sub b 64 32, flt)] ∧ (7 < p ∨ s.twinned p = false)) ∧
    (∃ (s : State) (c p step : Nat) (b : Bytes) (flt : Bool) (got : List (Nat × Bytes × Bool)), s.paired = true ∧ s.twin.rx ≤ c ∧ haulmCheck b [4] =
      none ∧ fld b 8 4 = p ∧ fld b 40 8 = step ∧ got = (s.part p).twin.partner ++ [(step, sub b 64 32, flt)] ∧ p ≤ 7 ∧ s.twinned p = true ∧ (∀ m
      ∈ (s.part p).twin.local_, m.step ≠ step)) ∧
    (∃ (s : State) (c p step : Nat) (b : Bytes) (flt : Bool) (got : List (Nat × Bytes × Bool)), ∃ (m : TDig) (x : Nat) (d : Bytes) (his mine : Bool)
      (seen : PTwin), s.paired = true ∧ s.twin.rx ≤ c ∧ haulmCheck b [4] = none ∧ fld b 8 4 = p ∧ fld b 40 8 = step ∧ got = (s.part
      p).twin.partner ++ [(step, sub b 64 32, flt)] ∧ p ≤ 7 ∧ s.twinned p = true ∧ ((s.part p).twin.local_.find? (fun x => x.step == step) = some
      m) ∧ (got.find? (fun x => x.1 == step) = some (x, d, his)) ∧
      mine = (match (s.part p).twin.lastFlt with | some f => decide (m.cut ≤ f) | none => false) ∧ seen =
      { (s.part p).twin with local_ := (s.part p).twin.local_.filter (·.step != step), partner := got.filter (·.1 != step) }) ∧
    (∃ (s : State) (p : Nat) (late : TDig → Bool), (late = (fun d => decide (d.deadline + 1000000 * 65536 ≤ s.now))) ∧ (∀ d ∈ (s.part p).twin.local_,
      late d = false)) ∧
    (∃ (s : State) (p : Nat) (late : TDig → Bool), (late = (fun d => decide (d.deadline + 1000000 * 65536 ≤ s.now))) ∧ (∃ d ∈ (s.part p).twin.local_,
      late d = true)) ∧
    (∃ (s : State) (c p k : Nat) (b had : Bytes) (i : Instr), s.paired = true ∧ s.twin.rx ≤ c ∧ blockOk b k = true ∧ blockPart b = p ∧ had = (if fld
      b 16 8 = 0 then [] else (s.part p).twin.rx.getD k []) ∧ (k, i) ∈ [(2, .stateBlock c true b false), (2, .stateBlock c true b true), (3,
      .seedBlock c true b), (4, .mapBlock c true b), (5, .ckptBlock c true b), (6, .journalBlock c true b), (7, .valuesBlock c true b), (8,
      .constBlock c true b), (9, .redigestBlock c true b)] ∧ (fld b 16 8 ≠ had.length ∨ (k ∉ [2, 4] ∧ (s.part p).twin.role = 0 ∧ fld b 24 8 ≤
      (had ++ b.drop 64).length))) :=
  ⟨⟨pairSt {}, 0, 0, 0, 0, cut0, by decide +kernel, by decide +kernel, by decide +kernel, by decide +kernel, by decide +kernel, by decide +kernel, by decide +kernel⟩,
   ⟨{ pairSt { twinP 2 .running with run := { triggers := [trig0] } } with ltes := [(0, lte0 5)] }, 0, 0, 0, 0, cut0, imgOf 8, _, trig0, _, by decide +kernel, by decide +kernel, by decide +kernel, by decide +kernel, by decide +kernel, by decide +kernel, by decide +kernel, by decide +kernel, by decide +kernel, by decide +kernel, rfl, rfl, rfl, by decide +kernel⟩,
   ⟨pairSt {}, 0, 0, 0, digB, false, _, by decide +kernel, by decide +kernel, by decide +kernel, by decide +kernel, by decide +kernel, rfl, by decide +kernel⟩,
   ⟨pairSt (twinP 1 .running), 0, 0, 0, digB, false, _, by decide +kernel, by decide +kernel, by decide +kernel, by decide +kernel, by decide +kernel, rfl, by decide +kernel, by decide +kernel, by decide +kernel⟩,
   ⟨pairSt (digP (zeros 32)), 0, 0, 0, digB, false, _, ⟨0, 0, 0, 0, zeros 32⟩, 0, zeros 32, false, _, _, by decide +kernel, by decide +kernel, by decide +kernel, by decide +kernel, by decide +kernel, rfl, by decide +kernel, by decide +kernel, by decide +kernel, by decide +kernel, rfl, rfl⟩,
   ⟨mod 3, 0, _, rfl, by decide +kernel⟩,
   ⟨{ pairSt (digP []) with time := { runs := true, count := 65536000000 * 4294967296 } }, 0, _, rfl, by decide +kernel⟩,
   ⟨pairSt {}, 0, 0, 3, blockB 3 (zeros 32), [], .seedBlock 0 true (blockB 3 (zeros 32)), by decide +kernel, by decide +kernel, by decide +kernel, by decide +kernel, by decide +kernel, by simp, by decide +kernel⟩⟩

theorem test_hyps_twinLinkEvents_4 :
    (∃ (s : State) (c p k : Nat) (b had : Bytes) (i : Instr), s.paired = true ∧ s.twin.rx ≤ c ∧ blockOk b k = true ∧ blockPart b = p ∧ had = (if fld
      b 16 8 = 0 then [] else (s.part p).twin.rx.getD k []) ∧ (k, i) ∈ [(2, .stateBlock c true b false), (2, .stateBlock c true b true), (3,
      .seedBlock c true b), (4, .mapBlock c true b), (5, .ckptBlock c true b), (6, .journalBlock c true b), (7, .valuesBlock c true b), (8,
      .constBlock c true b), (9, .redigestBlock c true b)] ∧ fld b 16 8 = had.length ∧ (had ++ b.drop 64).length < fld b 24 8) ∧
    (∃ (s : State) (c p k : Nat) (b had o : Bytes) (w : Part), s.paired = true ∧ s.twin.rx ≤ c ∧ blockOk b k = true ∧ blockPart b = p ∧ had = (if fld
      b 16 8 = 0 then [] else (s.part p).twin.rx.getD k []) ∧ fld b 16 8 = had.length ∧ had ++ b.drop 64 = o ∧ fld b 24 8 ≤ o.length ∧ w =
      { s.part p with twin := { (s.part p).twin with rx := (s.part p).twin.rx.del k } } ∧ k = 3 ∧ w.twin.role ≠ 0) ∧
    (∃ (s : State) (c p k : Nat) (b had o : Bytes) (w : Part), s.paired = true ∧ s.twin.rx ≤ c ∧ blockOk b k = true ∧ blockPart b = p ∧ had = (if fld
      b 16 8 = 0 then [] else (s.part p).twin.rx.getD k []) ∧ fld b 16 8 = had.length ∧ had ++ b.drop 64 = o ∧ fld b 24 8 ≤ o.length ∧ w =
      { s.part p with twin := { (s.part p).twin with rx := (s.part p).twin.rx.del k } } ∧ k = 5 ∧ w.twin.role ≠ 0) ∧
    (∃ (s : State) (c p k : Nat) (b had o : Bytes) (w : Part), s.paired = true ∧ s.twin.rx ≤ c ∧ blockOk b k = true ∧ blockPart b = p ∧ had = (if fld
      b 16 8 = 0 then [] else (s.part p).twin.rx.getD k []) ∧ fld b 16 8 = had.length ∧ had ++ b.drop 64 = o ∧ fld b 24 8 ≤ o.length ∧ w =
      { s.part p with twin := { (s.part p).twin with rx := (s.part p).twin.rx.del k } } ∧ k = 6 ∧ w.twin.role ≠ 0 ∧ (w.img.image = none ∨ (w.st ≠
      .shadow ∧ w.st ≠ .restarting) ∨ w.ck.stage ≠ 3 ∨ o.length < 64 ∨ fld o 0 4 ≠ 0x454A394B)) ∧
    (∃ (s : State) (c p k : Nat) (b had o : Bytes) (w : Part), ∃ (g : Image), s.paired = true ∧ s.twin.rx ≤ c ∧ blockOk b k = true ∧ blockPart b = p
      ∧ had = (if fld b 16 8 = 0 then [] else (s.part p).twin.rx.getD k []) ∧ fld b 16 8 = had.length ∧ had ++ b.drop 64 = o ∧ fld b 24 8 ≤
      o.length ∧ w = { s.part p with twin := { (s.part p).twin with rx := (s.part p).twin.rx.del k } } ∧ k = 6 ∧ w.twin.role ≠ 0 ∧ w.img.image =
      some g ∧ (w.st = .shadow ∨ w.st = .restarting) ∧ w.ck.stage = 3 ∧ fld o 0 4 = 0x454A394B ∧ o.length = 64 + (if fld o 4 1 = 0 then
      (g.inputSlots (zeros g.slotsIn)).length else 0) ∧ fld o 48 8 ≠ w.ck.journalN + 1) ∧
    (∃ (s : State) (c p k : Nat) (b had o : Bytes) (w : Part), ∃ (g : Image), s.paired = true ∧ s.twin.rx ≤ c ∧ blockOk b k = true ∧ blockPart b = p
      ∧ had = (if fld b 16 8 = 0 then [] else (s.part p).twin.rx.getD k []) ∧ fld b 16 8 = had.length ∧ had ++ b.drop 64 = o ∧ fld b 24 8 ≤
      o.length ∧ w = { s.part p with twin := { (s.part p).twin with rx := (s.part p).twin.rx.del k } } ∧ k = 6 ∧ w.twin.role ≠ 0 ∧ w.img.image =
      some g ∧ (w.st = .shadow ∨ w.st = .restarting) ∧ w.ck.stage = 3 ∧ fld o 0 4 = 0x454A394B ∧ o.length = 64 + (if fld o 4 1 = 0 then
      (g.inputSlots (zeros g.slotsIn)).length else 0) ∧ fld o 48 8 = w.ck.journalN + 1) ∧
    (∃ (s : State) (c p k : Nat) (b had o : Bytes) (w : Part), ∃ (seq : Nat) (hisNew : List (Nat × Bytes × Bool)), s.paired = true ∧ s.twin.rx ≤ c ∧
      blockOk b k = true ∧ blockPart b = p ∧ had = (if fld b 16 8 = 0 then [] else (s.part p).twin.rx.getD k []) ∧ fld b 16 8 = had.length ∧ had
      ++ b.drop 64 = o ∧ fld b 24 8 ≤ o.length ∧ w = { s.part p with twin := { (s.part p).twin with rx := (s.part p).twin.rx.del k } } ∧ k = 7 ∧
      w.twin.role ≠ 0 ∧ seq = fld o 0 8 ∧ hisNew = w.twin.hisVals ++ [(seq, o.drop 9, fld o 8 1 == 1)] ∧ (∀ x ∈ w.twin.vals, x.1 ≠ seq)) ∧
    (∃ (s : State) (c p k : Nat) (b had o : Bytes) (w : Part), ∃ (seq : Nat) (hisNew : List (Nat × Bytes × Bool)), ∃ (x y : Nat × Bytes × Bool) (good
      : Bool) (run : Nat), s.paired = true ∧ s.twin.rx ≤ c ∧ blockOk b k = true ∧ blockPart b = p ∧ had = (if fld b 16 8 = 0 then [] else (s.part
      p).twin.rx.getD k []) ∧ fld b 16 8 = had.length ∧ had ++ b.drop 64 = o ∧ fld b 24 8 ≤ o.length ∧ w =
      { s.part p with twin := { (s.part p).twin with rx := (s.part p).twin.rx.del k } } ∧ k = 7 ∧ w.twin.role ≠ 0 ∧ seq = fld o 0 8 ∧ hisNew =
      w.twin.hisVals ++ [(seq, o.drop 9, fld o 8 1 == 1)] ∧ (w.twin.vals.find? (fun x => x.1 == seq) = some x) ∧ (hisNew.find? (fun x => x.1 ==
      seq) = some y) ∧ (good = (!x.2.2 && !y.2.2 && x.2.1.length == y.2.1.length && (List.range (x.2.1.length / 4)).all fun i => inTolerance
      w.twin.tolA w.twin.tolR (fld x.2.1 (4 * i) 4) (fld y.2.1 (4 * i) 4))) ∧ run = (if good then w.twin.runTol + 1 else 0)) :=
  ⟨⟨pairSt {}, 0, 0, 3, blockMore 3, [], .seedBlock 0 true (blockMore 3), by decide +kernel, by decide +kernel, by decide +kernel, by decide +kernel, by decide +kernel, by simp, by decide +kernel, by decide +kernel⟩,
   ⟨pairSt (twinP 2 .loaded), 0, 0, 3, blockB 3 (zeros 32), [], zeros 32, _, by decide +kernel, by decide +kernel, by decide +kernel, by decide +kernel, by decide +kernel, by decide +kernel, by decide +kernel, by decide +kernel, rfl, by decide +kernel, by decide +kernel⟩,
   ⟨pairSt { loaded0 .shadow with twin := { role := 2, fromLead := true } }, 0, 0, 5, blockB 5 (zeros 32), [], zeros 32, _, by decide +kernel, by decide +kernel, by decide +kernel, by decide +kernel, by decide +kernel, by decide +kernel, by decide +kernel, by decide +kernel, rfl, by decide +kernel, by decide +kernel⟩,
   ⟨pairSt (twinP 2 .running), 0, 0, 6, blockB 6 (zeros 32), [], zeros 32, _, by decide +kernel, by decide +kernel, by decide +kernel, by decide +kernel, by decide +kernel, by decide +kernel, by decide +kernel, by decide +kernel, rfl, by decide +kernel, by decide +kernel, .inr (.inl (by decide +kernel))⟩,
   ⟨pairSt { twinP 2 .shadow with ck := { stage := 3 } }, 0, 0, 6, blockB 6 (jObj 0), [], jObj 0, _, imgOf 8, by decide +kernel, by decide +kernel, by decide +kernel, by decide +kernel, by decide +kernel, by decide +kernel, by decide +kernel, by decide +kernel, rfl, by decide +kernel, by decide +kernel, rfl, by decide +kernel, by decide +kernel, by decide +kernel, by decide +kernel, by decide +kernel⟩,
   ⟨pairSt { twinP 2 .shadow with ck := { stage := 3 } }, 0, 0, 6, blockB 6 (jObj 1), [], jObj 1, _, imgOf 8, by decide +kernel, by decide +kernel, by decide +kernel, by decide +kernel, by decide +kernel, by decide +kernel, by decide +kernel, by decide +kernel, rfl, by decide +kernel, by decide +kernel, rfl, by decide +kernel, by decide +kernel, by decide +kernel, by decide +kernel, by decide +kernel⟩,
   ⟨pairSt (twinP 2 .running), 0, 0, 7, blockB 7 (zeros 32), [], zeros 32, _, 0, _, by decide +kernel, by decide +kernel, by decide +kernel, by decide +kernel, by decide +kernel, by decide +kernel, by decide +kernel, by decide +kernel, rfl, by decide +kernel, by decide +kernel, by decide +kernel, rfl, by decide +kernel⟩,
   ⟨pairSt { loaded0 .running with twin := { role := 2, vals := [(0, [], false)] } }, 0, 0, 7, blockB 7 (zeros 32), [], zeros 32, _, 0, _, (0, [], false), (0, zeros 23, false), _, _, by decide +kernel, by decide +kernel, by decide +kernel, by decide +kernel, by decide +kernel, by decide +kernel, by decide +kernel, by decide +kernel, rfl, by decide +kernel, by decide +kernel, by decide +kernel, rfl, by decide +kernel, by decide +kernel, rfl, rfl⟩⟩

theorem test_hyps_twinLinkEvents_5 :
    (∃ (s : State) (c p k : Nat) (b had o : Bytes) (w : Part), s.paired = true ∧ s.twin.rx ≤ c ∧ blockOk b k = true ∧ blockPart b = p ∧ had = (if fld
      b 16 8 = 0 then [] else (s.part p).twin.rx.getD k []) ∧ fld b 16 8 = had.length ∧ had ++ b.drop 64 = o ∧ fld b 24 8 ≤ o.length ∧ w =
      { s.part p with twin := { (s.part p).twin with rx := (s.part p).twin.rx.del k } } ∧ k = 8 ∧ w.twin.role ≠ 0 ∧ (w.st ≠ .restarting ∨
      w.ck.leafBad = none)) ∧
    (∃ (s : State) (c p k : Nat) (b had o : Bytes) (w : Part), ∃ leaf off, s.paired = true ∧ s.twin.rx ≤ c ∧ blockOk b k = true ∧ blockPart b = p ∧
      had = (if fld b 16 8 = 0 then [] else (s.part p).twin.rx.getD k []) ∧ fld b 16 8 = had.length ∧ had ++ b.drop 64 = o ∧ fld b 24 8 ≤
      o.length ∧ w = { s.part p with twin := { (s.part p).twin with rx := (s.part p).twin.rx.del k } } ∧ k = 8 ∧ w.twin.role ≠ 0 ∧ w.st =
      .restarting ∧ w.ck.leafBad = some leaf ∧ off = s.regionOff w 7 + leaf * mib) ∧
    (∃ (s : State) (c p k : Nat) (b had o : Bytes) (w : Part), s.paired = true ∧ s.twin.rx ≤ c ∧ blockOk b k = true ∧ blockPart b = p ∧ had = (if fld
      b 16 8 = 0 then [] else (s.part p).twin.rx.getD k []) ∧ fld b 16 8 = had.length ∧ had ++ b.drop 64 = o ∧ fld b 24 8 ≤ o.length ∧ w =
      { s.part p with twin := { (s.part p).twin with rx := (s.part p).twin.rx.del k } } ∧ k = 9 ∧ w.twin.role ≠ 0 ∧ (∀ x, w.twin.div = some x →
      x.1 ≠ blockStep b)) ∧
    (∃ (s : State) (c p k : Nat) (b had o : Bytes) (w : Part), ∃ (mine his : Bytes), s.paired = true ∧ s.twin.rx ≤ c ∧ blockOk b k = true ∧ blockPart
      b = p ∧ had = (if fld b 16 8 = 0 then [] else (s.part p).twin.rx.getD k []) ∧ fld b 16 8 = had.length ∧ had ++ b.drop 64 = o ∧ fld b 24 8 ≤
      o.length ∧ w = { s.part p with twin := { (s.part p).twin with rx := (s.part p).twin.rx.del k } } ∧ k = 9 ∧ w.twin.role ≠ 0 ∧ w.twin.div =
      some (blockStep b, mine, his)) ∧
    (∃ (s : State) (c p k : Nat) (b had o : Bytes) (w : Part), s.paired = true ∧ s.twin.rx ≤ c ∧ blockOk b k = true ∧ blockPart b = p ∧ had = (if fld
      b 16 8 = 0 then [] else (s.part p).twin.rx.getD k []) ∧ fld b 16 8 = had.length ∧ had ++ b.drop 64 = o ∧ fld b 24 8 ≤ o.length ∧ w =
      { s.part p with twin := { (s.part p).twin with rx := (s.part p).twin.rx.del k } } ∧ k = 4) ∧
    (∃ (s : State) (c p k : Nat) (b had o : Bytes) (w : Part), ∃ (x : Nat × Nat × Nat × Nat) (_equal : Bool), s.paired = true ∧ s.twin.rx ≤ c ∧
      blockOk b k = true ∧ blockPart b = p ∧ had = (if fld b 16 8 = 0 then [] else (s.part p).twin.rx.getD k []) ∧ fld b 16 8 = had.length ∧ had
      ++ b.drop 64 = o ∧ fld b 24 8 ≤ o.length ∧ w = { s.part p with twin := { (s.part p).twin with rx := (s.part p).twin.rx.del k } } ∧ k = 2 ∧
      (s.twin.parts.find? (fun x => x.1 == p) = some x) ∧ fld o 1 1 = 0) ∧
    (∃ (s : State) (c p k : Nat) (b had o : Bytes) (w : Part), ∃ (x : Nat × Nat × Nat × Nat) (_equal : Bool), s.paired = true ∧ s.twin.rx ≤ c ∧
      blockOk b k = true ∧ blockPart b = p ∧ had = (if fld b 16 8 = 0 then [] else (s.part p).twin.rx.getD k []) ∧ fld b 16 8 = had.length ∧ had
      ++ b.drop 64 = o ∧ fld b 24 8 ≤ o.length ∧ w = { s.part p with twin := { (s.part p).twin with rx := (s.part p).twin.rx.del k } } ∧ k = 2 ∧
      (s.twin.parts.find? (fun x => x.1 == p) = some x) ∧ fld o 1 1 ≠ 0) ∧
    (∃ (s : State) (c p k : Nat) (b had o : Bytes) (w : Part), ∃ (_equal same serves : Bool) (his : Nat) (chain : Bytes) (tol : Bool), s.paired =
      true ∧ s.twin.rx ≤ c ∧ blockOk b k = true ∧ blockPart b = p ∧ had = (if fld b 16 8 = 0 then [] else (s.part p).twin.rx.getD k []) ∧ fld b
      16 8 = had.length ∧ had ++ b.drop 64 = o ∧ fld b 24 8 ≤ o.length ∧ w =
      { s.part p with twin := { (s.part p).twin with rx := (s.part p).twin.rx.del k } } ∧ k = 2 ∧ (∀ x ∈ s.twin.parts, x.1 ≠ p) ∧ same = (sub o
      82 32 == fit 32 w.cnt.bir) ∧ serves = (w.st == .running || w.st == .held) ∧ his = fld (fit 128 o) 114 8 ∧ chain = sub (fit 128 o) 18 64 ∧
      tol = (if same && w.twin.hslot.isNone then false else w.twin.tolMode || (serves && fld (fit 128 o) 0 1 == 7 && !same))) :=
  ⟨⟨pairSt (twinP 2 .running), 0, 0, 8, blockB 8 (zeros 32), [], zeros 32, _, by decide +kernel, by decide +kernel, by decide +kernel, by decide +kernel, by decide +kernel, by decide +kernel, by decide +kernel, by decide +kernel, rfl, by decide +kernel, by decide +kernel, by decide +kernel⟩,
   ⟨pairSt { loaded0 .restarting with twin := { role := 2 }, ck := { leafBad := some 0 } }, 0, 0, 8, blockB 8 (zeros 32), [], zeros 32, _, 0, _, by decide +kernel, by decide +kernel, by decide +kernel, by decide +kernel, by decide +kernel, by decide +kernel, by decide +kernel, by decide +kernel, rfl, by decide +kernel, by decide +kernel, by decide +kernel, by decide +kernel, rfl⟩,
   ⟨pairSt (twinP 2 .running), 0, 0, 9, blockB 9 (zeros 32), [], zeros 32, _, by decide +kernel, by decide +kernel, by decide +kernel, by decide +kernel, by decide +kernel, by decide +kernel, by decide +kernel, by decide +kernel, rfl, by decide +kernel, by decide +kernel, (fun _ h => nomatch h)⟩,
   ⟨pairSt { loaded0 .running with twin := { role := 2, div := some (0, [], []) } }, 0, 0, 9, blockB 9 (zeros 32), [], zeros 32, _, [], [], by decide +kernel, by decide +kernel, by decide +kernel, by decide +kernel, by decide +kernel, by decide +kernel, by decide +kernel, by decide +kernel, rfl, by decide +kernel, by decide +kernel, by decide +kernel⟩,
   ⟨pairSt (twinP 2 .loaded), 0, 0, 4, blockB 4 (zeros 4), [], zeros 4, _, by decide +kernel, by decide +kernel, by decide +kernel, by decide +kernel, by decide +kernel, by decide +kernel, by decide +kernel, by decide +kernel, rfl, by decide +kernel⟩,
   ⟨{ pairSt (twinP 2 .loaded) with twin := { pair := 2, lanes := 65535, parts := [(0, 0, 0, 0)] } }, 0, 0, 2, blockB 2 (zeros 128), [], zeros 128, _, (0, 0, 0, 0), true, by decide +kernel, by decide +kernel, by decide +kernel, by decide +kernel, by decide +kernel, by decide +kernel, by decide +kernel, by decide +kernel, rfl, by decide +kernel, by decide +kernel, by decide +kernel⟩,
   ⟨{ pairSt (twinP 2 .loaded) with twin := { pair := 2, lanes := 65535, parts := [(0, 0, 0, 0)] } }, 0, 0, 2, blockB 2 ([0, 1] ++ zeros 126), [], [0, 1] ++ zeros 126, _, (0, 0, 0, 0), true, by decide +kernel, by decide +kernel, by decide +kernel, by decide +kernel, by decide +kernel, by decide +kernel, by decide +kernel, by decide +kernel, rfl, by decide +kernel, by decide +kernel, by decide +kernel⟩,
   ⟨pairSt (twinP 2 .loaded), 0, 0, 2, blockB 2 (zeros 128), [], zeros 128, _, true, _, _, _, _, _, by decide +kernel, by decide +kernel, by decide +kernel, by decide +kernel, by decide +kernel, by decide +kernel, by decide +kernel, by decide +kernel, rfl, by decide +kernel, by decide +kernel, rfl, rfl, rfl, rfl, rfl⟩⟩

theorem test_hyps_twinLinkEvents_6 :
    (∃ (s : State) (p : Nat), ((s.part p).twin.role = 0 ∨ s.paired = false)) ∧
    (∃ (s : State) (p : Nat), (s.part p).twin.role ≠ 0 ∧ s.paired = true) ∧
    (∃ (s : State) (past : Nat → Bool), (past = (fun t => decide (t + 150000000000 ≤ s.opTicks)))) :=
  ⟨⟨mod 3, 0, by decide +kernel⟩,
   ⟨pairSt (twinP 1 .running), 0, by decide +kernel, by decide +kernel⟩,
   ⟨helloSt (some 0), _, rfl⟩⟩

theorem test_hyps_twinCommands_1 :
    (∃ (s : State) (n : Nat) (b : Bytes), s.calls n 0x0701 [3, 5] true (pairForm 0) ∧ s.payload (s.slot n) = b ∧ (pairArgs b = false ∨ 1 < fld b 2
      1)) ∧
    (∃ (s : State) (n : Nat) (b : Bytes), s.calls n 0x0701 [3, 5] true (pairForm 0) ∧ s.payload (s.slot n) = b ∧ pairArgs b = true ∧ fld b 2 1 ≤ 1 ∧
      s.twin.pair ≠ 0) ∧
    (∃ (s : State) (n : Nat) (b : Bytes), s.calls n 0x0701 [3, 5] true (pairForm 0) ∧ s.payload (s.slot n) = b ∧ pairArgs b = true ∧ fld b 2 1 ≤ 1 ∧
      s.twin.pair = 0 ∧ s.linkUp = false) ∧
    (∃ (s : State) (n : Nat) (b : Bytes), s.calls n 0x0701 [3, 5] true (pairForm 0) ∧ s.payload (s.slot n) = b ∧ pairArgs b = true ∧ fld b 2 1 ≤ 1 ∧
      s.twin.pair = 0 ∧ s.linkUp = true) ∧
    (∃ (s : State) (n p role : Nat) (b : Bytes) (good legal : Prop), s.calls n 0x0701 [3, 5] true (pairForm 1) ∧ s.payload (s.slot n) = b ∧ fld b 1 1
      = p ∧ fld b 2 1 = role ∧ (good = (pairArgs b = true ∧ p ≤ 7 ∧ (role = 1 ∨ role = 2) ∧ tolOk (fld b 4 4) = true ∧ tolOk (fld b 8 4) = true))
      ∧ (legal = (s.paired = true ∧ (s.part p).twin.role = 0 ∧ (∀ x ∈ s.twin.parts, x.1 ≠ p) ∧ (s.part p).st ∈ (if role = 1 then [PState.loaded,
      PState.armed, PState.running, PState.held] else [PState.loaded, PState.armed]))) ∧ ¬ good) ∧
    (∃ (s : State) (n p role : Nat) (b : Bytes) (good legal : Prop), s.calls n 0x0701 [3, 5] true (pairForm 1) ∧ s.payload (s.slot n) = b ∧ fld b 1 1
      = p ∧ fld b 2 1 = role ∧ (good = (pairArgs b = true ∧ p ≤ 7 ∧ (role = 1 ∨ role = 2) ∧ tolOk (fld b 4 4) = true ∧ tolOk (fld b 8 4) = true))
      ∧ (legal = (s.paired = true ∧ (s.part p).twin.role = 0 ∧ (∀ x ∈ s.twin.parts, x.1 ≠ p) ∧ (s.part p).st ∈ (if role = 1 then [PState.loaded,
      PState.armed, PState.running, PState.held] else [PState.loaded, PState.armed]))) ∧ good ∧ ¬ legal) ∧
    (∃ (s : State) (n p role : Nat) (b : Bytes) (good legal : Prop), s.calls n 0x0701 [3, 5] true (pairForm 1) ∧ s.payload (s.slot n) = b ∧ fld b 1 1
      = p ∧ fld b 2 1 = role ∧ (good = (pairArgs b = true ∧ p ≤ 7 ∧ (role = 1 ∨ role = 2) ∧ tolOk (fld b 4 4) = true ∧ tolOk (fld b 8 4) = true))
      ∧ (legal = (s.paired = true ∧ (s.part p).twin.role = 0 ∧ (∀ x ∈ s.twin.parts, x.1 ≠ p) ∧ (s.part p).st ∈ (if role = 1 then [PState.loaded,
      PState.armed, PState.running, PState.held] else [PState.loaded, PState.armed]))) ∧ good ∧ legal) :=
  ⟨⟨ask 0x0701 (pairPay 0 0 2) (mod 3), 0, _, mailed_calls (by decide +kernel), rfl, by decide +kernel⟩,
   ⟨ask 0x0701 (pairPay 0 0 0) (pairSt {}), 0, _, mailed_calls (by decide +kernel), rfl, by decide +kernel, by decide +kernel, by decide +kernel⟩,
   ⟨ask 0x0701 (pairPay 0 0 0) (mod 3), 0, _, mailed_calls (by decide +kernel), rfl, by decide +kernel, by decide +kernel, by decide +kernel, by decide +kernel⟩,
   ⟨ask 0x0701 (pairPay 0 0 0) { mod 3 with twin := { lanes := 65535 } }, 0, _, mailed_calls (by decide +kernel), rfl, by decide +kernel, by decide +kernel, by decide +kernel, by decide +kernel⟩,
   ⟨ask 0x0701 (pairPay 1 0 3) (mod 3), 0, 0, 3, _, _, _, mailed_calls (by decide +kernel), rfl, by decide +kernel, by decide +kernel, rfl, rfl, by decide +kernel⟩,
   ⟨ask 0x0701 (pairPay 1 0 1) (in0 (loaded0 .armed)), 0, 0, 1, _, _, _, mailed_calls (by decide +kernel), rfl, by decide +kernel, by decide +kernel, rfl, rfl, by decide +kernel, by decide +kernel⟩,
   ⟨ask 0x0701 (pairPay 1 0 1) (pairSt (loaded0 .armed)), 0, 0, 1, _, _, _, mailed_calls (by decide +kernel), rfl, by decide +kernel, by decide +kernel, rfl, rfl, by decide +kernel, by decide +kernel⟩⟩

theorem test_hyps_twinCommands_2 :
    (∃ (s : State) (n p : Nat) (b : Bytes), s.calls n 0x0701 [3, 5] true (pairForm 2) ∧ s.payload (s.slot n) = b ∧ fld b 1 1 = p ∧ (pairArgs b =
      false ∨ 7 < p)) ∧
    (∃ (s : State) (n p : Nat) (b : Bytes), s.calls n 0x0701 [3, 5] true (pairForm 2) ∧ s.payload (s.slot n) = b ∧ fld b 1 1 = p ∧ pairArgs b = true
      ∧ p ≤ 7) ∧
    (∃ (s : State) (n : Nat) (b : Bytes), s.calls n 0x0701 [3, 5] true (pairForm 3) ∧ s.payload (s.slot n) = b ∧ pairArgs b = false) ∧
    (∃ (s : State) (n : Nat) (b : Bytes), s.calls n 0x0701 [3, 5] true (pairForm 3) ∧ s.payload (s.slot n) = b ∧ pairArgs b = true) ∧
    (∃ (s : State) (n : Nat) (b : Bytes), s.calls n 0x0702 [3, 4, 5] true (form 1) ∧ s.payload (s.slot n) = b ∧ s.unionArgs b (s.lacking
      s.twin.map).length = false) ∧
    (∃ (s : State) (n : Nat) (b : Bytes), s.calls n 0x0702 [3, 4, 5] true (form 1) ∧ s.payload (s.slot n) = b ∧ s.unionArgs b (s.lacking
      s.twin.map).length = true ∧ s.paired = false) ∧
    (∃ (s : State) (n : Nat) (b : Bytes), s.calls n 0x0702 [3, 4, 5] true (form 1) ∧ s.payload (s.slot n) = b ∧ s.unionArgs b (s.lacking
      s.twin.map).length = true ∧ s.paired = true) :=
  ⟨⟨ask 0x0701 (pairPay 2 8 0) (mod 3), 0, 8, _, mailed_calls (by decide +kernel), rfl, by decide +kernel, by decide +kernel⟩,
   ⟨ask 0x0701 (pairPay 2 0 0) (pairSt (twinP 1 .armed)), 0, 0, _, mailed_calls (by decide +kernel), rfl, by decide +kernel, by decide +kernel, by decide +kernel⟩,
   ⟨ask 0x0701 [3] (pairSt {}), 0, _, mailed_calls (by decide +kernel), rfl, by decide +kernel⟩,
   ⟨ask 0x0701 (pairPay 3 0 0) (pairSt {}), 0, _, mailed_calls (by decide +kernel), rfl, by decide +kernel⟩,
   ⟨ask 0x0702 [1] (in0 {}), 0, _, mailed_calls (by decide +kernel), rfl, by decide +kernel⟩,
   ⟨ask 0x0702 ([1] ++ zeros 7 ++ outAt) (in0 {}), 0, _, mailed_calls (by decide +kernel), rfl, by decide +kernel, by decide +kernel⟩,
   ⟨ask 0x0702 ([1] ++ zeros 7 ++ outAt) (withMap (in0 {})), 0, _, mailed_calls (by decide +kernel), rfl, by decide +kernel, by decide +kernel⟩⟩

theorem test_hyps_twinCommands_3 :
    (∃ (s : State) (n p : Nat) (b : Bytes) (l d : Bool) (legal good : Prop), s.calls n 0x0703 [3, 5] true (handoverForm 0) ∧ s.callsPart n p [.armed]
      ∧ s.payload (s.slot n) = b ∧ legal = ((s.part p).twin.role ≠ 0 ∧ (s.part p).twin.hisState = 3 ∧ (s.part p).twin.hslot = none) ∧ good =
      (payOk b 12 [] = true ∧ fld b 2 2 ≠ 0 ∧ tolOk (fld b 4 4) = true ∧ tolOk (fld b 8 4) = true ∧ l = true ∧ d = true) ∧ ¬ legal) ∧
    (∃ (s : State) (n p : Nat) (b : Bytes) (l d : Bool) (legal good : Prop), s.calls n 0x0703 [3, 5] true (handoverForm 0) ∧ s.callsPart n p [.armed]
      ∧ s.payload (s.slot n) = b ∧ legal = ((s.part p).twin.role ≠ 0 ∧ (s.part p).twin.hisState = 3 ∧ (s.part p).twin.hslot = none) ∧ good =
      (payOk b 12 [] = true ∧ fld b 2 2 ≠ 0 ∧ tolOk (fld b 4 4) = true ∧ tolOk (fld b 8 4) = true ∧ l = true ∧ d = true) ∧ legal ∧ ¬ good) ∧
    (∃ (s : State) (n p : Nat) (b : Bytes) (l d : Bool) (legal good : Prop), s.calls n 0x0703 [3, 5] true (handoverForm 0) ∧ s.callsPart n p [.armed]
      ∧ s.payload (s.slot n) = b ∧ legal = ((s.part p).twin.role ≠ 0 ∧ (s.part p).twin.hisState = 3 ∧ (s.part p).twin.hslot = none) ∧ good =
      (payOk b 12 [] = true ∧ fld b 2 2 ≠ 0 ∧ tolOk (fld b 4 4) = true ∧ tolOk (fld b 8 4) = true ∧ l = true ∧ d = true) ∧ legal ∧ good) ∧
    (∃ (s : State) (n p : Nat) (b : Bytes), s.calls n 0x0703 [3, 5] true (handoverForm 1) ∧ s.payload (s.slot n) = b ∧ fld b 0 1 = p ∧ (7 < p ∨ payOk
      b 12 [] = false)) ∧
    (∃ (s : State) (n p : Nat) (b : Bytes), s.calls n 0x0703 [3, 5] true (handoverForm 1) ∧ s.payload (s.slot n) = b ∧ fld b 0 1 = p ∧ p ≤ 7 ∧ payOk
      b 12 [] = true ∧ (s.part p).twin.hslot = none) ∧
    (∃ (s : State) (n p : Nat) (b : Bytes), ∃ m, s.calls n 0x0703 [3, 5] true (handoverForm 1) ∧ s.payload (s.slot n) = b ∧ fld b 0 1 = p ∧ p ≤ 7 ∧
      payOk b 12 [] = true ∧ (s.part p).twin.hslot = some m ∧ m ∈ s.host.accepted ∧ m ≠ n) :=
  ⟨⟨ask 0x0703 (handPay 0) (in0 (loaded0 .armed)), 0, 0, _, true, true, _, _, mailed_calls (by decide +kernel), ⟨by decide +kernel, by decide +kernel, by decide +kernel⟩, rfl, rfl, rfl, by decide +kernel⟩,
   ⟨ask 0x0703 (handPay 0) (pairSt { loaded0 .armed with twin := { role := 1, pState := handState } }), 0, 0, _, true, false, _, _, mailed_calls (by decide +kernel), ⟨by decide +kernel, by decide +kernel, by decide +kernel⟩, rfl, rfl, rfl, by decide +kernel, by decide +kernel⟩,
   ⟨ask 0x0703 (handPay 0) (pairSt { loaded0 .armed with twin := { role := 1, pState := handState } }), 0, 0, _, true, true, _, _, mailed_calls (by decide +kernel), ⟨by decide +kernel, by decide +kernel, by decide +kernel⟩, rfl, rfl, rfl, by decide +kernel, by decide +kernel⟩,
   ⟨ask 0x0703 [8, 1] (mod 3), 0, 8, _, mailed_calls (by decide +kernel), rfl, by decide +kernel, by decide +kernel⟩,
   ⟨ask 0x0703 (handPay 1) (in0 (loaded0 .armed)), 0, 0, _, mailed_calls (by decide +kernel), rfl, by decide +kernel, by decide +kernel, by decide +kernel, by decide +kernel⟩,
   ⟨{ ask 0x0703 (handPay 1) (pairSt { loaded0 .armed with twin := { role := 1, hslot := some 5 } }) with host := { ready := true, accepted := [0, 5], nums := [(0, 1)], slots := [(0, mailB (mailP 1 0x0703 12) (fit 224 (handPay 1)))] } }, 0, 0, _, 5, ⟨by decide +kernel, by decide +kernel, by decide +kernel, by decide +kernel, by decide +kernel, by decide, (fun _ => posted_auth 3 1 0x0703 12 (fit 224 (handPay 1)) (pairSt {})), by decide +kernel⟩, rfl, by decide +kernel, by decide +kernel, by decide +kernel, by decide +kernel, by decide +kernel, by decide +kernel⟩⟩

theorem test_hyps_resetIsSound :
    (∃ p, p < 8) :=
  ⟨0, by decide +kernel⟩

theorem test_hyps_stepKeepsBootSound :
    (∃ (s t : State), s.bootSound ∧ step s = .next t) :=
  ⟨State.reset, _, ⟨by decide, by decide, by decide, by decide⟩, rfl⟩

theorem test_hyps_stepKeepsLogSound :
    (∃ (s t : State), s.logSound ∧ step s = .next t) :=
  ⟨State.reset, _, ⟨by decide, by decide, by decide⟩, rfl⟩

end Sys2Proof.Tests
end

section
/-! PROOFS. ALU (R128): what an issue of the sequencer does before its effect, the pending result that a register read finds, and each row of the table as
an operation on 64-bit words. -/

namespace Sys2Proof.Machine

/-! ### Issue of a sequencer instruction -/

section Issue
variable {s : State} {c e op : Nat} {prep : Ctx → Req} {eff : Ctx → State → State} {x : Ctx} {h : QEntry}

/-- What the context of an issue holds. -/
theorem State.issueCtx_some (hx : s.issueCtx c e = some (x, h)) : x.c = c ∧ x.e = e ∧ x.k = s.core c := by
  unfold State.issueCtx at hx
  split at hx
  · cases hx
  · dsimp only at hx
    split at hx
    · cases hx
    · split at hx
      · cases hx
        exact ⟨rfl, rfl, rfl⟩
      · cases hx

/-- A claim of a work item (R329) changes nothing on a core but its item. -/
theorem State.core_takeItem (s : State) (x : Ctx) (d : Nat) : ∃ it, (s.takeItem x).core d = { s.core d with item := it } := by
  have item_alone (it : Option WorkItem) : ∃ i, (s.setCore x.c { s.core x.c with item := it }).core d = { s.core d with item := i } := by
    by_cases hd : d = x.c
    · subst hd
      exact ⟨it, State.core_setCore_same ..⟩
    · exact ⟨(s.core d).item, State.core_setCore_ne _ _ hd⟩
  unfold State.takeItem
  split
  · exact ⟨_, rfl⟩
  · dsimp only
    split
    · split
      · exact item_alone none
      · exact ⟨_, rfl⟩
    · split
      · exact ⟨_, rfl⟩
      · exact item_alone _

@[simp] theorem State.takeItem_seq (s : State) (x : Ctx) (d : Nat) : ((s.takeItem x).core d).seq = (s.core d).seq := by
  obtain ⟨it, hit⟩ := s.core_takeItem x d
  rw [hit]

@[simp] theorem State.takeItem_flt (s : State) (x : Ctx) (d : Nat) : ((s.takeItem x).core d).flt = (s.core d).flt := by
  obtain ⟨it, hit⟩ := s.core_takeItem x d
  rw [hit]

@[simp] theorem State.core_modSeq_same (s : State) (c : Nat) (f : CoreSeq → CoreSeq) :
    (s.modSeq c f).core c = { s.core c with seq := f (s.core c).seq } := by simp [State.modSeq]

@[simp] theorem State.addFlight_seq (s : State) (c : Nat) (f : Flight) : ((s.addFlight c f).core c).seq = (s.core c).seq := by
  simp [State.addFlight]

@[simp] theorem State.addFlight_flt (s : State) (c : Nat) (f : Flight) : ((s.addFlight c f).core c).flt = (s.core c).flt := by
  simp [State.addFlight]

@[simp] theorem Core.afterIssue_brkEn (x : Ctx) (r : Req) (late : Bool) : (Core.afterIssue x r late).flt.brkEn = x.k.flt.brkEn := by
  cases late <;> rfl

/-- No break is armed (R139). -/
theorem State.breakHit_disarmed (hb : (s.core x.c).flt.brkEn = false) : s.breakHit x = s := by
  simp [State.breakHit, CoreFlt.brkMatch, hb]

/-- The sequencer has no queue whose next head could be poisoned (R131). -/
theorem State.headPoison_sequencer (he : x.e = 6) : s.headPoison x = s := by
  simp [State.headPoison, he]

/-- The state that the effect of an issue acts on. -/
def State.beforeEffect (s : State) (x : Ctx) (r : Req) : State := (s.setCore x.c (Core.afterIssue x r (delayed x r))).takeItem x

/-- A sequencer instruction that issues acts on that state, and nothing follows its effect, which leaves the fault registers alone. -/
theorem State.issueRow_issues (hi : s.issues c 6 op prep x) (heff : ∀ t, ((eff x t).core x.c).flt = (t.core x.c).flt) :
    s.issueRow c 6 op prep eff = eff x (s.beforeEffect x (prep x)) := by
  obtain ⟨q, hx, hop, hdue, hok, hbrk, hstall, -⟩ := hi
  obtain ⟨rfl, he, hk⟩ := State.issueCtx_some hx
  have disarmed : ((eff x (s.beforeEffect x (prep x))).core x.c).flt.brkEn = false := by
    simp [heff, State.beforeEffect, hk, hbrk]
  rw [State.issueRow_head s hx hop, State.issueWith_ok s hdue hok]
  simp only [hstall, Bool.and_false, Bool.false_eq_true, if_false]
  rw [← State.beforeEffect, State.breakHit_disarmed disarmed, State.headPoison_sequencer he]

end Issue

/-! ### The pending result of a register -/

/-- The result found for a register is one of its own that has arrived. -/
theorem pendFor_some {l : List SPend} {r now : Nat} {y : SPend} (h : pendFor l r now = some y) : y.reg = r ∧ y.due ≤ now := by
  unfold pendFor at h
  revert y
  refine List.foldlRecOn (motive := fun best => ∀ {y : SPend}, best = some y → y.reg = r ∧ y.due ≤ now) l _ ?_ ?_
  · exact nofun
  intro best hbest z _ y h
  split at h
  case isFalse => exact hbest h
  case isTrue hz =>
    split at h
    · cases h
      exact hz
    · split at h <;> cases h
      · exact hz
      · exact hbest rfl

/-- A result issued last is the one found in the cycle it arrives: no earlier issue that has arrived is due later. -/
theorem pendFor_append_due (l : List SPend) (z : SPend) : pendFor (l ++ [z]) z.reg z.due = some z := by
  have earlier (b : SPend) (hb : pendFor l z.reg z.due = some b) : b.due ≤ z.due := (pendFor_some hb).2
  simp only [pendFor, List.foldl_append, List.foldl_cons, List.foldl_nil, Nat.le_refl, and_self, if_true] at earlier ⊢
  split
  · rfl
  · next b hb => exact if_pos (earlier b hb)

/-- A register other than S0 reads the value written in the cycle its result arrives (R124, R126). -/
theorem CoreSeq.reg_write_due (q : CoreSeq) {r : Nat} (v due : Nat) (poison : Bool) (src : Option (Nat × Nat)) (hr : r ≠ 0) :
    (q.write r v poison due src).reg r due = (v, poison) := by
  simp [CoreSeq.reg, CoreSeq.write, hr, pendFor_append_due q.pend ⟨r, v, poison, due⟩]

/-! ### The rows of R128 -/

/-- The model's signed reading of a word is that of bit vectors. -/
theorem toSigned_toNat {w : Nat} (a : BitVec w) : toSigned w a.toNat = a.toInt := by
  have half : a.toNat < 2 ^ (w - 1) ↔ 2 * a.toNat < 2 ^ w := by
    cases w with
    | zero => simp [BitVec.of_length_zero]
    | succ n => rw [Nat.pow_succ, Nat.add_sub_cancel]; omega
  simp only [toSigned, Nat.mod_eq_of_lt a.isLt, half, BitVec.toInt]

/-- The model's code of an integer is that of bit vectors. -/
theorem ofSigned_eq_toNat_ofInt (w : Nat) (i : Int) : ofSigned w i = (BitVec.ofInt w i).toNat := by
  rw [BitVec.toNat_ofInt, ofSigned]

section Rows
variable (a b d : BitVec 64) (imm : BitVec 32) (n m : Nat)

theorem aluOp_add : aluOp 0x0 a.toNat b.toNat n m = (a + b).toNat := (BitVec.toNat_add a b).symm

/-- The row is reached by `split`: where `rfl` reaches it, the kernel computes with 2^64 in unary. -/
theorem aluOp_sub : aluOp 0x1 a.toNat b.toNat n m = (a - b).toNat := by
  rw [BitVec.toNat_sub, aluOp.eq_def]
  split
  case h_2 =>
    have hb := b.isLt
    dsimp only
    congr 1
    omega
  all_goals contradiction

theorem aluOp_and : aluOp 0x2 a.toNat b.toNat n m = (a &&& b).toNat := (BitVec.toNat_and a b).symm

theorem aluOp_or : aluOp 0x3 a.toNat b.toNat n m = (a ||| b).toNat := (BitVec.toNat_or a b).symm

theorem aluOp_xor : aluOp 0x4 a.toNat b.toNat n m = (a ^^^ b).toNat := (BitVec.toNat_xor a b).symm

theorem aluOp_shiftLeft : aluOp 0x5 a.toNat b.toNat n m = (a <<< (b.toNat % 64)).toNat := by
  rw [BitVec.toNat_shiftLeft, Nat.shiftLeft_eq]
  rfl

theorem aluOp_ushiftRight : aluOp 0x6 a.toNat b.toNat n m = (a >>> (b.toNat % 64)).toNat := by
  rw [BitVec.toNat_ushiftRight, Nat.shiftRight_eq_div_pow]
  rfl

theorem aluOp_sshiftRight : aluOp 0x7 a.toNat b.toNat n m = (a.sshiftRight (b.toNat % 64)).toNat := by
  rw [BitVec.sshiftRight, Int.shiftRight_eq_div_pow, ← ofSigned_eq_toNat_ofInt, ← toSigned_toNat]
  rfl

theorem aluOp_mul : aluOp 0x8 a.toNat b.toNat n m = (a * b).toNat := (BitVec.toNat_mul a b).symm

theorem aluOp_smin : aluOp 0x9 a.toNat b.toNat n m = (if a.toInt ≤ b.toInt then a else b).toNat := by
  rw [apply_ite BitVec.toNat, ← toSigned_toNat, ← toSigned_toNat]
  rfl

theorem aluOp_smax : aluOp 0xA a.toNat b.toNat n m = (if a.toInt ≤ b.toInt then b else a).toNat := by
  rw [apply_ite BitVec.toNat, ← toSigned_toNat, ← toSigned_toNat]
  rfl

theorem aluOp_high : aluOp 0xE n m d.toNat imm.toNat = (imm ++ d.extractLsb' 0 32).toNat := by
  rw [BitVec.toNat_append, ← Nat.shiftLeft_add_eq_or_of_lt (BitVec.isLt _), Nat.shiftLeft_eq, BitVec.extractLsb'_toNat, Nat.shiftRight_zero]
  rfl

theorem aluOp_slt : aluOp 0xF a.toNat b.toNat n m = if a.toInt < b.toInt then 1 else 0 := by
  rw [← toSigned_toNat, ← toSigned_toNat]
  rfl

end Rows

/-! ### ALU -/

theorem aluEff_flt (x : Ctx) (t : State) : ((aluEff x t).core x.c).flt = (t.core x.c).flt := by
  simp [aluEff, flyTo]

/-- After ALU, SD holds the operation's value from the cycle its latency ends, whatever earlier results of SD arrive until then. -/
theorem aluEff_result (x : Ctx) (t : State) (hsd : sqSd x.word ≠ 0) :
    (((aluEff x t).core x.c).seq.reg (sqSd x.word) (x.now + aluLat (wMod x.word))).1 =
      aluOp (wMod x.word) (x.k.seq.reg (sqSa x.word) x.now).1 (x.k.seq.opB x.word x.now).1 (x.k.seq.reg (sqSd x.word) x.now).1 (sqImm x.word) := by
  simp [aluEff, flyTo, CoreSeq.reg_write_due _ _ _ _ _ hsd]

/-- An ALU instruction that issues gives SD the operation's value on the registers as they were (R127). -/
theorem exec_alu_result {s : State} {c : Nat} {x : Ctx} (hi : s.issues c 6 0x20 (fun x => sqReq x false) x) (hsd : sqSd x.word ≠ 0) :
    ∃ t, exec (.alu c) s = .next t ∧ ((t.core c).seq.reg (sqSd x.word) (x.now + aluLat (wMod x.word))).1 =
      aluOp (wMod x.word) ((s.core c).seq.reg (sqSa x.word) x.now).1 ((s.core c).seq.opB x.word x.now).1
        ((s.core c).seq.reg (sqSd x.word) x.now).1 (sqImm x.word) := by
  have ⟨_, hx, _⟩ := hi
  obtain ⟨rfl, -, hk⟩ := State.issueCtx_some hx
  refine ⟨_, congrArg Host.Outcome.next (State.issueRow_issues hi (aluEff_flt x)), ?_⟩
  rw [aluEff_result x _ hsd, hk]

/-- Settles O19: the value that ALU leaves in SD is `aluOp`, and each of its rows is the operation of R128 on 64-bit words. -/
theorem aluOperations : Obligations.AluOperations := by
  unfold Obligations.AluOperations
  intro s c x a b d imm hi ha hb hd himm hsd
  obtain ⟨t, ht, hv⟩ := exec_alu_result hi hsd
  rw [ha, hb, hd, himm] at hv
  refine ⟨t, _, ht, hv, ?_⟩
  generalize wMod x.word = mod
  refine ⟨?add, ?sub, ?and, ?or, ?xor, ?shl, ?shr, ?sar, ?mul, ?smin, ?smax, ?umin, ?umax, ?mov, ?high, ?slt⟩ <;> rintro rfl
  case add => exact aluOp_add ..
  case sub => exact aluOp_sub ..
  case and => exact aluOp_and ..
  case or => exact aluOp_or ..
  case xor => exact aluOp_xor ..
  case shl => exact aluOp_shiftLeft ..
  case shr => exact aluOp_ushiftRight ..
  case sar => exact aluOp_sshiftRight ..
  case mul => exact aluOp_mul ..
  case smin => exact aluOp_smin ..
  case smax => exact aluOp_smax ..
  case umin | umax | mov => rfl
  case high => exact aluOp_high ..
  case slt => exact aluOp_slt ..

end Sys2Proof.Machine
end

section
/-! PROOFS. The lane tree (R213): one level combines each lane with the lane beside it, so a level, and by induction the whole tree, acts on the two
halves of the lanes apart from each other. -/

namespace Sys2Proof.Machine

section LaneTree
variable (f : Option RedV → Option RedV → Option RedV)

/-- One level of the tree of R213: v[2i] op v[2i + 1] for each i in the lower half. -/
def treeLevel (l : List (Option RedV)) : List (Option RedV) :=
  (List.range (l.length / 2)).map fun i => f (l.getD (2 * i) none) (l.getD (2 * i + 1) none)

@[simp] theorem laneTree_zero (x : Option RedV) : laneTree f 0 [x] = x := rfl

theorem laneTree_succ (n : Nat) (l : List (Option RedV)) : laneTree f (n + 1) l = laneTree f n (treeLevel f l) := rfl

@[simp] theorem treeLevel_pair (x y : Option RedV) : treeLevel f [x, y] = [f x y] := by simp [treeLevel]

theorem length_treeLevel {n : Nat} {l : List (Option RedV)} (hl : l.length = 2 ^ (n + 1)) : (treeLevel f l).length = 2 ^ n := by
  rw [treeLevel, List.length_map, List.length_range, hl, Nat.pow_succ, Nat.mul_div_cancel _ Nat.two_pos]

/-- No pair of a level straddles the end of a part with an even number of lanes. -/
theorem treeLevel_append {m : Nat} {l : List (Option RedV)} (r : List (Option RedV)) (hl : l.length = 2 * m) :
    treeLevel f (l ++ r) = treeLevel f l ++ treeLevel f r := by
  have pairs_left : l.length / 2 = m := by omega
  have pairs : (l ++ r).length / 2 = m + r.length / 2 := by rw [List.length_append]; omega
  rw [treeLevel, pairs, List.range_add, List.map_append, List.map_map]
  congr 1
  · rw [treeLevel, pairs_left]
    refine List.map_congr_left fun i hi => ?_
    have hi : i < m := List.mem_range.mp hi
    simp only [List.getD_eq_getElem?_getD]
    rw [List.getElem?_append_left (by omega), List.getElem?_append_left (by omega)]
  · refine List.map_congr_left fun i _ => ?_
    have even : 2 * (m + i) - l.length = 2 * i := by omega
    have odd : 2 * (m + i) + 1 - l.length = 2 * i + 1 := by omega
    simp only [Function.comp_apply, List.getD_eq_getElem?_getD]
    rw [List.getElem?_append_right (by omega), List.getElem?_append_right (by omega), even, odd]

/-- The last level combines the results of the two halves. -/
theorem laneTree_append (n : Nat) (l r : List (Option RedV)) (hl : l.length = 2 ^ n) (hr : r.length = 2 ^ n) :
    laneTree f (n + 1) (l ++ r) = f (laneTree f n l) (laneTree f n r) := by
  induction n generalizing l r with
  | zero =>
    obtain ⟨x, rfl⟩ := List.length_eq_one_iff.mp hl
    obtain ⟨y, rfl⟩ := List.length_eq_one_iff.mp hr
    rw [List.singleton_append, laneTree_succ, treeLevel_pair, laneTree_zero, laneTree_zero, laneTree_zero]
  | succ n ih =>
    have halves : treeLevel f (l ++ r) = treeLevel f l ++ treeLevel f r := treeLevel_append f r (hl.trans Nat.pow_succ')
    rw [laneTree_succ, halves, ih _ _ (length_treeLevel f hl) (length_treeLevel f hr), ← laneTree_succ, ← laneTree_succ]

end LaneTree

section RedOpt
variable (f : RedV → RedV → RedV)

@[simp] theorem redOpt_none_left (x : Option RedV) : redOpt f none x = x := rfl

@[simp] theorem redOpt_none_right (x : Option RedV) : redOpt f x none = x := by cases x <;> rfl

@[simp] theorem redOpt_some_some (a b : RedV) : redOpt f (some a) (some b) = some (f a b) := rfl

/-- Absent lanes alone give an absent result. -/
theorem laneTree_absent (n : Nat) : laneTree (redOpt f) n (List.replicate (2 ^ n) none) = none := by
  induction n with
  | zero => rfl
  | succ n ih =>
    have halves : List.replicate (2 ^ (n + 1)) (none : Option RedV) = List.replicate (2 ^ n) none ++ List.replicate (2 ^ n) none := by
      rw [List.replicate_append_replicate, Nat.pow_succ, Nat.mul_two]
    rw [halves, laneTree_append _ n _ _ List.length_replicate List.length_replicate, ih, redOpt_none_left]

end RedOpt

/-- Settles O28: a tree over twice as many lanes is the combination of the trees over its halves, since no level pairs a lane of one with a lane of the
other before the last. -/
theorem laneTreeOrder : Obligations.LaneTreeOrder := by
  unfold Obligations.LaneTreeOrder
  exact ⟨fun f x => ⟨laneTree_zero _ x, redOpt_none_left f x, redOpt_none_right f x⟩, redOpt_some_some, fun f => laneTree_append (redOpt f), laneTree_absent⟩

end Sys2Proof.Machine
end
